-- ==== Sys2Proof/Word.lean ====
section
/-!
DEFINITION. The words of the machine (R5): a scalar word is 64 bits, a lane holds 32 bits, an execution mask or a
predicate register holds one bit per lane for 128 lanes, and memory is read in bytes.
-/
namespace Sys2Proof

/-- A scalar register, an address or a management register: 64 bits. -/
abbrev Word := BitVec 64

/-- One scalar instruction word, a literal, or one lane of a vector register: 32 bits. -/
abbrev Word32 := BitVec 32

/-- One byte of memory. -/
abbrev Byte := BitVec 8

/-- A set of lanes: bit l is lane l of the 128 lanes (R2). -/
abbrev Mask := BitVec 128

end Sys2Proof
end

