-- ==== Sys2Proof/Config.lean ====
section
/-!
DEFINITION. The constants of the composition (R1 to R3) and the free values: values the spec leaves open, as opaque
constants without a body, so that no proof can see what they are. Each is named in the assumption log.
-/
namespace Sys2Proof.Config

/-- Compute dies of the device (R1). -/
abbrev dies : Nat := 4
/-- Clusters of the device, sixteen on each compute die (R1, R2). -/
abbrev clusters : Nat := 64
/-- Cores of the device, four in each cluster (R1). -/
abbrev cores : Nat := 256
/-- Wave slots of a core, twenty-four in each quarter (R2). -/
abbrev slots : Nat := 96
/-- Lanes of a core (R2). -/
abbrev lanes : Nat := 128
/-- Stacks and base dies (R34). -/
abbrev stackCount : Nat := 12

/-- Free value number `n` (R145, R209, R239, R135): the machine applies it to a counter of the state that it then
advances, so each use has a value of its own. UNVERIFIED: no source gives these values. -/
opaque freeValue (n : Nat) : Word

/-- Free value of 32 bits, for a lane whose value the spec leaves open. -/
def freeWord32 (n : Nat) : Word32 := (freeValue n).setWidth 32

/-- The random key pair that KCMD GEN draws (R28), 64 bytes; the internal random source is not described. -/
opaque randomKey (n : Nat) : BitVec 512

/-- The bits of 2 to the power x in FP32 (R355): the spec gives an error bound and exact special values only. -/
opaque exp2Bits (x : Word32) : Word32
/-- The bits of the base 2 logarithm in FP32 (R355). -/
opaque log2Bits (x : Word32) : Word32
/-- The bits of the sine in FP32 (R355). -/
opaque sinBits (x : Word32) : Word32
/-- The bits of the cosine in FP32 (R355). -/
opaque cosBits (x : Word32) : Word32

/-- The digest of the public key that is fused into the part, byte i in bits 8i + 7 to 8i (R218). -/
opaque fusedKeyDigest : BitVec 256
/-- The stepping number of the part in the Light List's DEVICE record (R217). -/
opaque stepping : Byte
/-- UCIe modules of the host link (R1). -/
abbrev hostModules : Nat := 4
/-- How many of them trained, in the Light List's HOSTLINK record (R217). -/
opaque uciModules : Fin (hostModules + 1)
end Sys2Proof.Config
end

