-- ==== Sys2Proof/Syntax.lean ====
section
/-!
DEFINITION. The instructions and steps of the part: one constructor for each row of the opcode table. A scalar row
holds the raw fields of its 32-bit word (and the literal of an SX form); a lane row holds the raw fields of its 96-bit
word beside the opcode; a row that is an event of the device or the host holds what selects the event and what the
outside world answers in it (an error of the memory cells, a peer's reply, a measured margin).
-/
namespace Sys2Proof

/-- The fields of a lane word beside its opcode (R248); `low` holds bits 30:0, which R249 lays out by format. -/
structure LaneWord where
  typ  : BitVec 5
  mod  : BitVec 8
  neg  : BitVec 1
  pred : BitVec 4
  dst  : BitVec 8
  sa   : BitVec 9
  sb   : BitVec 9
  sc   : BitVec 9
  low  : BitVec 31
  deriving DecidableEq, Repr

namespace LaneWord
/-- Bit 30 of the L3 and LX formats: the destination is a scalar register (R249, R252). -/
def sd (w : LaneWord) : Bool := w.low.getLsbD 30
/-- Bits 29:27 of LX: the segment is 128 >> SEG lanes (R249). -/
def seg (w : LaneWord) : BitVec 3 := w.low.extractLsb' 27 3
/-- Bits 30:28 of LM: the scope code (R249). -/
def scp (w : LaneWord) : BitVec 3 := w.low.extractLsb' 28 3
/-- Bits 27:26 of LM: the order (R249, Table 2). -/
def ord (w : LaneWord) : BitVec 2 := w.low.extractLsb' 26 2
/-- Bit 25 of LM: the convoy tag (R249). -/
def cv (w : LaneWord) : Bool := w.low.getLsbD 25
/-- Bits 24:23 of LM: the index scale (R249). -/
def scl (w : LaneWord) : BitVec 2 := w.low.extractLsb' 23 2
/-- Bits 22:0 of LM: the signed byte offset (R249). -/
def off (w : LaneWord) : BitVec 23 := w.low.extractLsb' 0 23
/-- The 32-bit immediate of the LI format: bit 31 is the lowest bit of SC (R248, R249). -/
def imm (w : LaneWord) : Word32 := w.sc.extractLsb' 0 1 ++ w.low
end LaneWord

/-- What a base die finds wrong with one atom as it reads it: an input from the memory cells (R42, R43). -/
structure AtomError where
  /-- the atom, PA div 64 -/
  atom : Nat
  /-- the error can't be corrected (R43); otherwise it is corrected (R42) -/
  uncorrectable : Bool
  deriving DecidableEq, Repr

/-- The errors met by one access: the atoms not listed read without an error. -/
abbrev Ecc := List AtomError

/-- What the fabric or the host link answers to an access of the peer or host window (R124, R10, R26). -/
inductive Remote where
  /-- the bytes read, or an acknowledged write with none -/
  | data (bytes : List Byte)
  /-- the peer reports that the key differs from its region's binding (R26) -/
  | keyMismatch
  /-- a link error (R10) -/
  | linkError
  deriving DecidableEq, Repr

/-- The operation of an access that arrives from a peer device (R151). -/
inductive PeerOp where
  | read (size : Nat)
  | write (bytes : List Byte)
  | atomic (aop : BitVec 8) (typ : BitVec 5) (operand compare : Word)
  deriving DecidableEq, Repr

/-- An access that arrives from a peer device and is performed here (R10, R151). -/
structure PeerAccess where
  device : BitVec 10
  pa     : Nat
  key    : BitVec 10
  op     : PeerOp
  ecc    : Ecc
  deriving DecidableEq, Repr

/-- What training and the firmware find at a cold reset (R41, R48, R50, R405). -/
structure Training where
  /-- the ECC mode the firmware sets for all stacks: true is channel parity (R41) -/
  eccm   : Bool
  /-- the device number assigned at link training, 0 if no port trained (R405) -/
  num    : BitVec 10
  /-- the repair map of each stack, as training rebuilds it (R48, R50) -/
  reps   : List (Nat × Word)
  /-- the device numbers the fabric has a route to (R10) -/
  routes : List Nat
  deriving DecidableEq, Repr

/-- The instructions, lane instructions and events of the part, in the order of the opcode table. -/
inductive Instr where
  /-- ADD (R284): Register-form 64-bit add of two scalar registers, wrapping modulo 2^64 -/
  | add (d : BitVec 8) (a : BitVec 8) (b : BitVec 8)
  /-- ADD_IMM (R284): Immediate-form add with a sign-extended 8-bit immediate -/
  | addImm (d : BitVec 8) (a : BitVec 8) (i : BitVec 8)
  /-- ADD_SX (R284): SX-form add with a sign-extended 32-bit literal word -/
  | addSx (d : BitVec 8) (a : BitVec 8) (i : BitVec 8) (lit : Word32)
  /-- SUB (R284): Register-form subtract, wrapping modulo 2^64 -/
  | sub (d : BitVec 8) (a : BitVec 8) (b : BitVec 8)
  /-- SUB_IMM (R284): Immediate-form subtract -/
  | subImm (d : BitVec 8) (a : BitVec 8) (i : BitVec 8)
  /-- SUB_SX (R284): SX-form subtract with a 32-bit literal -/
  | subSx (d : BitVec 8) (a : BitVec 8) (i : BitVec 8) (lit : Word32)
  /-- MUL (R284): Register-form multiply giving the low 64 bits of the product -/
  | mul (d : BitVec 8) (a : BitVec 8) (b : BitVec 8)
  /-- MUL_IMM (R284): Immediate-form multiply, low 64 bits -/
  | mulImm (d : BitVec 8) (a : BitVec 8) (i : BitVec 8)
  /-- MUL_SX (R284): SX-form multiply, low 64 bits -/
  | mulSx (d : BitVec 8) (a : BitVec 8) (i : BitVec 8) (lit : Word32)
  /-- MULH (R284): Register-form multiply giving the high 64 bits of the signed 128-bit product -/
  | mulh (d : BitVec 8) (a : BitVec 8) (b : BitVec 8)
  /-- MULH_IMM (R284): Immediate-form signed high multiply -/
  | mulhImm (d : BitVec 8) (a : BitVec 8) (i : BitVec 8)
  /-- MULH_SX (R284): SX-form signed high multiply -/
  | mulhSx (d : BitVec 8) (a : BitVec 8) (i : BitVec 8) (lit : Word32)
  /-- MULHN (R284): Register-form multiply giving the high 64 bits of the unsigned product -/
  | mulhn (d : BitVec 8) (a : BitVec 8) (b : BitVec 8)
  /-- MULHN_IMM (R284): Immediate-form unsigned high multiply -/
  | mulhnImm (d : BitVec 8) (a : BitVec 8) (i : BitVec 8)
  /-- MULHN_SX (R284): SX-form unsigned high multiply -/
  | mulhnSx (d : BitVec 8) (a : BitVec 8) (i : BitVec 8) (lit : Word32)
  /-- DIV (R285): Register-form signed division truncating toward zero, with defined results at its limits -/
  | div (d : BitVec 8) (a : BitVec 8) (b : BitVec 8)
  /-- DIV_IMM (R285): Immediate-form signed division -/
  | divImm (d : BitVec 8) (a : BitVec 8) (i : BitVec 8)
  /-- DIV_SX (R285): SX-form signed division -/
  | divSx (d : BitVec 8) (a : BitVec 8) (i : BitVec 8) (lit : Word32)
  /-- DIVN (R285): Register-form unsigned division -/
  | divn (d : BitVec 8) (a : BitVec 8) (b : BitVec 8)
  /-- DIVN_IMM (R285): Immediate-form unsigned division -/
  | divnImm (d : BitVec 8) (a : BitVec 8) (i : BitVec 8)
  /-- DIVN_SX (R285): SX-form unsigned division -/
  | divnSx (d : BitVec 8) (a : BitVec 8) (i : BitVec 8) (lit : Word32)
  /-- REM (R285): Register-form signed remainder with the sign of the dividend -/
  | rem (d : BitVec 8) (a : BitVec 8) (b : BitVec 8)
  /-- REM_IMM (R285): Immediate-form signed remainder -/
  | remImm (d : BitVec 8) (a : BitVec 8) (i : BitVec 8)
  /-- REM_SX (R285): SX-form signed remainder -/
  | remSx (d : BitVec 8) (a : BitVec 8) (i : BitVec 8) (lit : Word32)
  /-- REMN (R285): Register-form unsigned remainder -/
  | remn (d : BitVec 8) (a : BitVec 8) (b : BitVec 8)
  /-- REMN_IMM (R285): Immediate-form unsigned remainder -/
  | remnImm (d : BitVec 8) (a : BitVec 8) (i : BitVec 8)
  /-- REMN_SX (R285): SX-form unsigned remainder -/
  | remnSx (d : BitVec 8) (a : BitVec 8) (i : BitVec 8) (lit : Word32)
  /-- AND (R284): Register-form bitwise and -/
  | and (d : BitVec 8) (a : BitVec 8) (b : BitVec 8)
  /-- AND_IMM (R284): Immediate-form bitwise and -/
  | andImm (d : BitVec 8) (a : BitVec 8) (i : BitVec 8)
  /-- AND_SX (R284): SX-form bitwise and -/
  | andSx (d : BitVec 8) (a : BitVec 8) (i : BitVec 8) (lit : Word32)
  /-- OR (R284): Register-form bitwise or -/
  | or (d : BitVec 8) (a : BitVec 8) (b : BitVec 8)
  /-- OR_IMM (R284): Immediate-form bitwise or -/
  | orImm (d : BitVec 8) (a : BitVec 8) (i : BitVec 8)
  /-- OR_SX (R284): SX-form bitwise or -/
  | orSx (d : BitVec 8) (a : BitVec 8) (i : BitVec 8) (lit : Word32)
  /-- XOR (R284): Register-form bitwise exclusive or -/
  | xor (d : BitVec 8) (a : BitVec 8) (b : BitVec 8)
  /-- XOR_IMM (R284): Immediate-form bitwise exclusive or -/
  | xorImm (d : BitVec 8) (a : BitVec 8) (i : BitVec 8)
  /-- XOR_SX (R284): SX-form bitwise exclusive or -/
  | xorSx (d : BitVec 8) (a : BitVec 8) (i : BitVec 8) (lit : Word32)
  /-- ANDN (R284): Register-form a and not b -/
  | andn (d : BitVec 8) (a : BitVec 8) (b : BitVec 8)
  /-- ANDN_IMM (R284): Immediate-form a and not b -/
  | andnImm (d : BitVec 8) (a : BitVec 8) (i : BitVec 8)
  /-- ANDN_SX (R284): SX-form a and not b -/
  | andnSx (d : BitVec 8) (a : BitVec 8) (i : BitVec 8) (lit : Word32)
  /-- SHL (R284): Register-form left shift by b<5:0> -/
  | shl (d : BitVec 8) (a : BitVec 8) (b : BitVec 8)
  /-- SHL_IMM (R284): Immediate-form left shift -/
  | shlImm (d : BitVec 8) (a : BitVec 8) (i : BitVec 8)
  /-- SHL_SX (R284): SX-form left shift -/
  | shlSx (d : BitVec 8) (a : BitVec 8) (i : BitVec 8) (lit : Word32)
  /-- SHR (R284): Register-form logical right shift -/
  | shr (d : BitVec 8) (a : BitVec 8) (b : BitVec 8)
  /-- SHR_IMM (R284): Immediate-form logical right shift -/
  | shrImm (d : BitVec 8) (a : BitVec 8) (i : BitVec 8)
  /-- SHR_SX (R284): SX-form logical right shift -/
  | shrSx (d : BitVec 8) (a : BitVec 8) (i : BitVec 8) (lit : Word32)
  /-- SAR (R284): Register-form arithmetic right shift -/
  | sar (d : BitVec 8) (a : BitVec 8) (b : BitVec 8)
  /-- SAR_IMM (R284): Immediate-form arithmetic right shift -/
  | sarImm (d : BitVec 8) (a : BitVec 8) (i : BitVec 8)
  /-- SAR_SX (R284): SX-form arithmetic right shift -/
  | sarSx (d : BitVec 8) (a : BitVec 8) (i : BitVec 8) (lit : Word32)
  /-- ROT (R284): Register-form rotate left by b<5:0> -/
  | rot (d : BitVec 8) (a : BitVec 8) (b : BitVec 8)
  /-- ROT_IMM (R284): Immediate-form rotate left -/
  | rotImm (d : BitVec 8) (a : BitVec 8) (i : BitVec 8)
  /-- ROT_SX (R284): SX-form rotate left -/
  | rotSx (d : BitVec 8) (a : BitVec 8) (i : BitVec 8) (lit : Word32)
  /-- MIN (R284): Register-form signed minimum -/
  | min (d : BitVec 8) (a : BitVec 8) (b : BitVec 8)
  /-- MIN_IMM (R284): Immediate-form signed minimum -/
  | minImm (d : BitVec 8) (a : BitVec 8) (i : BitVec 8)
  /-- MIN_SX (R284): SX-form signed minimum -/
  | minSx (d : BitVec 8) (a : BitVec 8) (i : BitVec 8) (lit : Word32)
  /-- MAX (R284): Register-form signed maximum -/
  | max (d : BitVec 8) (a : BitVec 8) (b : BitVec 8)
  /-- MAX_IMM (R284): Immediate-form signed maximum -/
  | maxImm (d : BitVec 8) (a : BitVec 8) (i : BitVec 8)
  /-- MAX_SX (R284): SX-form signed maximum -/
  | maxSx (d : BitVec 8) (a : BitVec 8) (i : BitVec 8) (lit : Word32)
  /-- MINN (R284): Register-form unsigned minimum -/
  | minn (d : BitVec 8) (a : BitVec 8) (b : BitVec 8)
  /-- MINN_IMM (R284): Immediate-form unsigned minimum -/
  | minnImm (d : BitVec 8) (a : BitVec 8) (i : BitVec 8)
  /-- MINN_SX (R284): SX-form unsigned minimum -/
  | minnSx (d : BitVec 8) (a : BitVec 8) (i : BitVec 8) (lit : Word32)
  /-- MAXN (R284): Register-form unsigned maximum -/
  | maxn (d : BitVec 8) (a : BitVec 8) (b : BitVec 8)
  /-- MAXN_IMM (R284): Immediate-form unsigned maximum -/
  | maxnImm (d : BitVec 8) (a : BitVec 8) (i : BitVec 8)
  /-- MAXN_SX (R284): SX-form unsigned maximum -/
  | maxnSx (d : BitVec 8) (a : BitVec 8) (i : BitVec 8) (lit : Word32)
  /-- CMP (R286): Register-form compare writing the EQ, LTS and LTN comparison word -/
  | cmp (d : BitVec 8) (a : BitVec 8) (b : BitVec 8)
  /-- CMP_IMM (R286): Immediate-form compare -/
  | cmpImm (d : BitVec 8) (a : BitVec 8) (i : BitVec 8)
  /-- CMP_SX (R286): SX-form compare against a 32-bit literal -/
  | cmpSx (d : BitVec 8) (a : BitVec 8) (i : BitVec 8) (lit : Word32)
  /-- CLZ (R287): Counts the leading zero bits of a scalar register -/
  | clz (d : BitVec 8) (a : BitVec 8)
  /-- POPC (R287): Counts the set bits of a scalar register -/
  | popc (d : BitVec 8) (a : BitVec 8)
  /-- SEL (R287): Writes a if a is nonzero, otherwise b -/
  | sel (d : BitVec 8) (a : BitVec 8) (b : BitVec 8)
  /-- BFX (R288): Extracts a bit field described by b, optionally sign-extended -/
  | bfx (d : BitVec 8) (a : BitVec 8) (b : BitVec 8)
  /-- BFI (R288): Inserts a bit field of a into d as described by b -/
  | bfi (d : BitVec 8) (a : BitVec 8) (b : BitVec 8)
  /-- FADD (R290): Scalar FP32 addition rounded under FMT -/
  | fadd (d : BitVec 8) (a : BitVec 8) (b : BitVec 8)
  /-- FMUL (R290): Scalar FP32 multiplication rounded under FMT -/
  | fmul (d : BitVec 8) (a : BitVec 8) (b : BitVec 8)
  /-- FFMA (R290): Scalar FP32 fused multiply-add with d as addend, rounded once -/
  | ffma (d : BitVec 8) (a : BitVec 8) (b : BitVec 8)
  /-- FCMP (R291): Scalar FP32 compare writing the UN, LT and EQ word -/
  | fcmp (d : BitVec 8) (a : BitVec 8) (b : BitVec 8)
  /-- FCVT (R292): Scalar conversion between FP32, 16-bit floats and 32 or 64-bit integers by KIND -/
  | fcvt (d : BitVec 8) (a : BitVec 8) (k : BitVec 4)
  /-- LI (R289): Loads a sign-extended 16-bit constant into d -/
  | li (d : BitVec 8) (i : BitVec 16)
  /-- LI_SX (R289): Loads a sign-extended 32-bit literal into d -/
  | liSx (d : BitVec 8) (i : BitVec 16) (lit : Word32)
  /-- LIH (R289): Writes a 16-bit value, sign-extended to 32 bits, into d<63:32>, keeping the low half -/
  | lih (d : BitVec 8) (i : BitVec 16)
  /-- LIH_SX (R289): Writes a 32-bit literal into d<63:32>, keeping the low half -/
  | lihSx (d : BitVec 8) (i : BitVec 16) (lit : Word32)
  /-- SLD (R293): Scalar load from the global, peer, host or Light List window, or a readable management register -/
  | sld (d : BitVec 8) (a : BitVec 8) (m : BitVec 8)
  /-- SLD_SX (R293): Scalar load with a 32-bit literal byte offset -/
  | sldSx (d : BitVec 8) (a : BitVec 8) (m : BitVec 8) (lit : Word32)
  /-- SST (R293): Scalar store through the L1, to a peer or the host, or to a queue aperture or FSHEAD -/
  | sst (d : BitVec 8) (a : BitVec 8) (m : BitVec 8)
  /-- SST_SX (R293): Scalar store with a 32-bit literal byte offset -/
  | sstSx (d : BitVec 8) (a : BitVec 8) (m : BitVec 8) (lit : Word32)
  /-- SLDS (R299): Scalar load from the wave's own gang's cluster scratch -/
  | slds (d : BitVec 8) (a : BitVec 8) (m : BitVec 8)
  /-- SLDS_SX (R299): Scalar scratch load with a literal offset -/
  | sldsSx (d : BitVec 8) (a : BitVec 8) (m : BitVec 8) (lit : Word32)
  /-- SSTS (R299): Scalar store to the wave's own gang's cluster scratch -/
  | ssts (d : BitVec 8) (a : BitVec 8) (m : BitVec 8)
  /-- SSTS_SX (R299): Scalar scratch store with a literal offset -/
  | sstsSx (d : BitVec 8) (a : BitVec 8) (m : BitVec 8) (lit : Word32)
  /-- SATOM (R300): Scalar indivisible read-modify-write at memory, at a scratch line or at a peer -/
  | satom (d : BitVec 8) (a : BitVec 8) (m : BitVec 8) (lit : Word32)
  /-- BR (R302): Unconditional relative branch -/
  | br (o : BitVec 24)
  /-- CALL (R302): Writes the return address to banked s191 and branches -/
  | call (o : BitVec 24)
  /-- BRC (R303): Branches when a condition on a scalar register holds -/
  | brc (a : BitVec 8) (c : BitVec 4) (o : BitVec 10)
  /-- BRM (R166): Mask branch that may split a fragment, predicting a pending predicate -/
  | brm (n : BitVec 1) (p : BitVec 4) (t : BitVec 4) (h : BitVec 2) (o : BitVec 10)
  /-- RCV (R167): Reconvergence point that runs a pending minority or merges a fragment group -/
  | rcv (t : BitVec 4)
  /-- JMPI (R306): Jumps to the address in a scalar register -/
  | jmpi (a : BitVec 8)
  /-- RET (R306): Jumps to banked s191 -/
  | ret
  /-- ISSUE (R161): Forms an issue record and enqueues a lane block into the wave's lane queue -/
  | issue (s : BitVec 8) (b : BitVec 16)
  /-- EXIT (R308): Ends the executing fragment, and the wave when it is the last -/
  | exit
  /-- WAIT (R312): Waits until the LD, ST, CP and TL counters are within their limits, taking due deferred traps -/
  | wait (l : BitVec 6) (s : BitVec 6) (c : BitVec 6) (t : BitVec 6)
  /-- FENCE (R313): Acquire, release or acquire-release fence at a scope -/
  | fence (o : BitVec 2) (s : BitVec 3)
  /-- NOP (R333): Changes nothing and takes one issue -/
  | nop
  /-- BARINIT (R82): Initialises a barrier object with EXPA, EXPB and EXT -/
  | barinit (d : BitVec 8) (a : BitVec 8) (e : BitVec 1)
  /-- BARARR (R82): Flushes reduction buffers and adds arrivals to a barrier object -/
  | bararr (d : BitVec 8) (a : BitVec 8) (s : BitVec 3)
  /-- BAREXP (R82): Adds expected bytes to a barrier object -/
  | barexp (d : BitVec 8) (a : BitVec 8) (s : BitVec 3)
  /-- BARWAIT (R316): Returns once a phase of a barrier object has completed, else registers and blocks -/
  | barwait (d : BitVec 8) (a : BitVec 8) (m : BitVec 8) (lit : Word32)
  /-- BARINV (R83): Invalidates a barrier object and wakes every waiter -/
  | barinv (a : BitVec 8) (s : BitVec 3)
  /-- BARPH (R314): Returns a barrier object's PHASE and INV without change -/
  | barph (d : BitVec 8) (a : BitVec 8)
  /-- CVJOIN (R65): Joins a convoy at the wave's position and returns a result code -/
  | cvjoin (d : BitVec 8) (a : BitVec 8)
  /-- CVLEAVE (R68): Leaves the wave's convoy -/
  | cvleave
  /-- CVSTEP (R66): Advances the wave's convoy position, held while it would run SLIP ahead of MIN -/
  | cvstep
  /-- SETFMT_REG (R335): Writes FMT from a scalar register -/
  | setfmtReg (a : BitVec 8)
  /-- SETFMT_IMM (R335): Writes FMT from a 16-bit immediate -/
  | setfmtImm (i : BitVec 16)
  /-- MMA (R339): Checks an operand specification and queues a tile multiply-accumulate -/
  | mma (a : BitVec 8)
  /-- MFENCE (R342): Closes the open tile operations into a batch and returns its number -/
  | mfence (d : BitVec 8)
  /-- MWAIT (R343): Waits for a batch and earlier batches, taking a held matrix fault -/
  | mwait (a : BitVec 8)
  /-- CPY (R318): Starts a linear or tile copy engine operation -/
  | cpy (d : BitVec 8) (a : BitVec 8)
  /-- CPYM (R104): Starts a multicast copy to the scratch of the selected gangs -/
  | cpym (d : BitVec 8) (a : BitVec 8)
  /-- CPYR (R106): Starts an accumulation into FX128 accumulators -/
  | cpyr (d : BitVec 8) (a : BitVec 8)
  /-- CPYX (R105): Starts a row gather through the gather front end -/
  | cpyx (d : BitVec 8) (a : BitVec 8)
  /-- NLSEND (R319): Sends lines of the wave's scratch out of a neighbour port on the named side -/
  | nlsend (s : BitVec 2) (d : BitVec 8) (a : BitVec 8) (b : BitVec 8)
  /-- NLRECV (R320): Arms, re-arms or disarms the inbound neighbour port of the named side -/
  | nlrecv (s : BitVec 2) (d : BitVec 8) (a : BitVec 8) (b : BitVec 8)
  /-- TSPAWN (R322): Appends a task record to the queue that launched the grid -/
  | tspawn (d : BitVec 8) (a : BitVec 8)
  /-- TDEP (R323): Decrements a dependence counter -/
  | tdep (d : BitVec 8) (a : BitVec 8)
  /-- TDONE (R324): Performs the grid's completion signals early, once per grid -/
  | tdone
  /-- QPUSH (R325): Appends an 8-byte value to a data queue -/
  | qpush (d : BitVec 8) (a : BitVec 8) (b : BitVec 8)
  /-- QPOP (R326): Takes the oldest entry of a data queue, or blocks as a waiter -/
  | qpop (d : BitVec 8) (a : BitVec 8)
  /-- FLUSHRED (R327): Flush point that drains the wave's reduction-buffer entries -/
  | flushred
  /-- TRAP (R328): Takes TRAPINSTR with its immediate as TVAL -/
  | trap (i : BitVec 16)
  /-- ERET (R203): Ends a handler with retry, skip, or an end of wave, gang or job -/
  | eret
  /-- MFS (R330): Reads a special register into d -/
  | mfs (d : BitVec 8) (i : BitVec 16)
  /-- MTS (R330): Writes a special register under its own rule -/
  | mts (d : BitVec 8) (i : BitVec 16)
  /-- YIELD (R331): Offers the wave's grid for eviction and waits there if it is chosen -/
  | yield
  /-- REGGROW (R332): Requests a larger vector register allocation, waiting if groups are not free -/
  | reggrow (a : BitVec 8)
  /-- REGSHRINK (R332): Returns vector register groups once no outstanding writer names them -/
  | regshrink (a : BitVec 8)
  /-- BKPT (R333): Takes BREAKPOINT, or halts the wave when a debugger is attached -/
  | bkpt
  /-- VFADD (R352): Lane floating-point add -/
  | vfadd (w : LaneWord)
  /-- VFADD_LI (R352): Lane floating-point add, LI form with a 32-bit immediate -/
  | vfaddLi (w : LaneWord)
  /-- VFSUB (R352): Lane floating-point subtract -/
  | vfsub (w : LaneWord)
  /-- VFSUB_LI (R352): Lane floating-point subtract, LI form -/
  | vfsubLi (w : LaneWord)
  /-- VFMUL (R352): Lane floating-point multiply -/
  | vfmul (w : LaneWord)
  /-- VFMUL_LI (R352): Lane floating-point multiply, LI form -/
  | vfmulLi (w : LaneWord)
  /-- VFFMA (R352): Lane fused multiply-add, rounded once -/
  | vffma (w : LaneWord)
  /-- VFFMA_LI (R352): Lane fused multiply-add, LI form -/
  | vffmaLi (w : LaneWord)
  /-- VFMIN (R353): Lane floating-point minimum -/
  | vfmin (w : LaneWord)
  /-- VFMIN_LI (R353): Lane floating-point minimum, LI form -/
  | vfminLi (w : LaneWord)
  /-- VFMAX (R353): Lane floating-point maximum -/
  | vfmax (w : LaneWord)
  /-- VFMAX_LI (R353): Lane floating-point maximum, LI form -/
  | vfmaxLi (w : LaneWord)
  /-- VFRCP (R354): Lane correctly rounded FP32 reciprocal -/
  | vfrcp (w : LaneWord)
  /-- VFRSQ (R354): Lane correctly rounded FP32 reciprocal square root -/
  | vfrsq (w : LaneWord)
  /-- VFSQRT (R354): Lane correctly rounded FP32 square root -/
  | vfsqrt (w : LaneWord)
  /-- VFDIV (R354): Lane correctly rounded FP32 division -/
  | vfdiv (w : LaneWord)
  /-- VFDIV_LI (R354): Lane FP32 division, LI form -/
  | vfdivLi (w : LaneWord)
  /-- VFEXP2 (R355): Lane FP32 base-2 exponential within 1 ulp -/
  | vfexp2 (w : LaneWord)
  /-- VFLOG2 (R355): Lane FP32 base-2 logarithm within its bound -/
  | vflog2 (w : LaneWord)
  /-- VFSIN (R355): Lane FP32 sine within its bound -/
  | vfsin (w : LaneWord)
  /-- VFCOS (R355): Lane FP32 cosine within its bound -/
  | vfcos (w : LaneWord)
  /-- VFCMP (R356): Lane floating-point compare writing a predicate -/
  | vfcmp (w : LaneWord)
  /-- VFCMP_LI (R356): Lane floating-point compare, LI form -/
  | vfcmpLi (w : LaneWord)
  /-- VFCLASS (R358): Lane classification mask of each floating-point element -/
  | vfclass (w : LaneWord)
  /-- VFRND (R357): Lane rounding to an integral value in the element's format -/
  | vfrnd (w : LaneWord)
  /-- VADD (R359): Lane integer add, wrapping -/
  | vadd (w : LaneWord)
  /-- VADD_LI (R359): Lane integer add, LI form -/
  | vaddLi (w : LaneWord)
  /-- VSUB (R359): Lane integer subtract, wrapping -/
  | vsub (w : LaneWord)
  /-- VSUB_LI (R359): Lane integer subtract, LI form -/
  | vsubLi (w : LaneWord)
  /-- VMUL (R359): Lane integer multiply, low bits -/
  | vmul (w : LaneWord)
  /-- VMUL_LI (R359): Lane integer multiply, LI form -/
  | vmulLi (w : LaneWord)
  /-- VMULH (R359): Lane integer multiply, high bits -/
  | vmulh (w : LaneWord)
  /-- VMULH_LI (R359): Lane high multiply, LI form -/
  | vmulhLi (w : LaneWord)
  /-- VMAD (R359): Lane integer multiply-add, low bits -/
  | vmad (w : LaneWord)
  /-- VMAD_LI (R359): Lane integer multiply-add, LI form -/
  | vmadLi (w : LaneWord)
  /-- VMIN (R359): Lane integer minimum by signedness -/
  | vmin (w : LaneWord)
  /-- VMIN_LI (R359): Lane integer minimum, LI form -/
  | vminLi (w : LaneWord)
  /-- VMAX (R359): Lane integer maximum by signedness -/
  | vmax (w : LaneWord)
  /-- VMAX_LI (R359): Lane integer maximum, LI form -/
  | vmaxLi (w : LaneWord)
  /-- VABS (R359): Lane signed integer absolute value -/
  | vabs (w : LaneWord)
  /-- VAND (R359): Lane bitwise and -/
  | vand (w : LaneWord)
  /-- VAND_LI (R359): Lane bitwise and, LI form -/
  | vandLi (w : LaneWord)
  /-- VOR (R359): Lane bitwise or -/
  | vor (w : LaneWord)
  /-- VOR_LI (R359): Lane bitwise or, LI form -/
  | vorLi (w : LaneWord)
  /-- VXOR (R359): Lane bitwise exclusive or -/
  | vxor (w : LaneWord)
  /-- VXOR_LI (R359): Lane bitwise exclusive or, LI form -/
  | vxorLi (w : LaneWord)
  /-- VSHL (R359): Lane left shift by b mod w -/
  | vshl (w : LaneWord)
  /-- VSHL_LI (R359): Lane left shift, LI form -/
  | vshlLi (w : LaneWord)
  /-- VSHR (R359): Lane logical right shift -/
  | vshr (w : LaneWord)
  /-- VSHR_LI (R359): Lane logical right shift, LI form -/
  | vshrLi (w : LaneWord)
  /-- VSAR (R359): Lane arithmetic right shift -/
  | vsar (w : LaneWord)
  /-- VSAR_LI (R359): Lane arithmetic right shift, LI form -/
  | vsarLi (w : LaneWord)
  /-- VBFX (R360): Lane bit-field extract -/
  | vbfx (w : LaneWord)
  /-- VBFX_LI (R360): Lane bit-field extract, LI form -/
  | vbfxLi (w : LaneWord)
  /-- VBFI (R360): Lane bit-field insert -/
  | vbfi (w : LaneWord)
  /-- VBFI_LI (R360): Lane bit-field insert, LI form -/
  | vbfiLi (w : LaneWord)
  /-- VPOPC (R359): Lane population count -/
  | vpopc (w : LaneWord)
  /-- VCLZ (R359): Lane count of leading zeros -/
  | vclz (w : LaneWord)
  /-- VCMP (R361): Lane integer compare writing a predicate -/
  | vcmp (w : LaneWord)
  /-- VCMP_LI (R361): Lane integer compare, LI form -/
  | vcmpLi (w : LaneWord)
  /-- VSADD (R359): Lane saturating add -/
  | vsadd (w : LaneWord)
  /-- VSADD_LI (R359): Lane saturating add, LI form -/
  | vsaddLi (w : LaneWord)
  /-- VSSUB (R359): Lane saturating subtract -/
  | vssub (w : LaneWord)
  /-- VSSUB_LI (R359): Lane saturating subtract, LI form -/
  | vssubLi (w : LaneWord)
  /-- VSEL (R362): Lane select between a and b by the guard -/
  | vsel (w : LaneWord)
  /-- VSEL_LI (R362): Lane select, LI form -/
  | vselLi (w : LaneWord)
  /-- PSET (R363): Sets a predicate where a lane value is nonzero -/
  | pset (w : LaneWord)
  /-- PAND (R363): Predicate and -/
  | pand (w : LaneWord)
  /-- POR (R363): Predicate or -/
  | por (w : LaneWord)
  /-- PXOR (R363): Predicate exclusive or -/
  | pxor (w : LaneWord)
  /-- PNOT (R363): Predicate complement -/
  | pnot (w : LaneWord)
  /-- VMASK (R364): Writes half of a predicate, masked by emask, to a scalar register -/
  | vmask (w : LaneWord)
  /-- VCVT (R365): Lane conversion between type codes of class C -/
  | vcvt (w : LaneWord)
  /-- VPACK (R366): Narrows and packs two sources into one lane -/
  | vpack (w : LaneWord)
  /-- VUNPACK (R367): Widens one packed part of a lane to 32 bits -/
  | vunpack (w : LaneWord)
  /-- VSCALE (R368): Lane multiply by a power of two, rounded once -/
  | vscale (w : LaneWord)
  /-- VSHUF (R369): Lane shuffle within segments by per-lane index -/
  | vshuf (w : LaneWord)
  /-- VBCAST (R369): Broadcasts one lane of each segment -/
  | vbcast (w : LaneWord)
  /-- VROT (R369): Rotates lanes within each segment -/
  | vrot (w : LaneWord)
  /-- VXLANE (R369): Exchanges lanes by xor of the lane index -/
  | vxlane (w : LaneWord)
  /-- VREADLANE (R370): Reads one lane into a scalar register -/
  | vreadlane (w : LaneWord)
  /-- VWRITELANE (R370): Writes a uniform value into one lane -/
  | vwritelane (w : LaneWord)
  /-- VIOTA (R371): Writes each active lane's count of lower active lanes with the predicate set -/
  | viota (w : LaneWord)
  /-- VREDUCE (R372): Combines the active lanes of each segment in ascending order -/
  | vreduce (w : LaneWord)
  /-- VMOV (R373): Copies a source bit pattern into each active lane -/
  | vmov (w : LaneWord)
  /-- VMOVI (R373): Writes a 32-bit immediate into each active lane -/
  | vmovi (w : LaneWord)
  /-- VLD (R377): Lane load through the L1 and Lens, from a peer or host, or from scratch -/
  | vld (w : LaneWord)
  /-- VST (R381): Lane store through the L1, to a peer or host, or to scratch -/
  | vst (w : LaneWord)
  /-- VLDX (R382): Lane gather load sent as GRD packets -/
  | vldx (w : LaneWord)
  /-- VSTX (R382): Lane scatter store sent as GWR packets -/
  | vstx (w : LaneWord)
  /-- VLDS (R377): Lane load restricted to cluster scratch -/
  | vlds (w : LaneWord)
  /-- VSTS (R377): Lane store restricted to cluster scratch -/
  | vsts (w : LaneWord)
  /-- VLDC (R383): Consumes hand-off lines, waiting for FULL and setting them EMPTY -/
  | vldc (w : LaneWord)
  /-- VSTP (R383): Produces hand-off lines, waiting for EMPTY and setting them FULL -/
  | vstp (w : LaneWord)
  /-- VPREF (R384): Prefetches global lines into the L1 -/
  | vpref (w : LaneWord)
  /-- VATOM (R386): Lane atomics returning old values -/
  | vatom (w : LaneWord)
  /-- VRED (R387): Adds lane contributions into the wave's reduction buffer -/
  | vred (w : LaneWord)
  /-- VACCRD (R389): Reads FX128 accumulators from scratch and converts them to FP32 -/
  | vaccrd (w : LaneWord)
  /-- VTRSEND (R390): Sends the wave's contribution to a reduction tree session -/
  | vtrsend (w : LaneWord)
  /-- VTRRECV (R390): Waits for and writes the tree session result -/
  | vtrrecv (w : LaneWord)
  /-- FAULT_RECORD_DRAIN (R32): A record held in the overflow buffer is written once the ring has room -/
  | faultRecordDrain (die : Nat)
  /-- TABLE_WALK (R16): A walker reads the page table levels and installs or fails the translation -/
  | tableWalk (id : Nat) (ecc : Ecc)
  /-- TLB_INVALIDATE_ALL (R22): Host TLBINVC command removing translations of all jobs -/
  | tlbInvalidateAll (v : Word)
  /-- TLB_INVALIDATE_JOB (R22): Host TLBINVC command removing one job's translations -/
  | tlbInvalidateJob (v : Word)
  /-- TLB_INVALIDATE_RANGE (R22): Host TLBINVC command removing one job's leaves overlapping a range, and its pointer-cache entries -/
  | tlbInvalidateRange (v : Word)
  /-- TLB_INVALIDATE_COMPLETE (R22): An invalidation finishes once no matching entry, access or walk remains, and BUSY clears -/
  | tlbInvalidateComplete
  /-- CREATE (R24): JOBCTL command making a FREE or ENDED job ACTIVE -/
  | create (job : Nat) (v : Word)
  /-- END (R24): JOBCTL command moving an ACTIVE job to ENDING and ending its grids -/
  | endJob (job : Nat) (v : Word)
  /-- JOB_ENDED (R24): An ENDING job becomes ENDED once nothing of it remains on the device -/
  | jobEnded (job : Nat)
  /-- KEY_LOAD (R28): KCMD LOAD of a key pair from KMAT into an empty slot -/
  | keyLoad (v : Word)
  /-- KEY_GEN (R28): KCMD GEN of a key pair from the internal random source -/
  | keyGen (v : Word)
  /-- KEY_DESTROY (R29): KCMD DESTROY zeroizing a slot and marking its regions not live -/
  | keyDestroy (v : Word)
  /-- KEY_COMMAND_COMPLETE (R29): A key command finishes in all base dies, clearing BUSY and zeroing KMAT -/
  | keyCommandComplete
  /-- BIND (R46): LMCMD BIND zeroing regions under a key and setting them live -/
  | bindRegions (v : Word)
  /-- UNBIND (R46): LMCMD UNBIND clearing LIVE of regions -/
  | unbindRegions (v : Word)
  /-- LIVE_MAP_COMMAND_COMPLETE (R46): A live-map command has changed every region in every base die and BUSY clears -/
  | liveMapCommandComplete
  /-- MPOINT_SWITCH (R47): A write to MPOINT holds the ports and switches the interface point -/
  | mpointSwitch (v : Word)
  /-- MPOINT_RELEASE (R47): After accepted requests complete and the clock changes, the ports release -/
  | mpointRelease
  /-- RETRAIN (R48): EYECMD RETRAIN holds a stack's requests and retrains its interface -/
  | retrain (stack : Nat) (v : Word)
  /-- RETRAIN_DONE (R48): A retrain finishes and the stack's requests are released -/
  | retrainDone (stack : Nat)
  /-- REPAIR (R48): EYECMD REPAIR moves a lane onto a spare and records it in the repair map -/
  | repair (stack : Nat) (v : Word)
  /-- EYE_ALERT (R48): A measured margin below the threshold sets ALERT, logs and raises the eye interrupt -/
  | eyeAlert (stack : Nat)
  /-- EYESTAT_READ (R48): A read of EYESTAT clears ALERT and restarts MARGIN at 255 -/
  | eyestatRead (stack : Nat)
  /-- RD (R40): Base die performs a read of one or two atoms and replies -/
  | rd (id : Nat) (ecc : Ecc)
  /-- WR (R40): Base die performs a write of whole atoms and replies -/
  | wr (id : Nat)
  /-- WRM (R41): Base die performs a masked write of one atom as a read-modify-write -/
  | wrm (id : Nat) (ecc : Ecc)
  /-- ATM (R40): Base die performs an atomic at memory -/
  | atm (id : Nat) (ecc : Ecc)
  /-- GRD (R38): Base die performs a gather read and returns packed elements with PMASK -/
  | grd (id : Nat) (ecc : Ecc)
  /-- GWR (R38): Base die performs a scatter write in entry order -/
  | gwr (id : Nat)
  /-- CROSSING_NOTICE (R60): A base die notice closes every open Lens entry for the line -/
  | crossingNotice (id : Nat)
  /-- PACKET_REPLY (R39): A reply reaches the compute die, frees its tag and delivers data or status -/
  | packetReply (id : Nat)
  /-- PORT_QUEUE_RELEASE (R36): A request held for lack of a tag is sent once a tag frees -/
  | portQueueRelease (die stack : Nat)
  /-- LENS_READ_REQUEST (R57): A read request at a slice attaches to an entry or opens one and sends RD -/
  | lensReadRequest (id : Nat)
  /-- LENS_WRITE_PASSAGE (R59): A line write passes the slice, closing open entries for the line -/
  | lensWritePassage (id : Nat)
  /-- LENS_ENTRY_REPLY (R58): An entry's RD reply is sent to every requester in join order and the entry freed -/
  | lensEntryReply (id : Nat)
  /-- LENS_INTAKE_RELEASE (R57): A request held in the intake is taken once an entry frees -/
  | lensIntakeRelease (slice : Nat)
  /-- HOST_MEMORY_READ (R12): Host read of device memory, queue, Light List or management offsets -/
  | hostMemoryRead (off size : Nat) (ecc : Ecc)
  /-- HOST_MEMORY_WRITE (R12): Host write to device memory under the region's key -/
  | hostMemoryWrite (off : Nat) (bytes : List Byte) (uciemod : Fin Config.hostModules)
  /-- QUEUE_APERTURE_STORE (R184): A store to a queue aperture appends an entry or is refused into QERR -/
  | queueApertureStore (q off : Nat) (bytes : List Byte)
  /-- PEER_ACCESS_ARRIVAL (R151): An access from a peer device is performed at this device -/
  | peerAccessArrival (acc : PeerAccess)
  /-- REGISTER_WRITE (R23): A host or supervisor write to a management register with no row of its own -/
  | registerWrite (off : Nat) (bytes : List Byte)
  /-- QUEUE_ENABLE (R183): Setting QCFG.EN resets QHEAD and QTAIL and enables the queue -/
  | queueEnable (q : Nat) (v : Word)
  /-- QUEUE_DISABLE (R183): Clearing QCFG.EN stops launches and pops from the queue -/
  | queueDisable (q : Nat) (v : Word)
  /-- DEPCNT_FREE (R188): A host write of 0 to DEPCNT frees the counter and discards its successor -/
  | depcntFree (c : Nat)
  /-- DEBUG_HALT (R204): DBGCTL HALT halts every wave of the job at its next boundary -/
  | debugHalt (job : Nat) (v : Word)
  /-- DEBUG_RELEASE (R333): Clearing DBGCTL HALT releases every halted wave of the job -/
  | debugRelease (job : Nat) (v : Word)
  /-- VERIFY (R219): FWCMD VERIFY checks the staged firmware image -/
  | verify (v : Word)
  /-- INSTALL (R219): FWCMD INSTALL checks and writes the staged image over the image not running -/
  | install (v : Word)
  /-- FW_COMMAND_COMPLETE (R219): A firmware command finishes and reports its code in FWSTAT -/
  | fwCommandComplete
  /-- DUMPSTAT_CLEAR (R219): Writing 1 to DUMPSTAT bit 0 clears VALID and TRUNC -/
  | dumpstatClear (v : Word)
  /-- WARM_RESET (R50): Warm reset keeping stack contents and zeroizing keys slots 1 to 1,023 -/
  | warmReset
  /-- COLD_RESET (R50): Cold reset with full training and cleared state -/
  | coldReset (training : Training)
  /-- FATAL_ERROR (R220): An error with no owning job stops the device, writes the dump and raises the fatal interrupt -/
  | fatalError (src : BitVec 8) (info : BitVec 56)
  /-- ADMISSION_TURN (R190): Every 64 clocks a die scheduler admits, steals, refuses or chooses grids for eviction -/
  | admissionTurn (die : Nat)
  /-- TIME_SLICE_EXPIRY (R193): A grid has run one SLICE and becomes eligible for eviction choice -/
  | timeSliceExpiry (grid : Nat)
  /-- BANDWIDTH_WINDOW (R192): A 4,096-clock window ends and held requests of over-budget jobs are released -/
  | bandwidthWindow
  /-- GRID_COMPLETION (R189): A grid whose waves and operations are done writes its record and decrements DONEC -/
  | gridCompletion (grid : Nat)
  /-- WAVE_EVICTION (R117): A chosen wave at a blocking point saves its image and installs a reply-diversion entry -/
  | waveEviction (core slot : Nat)
  /-- LIGHTSHIP_SAVE (R119): After the last wave leaves, the gang's entry goes to HOLD and scratch is copied -/
  | lightshipSave (grid gang : Nat)
  /-- LIGHTSHIP_OPEN (R119): The save completes, the entry goes OPEN and the allocation is freed -/
  | lightshipOpen (grid gang : Nat)
  /-- LIGHTSHIP_RETIRE (R125): With every wave evicted and no operation in flight, OPEN entries are retired -/
  | lightshipRetire (grid : Nat)
  /-- DIVERTED_ARRIVAL (R122): The diversion unit performs an arrival for an absent gang on its image -/
  | divertedArrival (grid gang : Nat)
  /-- REPLY_DIVERSION (R118): A stale-epoch reply writes the register image -/
  | replyDiversion (id : Nat)
  /-- GANG_RESUME (R126): Resume closes, drains and restores a gang's scratch and registers -/
  | gangResume (grid gang : Nat)
  /-- RESUME_REOPEN (R126): Resume step 4 frees the entry and points arrivals and replies at the new place -/
  | resumeReopen (grid gang : Nat)
  /-- ENGINE_PIECE (R110): An engine operation writes one piece and lands its bytes at the barrier -/
  | enginePiece (id : Nat) (ext : Remote) (ecc : Ecc)
  /-- NEIGHBOUR_LINE_SEND (R88): An outbound port reads and sends the next line of its queue -/
  | neighbourLineSend (cluster side : Nat)
  /-- NEIGHBOUR_ARRIVAL (R90): An inbound line is written into the armed window when its line is EMPTY -/
  | neighbourArrival (cluster side : Nat)
  /-- TREE_CONTRIBUTION (R94): A node accepts or rejects a contribution to a session generation -/
  | treeContribution (id : Nat)
  /-- TREE_TIMEOUT (R94): A session generation completes when CLOCKS have elapsed -/
  | treeTimeout (grid sid : Nat)
  /-- TREE_RESULT (R94): A session result reaches a core position and serves its waiting waves, or is discarded -/
  | treeResult (grid sid core : Nat)
  /-- TILE_OPERATION (R341): The matrix engine takes a wave's tile operation and updates its accumulator -/
  | tileOperation (cluster : Nat) (ext : Remote) (ecc : Ecc)
  /-- TILE_COMPLETION (R341): A tile operation's write-back completes, releasing marks, locks and its count -/
  | tileCompletion (cluster : Nat)
  /-- MASK_RESOLUTION (R178): A predicted BRM's predicate arrives and fragments are discarded, replayed or rolled back -/
  | maskResolution (core slot : Nat)
  /-- CVSTEP_RELEASE (R66): A held CVSTEP advances once CVPOS − MIN falls below SLIP -/
  | cvstepRelease (core slot : Nat)
  /-- CONVOY_PATIENCE_EJECTION (R67): An unparked member at MIN whose IDLE reaches PAT while someone is held is ejected -/
  | convoyPatienceEjection (convoy idx : Nat)
  /-- BARWAIT_RETURN (R316): A woken BARWAIT returns once operations that landed at the object have completed -/
  | barwaitReturn (core slot frag : Nat)
  /-- LINE_STATE_TAKE (R78): A waiting VLDC or VSTP takes its lines once every one is in the state it waits for -/
  | lineStateTake (core slot : Nat)
  /-- WAIT_COMPLETE (R312): A waiting WAIT completes once its counters fall within their limits -/
  | waitComplete (core slot frag : Nat)
  /-- QPOP_WAKE (R326): A waiting QPOP takes its entry when one reaches its turn -/
  | qpopWake (q : Nat)
  /-- REGGROW_GRANT (R196): A waiting REGGROW takes its groups in request order once they fit -/
  | reggrowGrant (core : Nat)
  /-- WATCHDOG (R212): The grid's internal-wait count reaches WDPERIOD and every waiting wave traps -/
  | watchdog (grid : Nat)
  /-- SLICEOVER (R207): A chosen wave not at a blocking point within SLICECEIL takes SLICEOVER -/
  | sliceover (core slot : Nat)
  /-- SLICEOVER_END (R207): A wave still not at a blocking point SLICECEIL after the trap ends its grid -/
  | sliceoverEnd (core slot : Nat)
  /-- REMOTE_REPLY (R124): The reply to a peer-window or host-window access arrives from the fabric or the host link, delivering data, a peer's KEYMISMATCH report, or a link error that raises PEERUNREACH -/
  | remoteReply (id : Nat) (ext : Remote)
  /-- EYE_MARGIN_MEASUREMENT (R48): The eye-margin monitor measures a data lane of a stack and lowers EYESTAT.MARGIN and LANE when the margin is the smallest seen since the last read -/
  | eyeMarginMeasurement (stack : Nat) (chan : BitVec 5) (lane : BitVec 6) (margin : BitVec 8)
  deriving DecidableEq, Repr

end Sys2Proof
end

