-- ==== Sys2Proof/Machine/Checks.lean ====
section
/-!
DEFINITION. The checks on the fields of an instruction: those of R245 on a scalar word (register fields, descriptor
bases, modifier bytes, special register numbers, reserved values) and those of R257 on a lane word.
-/
namespace Sys2Proof.Machine

/-- What a scalar instruction's fields name: every register field, the descriptor bases, the register it writes, those
it reads, and whether its other fields hold allowed values (R241 to R244). -/
structure ScalarInfo where
  regs  : List (BitVec 8)
  bases : List (BitVec 8) := []
  dst   : Option (BitVec 8) := none
  srcs  : List (BitVec 8) := []
  good  : Bool := true
  deriving DecidableEq, Repr

/-- TYP of a modifier byte (Table 2). -/
def mTyp (m : BitVec 8) : BitVec 3 := m.extractLsb' 5 3
/-- ORD of a modifier byte (Table 2). -/
def mOrd (m : BitVec 8) : BitVec 2 := m.extractLsb' 3 2
/-- SCP of a modifier byte (Table 2). -/
def mScp (m : BitVec 8) : BitVec 3 := m.extractLsb' 0 3

/-- The modifier byte of SLD: ORD 10 is the convoy tag with SCP 0 (R242). -/
def goodLoadM (m : BitVec 8) : Bool :=
  mTyp m != 7 && decide (mScp m ≤ 4) && (decide (mOrd m ≤ 1) || (mOrd m == 2 && mScp m == 0))
/-- The modifier byte of SLDS (R242). -/
def goodScratchLoadM (m : BitVec 8) : Bool := mTyp m != 7 && decide (mScp m ≤ 4) && decide (mOrd m ≤ 1)
/-- The modifier byte of SST and SSTS (R242, R295). -/
def goodStoreM (m : BitVec 8) : Bool :=
  decide (mTyp m ≤ 3) && decide (mScp m ≤ 4) && (mOrd m == 0 || mOrd m == 2)

/-- Whether an atomic operation code is one that Table 4 of R385 defines; TYPE must be 0. `isFloat`: the element is
FP32. `red`: the codes a reduction allows. -/
def goodAop (aop : BitVec 8) (isFloat red : Bool) : Bool :=
  decide (1 ≤ aop.toNat) && decide (aop.toNat ≤ (if red then 6 else 8)) &&
    !(isFloat && decide (4 ≤ aop.toNat) && decide (aop.toNat ≤ 6))

/-- The modifier byte and literal of SATOM (R242, R295, R300). -/
def goodAtomM (m : BitVec 8) (lit : Word32) : Bool :=
  (mTyp m == 2 || mTyp m == 6 || mTyp m == 3) && decide (mScp m ≤ 4) && lit.extractLsb' 24 8 == 0 &&
    goodAop (lit.extractLsb' 0 8) false false &&
    (lit.extractLsb' 0 8 == 8 || lit.extractLsb' 8 8 == 0)

/-- The special register numbers of Table 6. -/
def knownSpecial (n : BitVec 16) : Bool :=
  let n := n.toNat
  n ≤ 0x10 || n == 0x20 || n == 0x21 || n == 0x22 || n == 0x23 || n == 0x24 || n == 0x25 ||
    (0x30 ≤ n && n ≤ 0x36) || n == 0x40 || n == 0x41 || (0x100 ≤ n && n ≤ 0x105)


/-- The fields of a scalar instruction (Table 5); none for a lane instruction or an event. -/
def scalarInfo : Instr → Option ScalarInfo
  | .add d a b => some ⟨[d, a, b], [], some d, [a, b], true⟩
  | .addImm d a _ => some ⟨[d, a], [], some d, [a], true⟩
  | .addSx d a i _ => some ⟨[d, a], [], some d, [a], i == 0⟩
  | .sub d a b => some ⟨[d, a, b], [], some d, [a, b], true⟩
  | .subImm d a _ => some ⟨[d, a], [], some d, [a], true⟩
  | .subSx d a i _ => some ⟨[d, a], [], some d, [a], i == 0⟩
  | .mul d a b => some ⟨[d, a, b], [], some d, [a, b], true⟩
  | .mulImm d a _ => some ⟨[d, a], [], some d, [a], true⟩
  | .mulSx d a i _ => some ⟨[d, a], [], some d, [a], i == 0⟩
  | .mulh d a b => some ⟨[d, a, b], [], some d, [a, b], true⟩
  | .mulhImm d a _ => some ⟨[d, a], [], some d, [a], true⟩
  | .mulhSx d a i _ => some ⟨[d, a], [], some d, [a], i == 0⟩
  | .mulhn d a b => some ⟨[d, a, b], [], some d, [a, b], true⟩
  | .mulhnImm d a _ => some ⟨[d, a], [], some d, [a], true⟩
  | .mulhnSx d a i _ => some ⟨[d, a], [], some d, [a], i == 0⟩
  | .div d a b => some ⟨[d, a, b], [], some d, [a, b], true⟩
  | .divImm d a _ => some ⟨[d, a], [], some d, [a], true⟩
  | .divSx d a i _ => some ⟨[d, a], [], some d, [a], i == 0⟩
  | .divn d a b => some ⟨[d, a, b], [], some d, [a, b], true⟩
  | .divnImm d a _ => some ⟨[d, a], [], some d, [a], true⟩
  | .divnSx d a i _ => some ⟨[d, a], [], some d, [a], i == 0⟩
  | .rem d a b => some ⟨[d, a, b], [], some d, [a, b], true⟩
  | .remImm d a _ => some ⟨[d, a], [], some d, [a], true⟩
  | .remSx d a i _ => some ⟨[d, a], [], some d, [a], i == 0⟩
  | .remn d a b => some ⟨[d, a, b], [], some d, [a, b], true⟩
  | .remnImm d a _ => some ⟨[d, a], [], some d, [a], true⟩
  | .remnSx d a i _ => some ⟨[d, a], [], some d, [a], i == 0⟩
  | .and d a b => some ⟨[d, a, b], [], some d, [a, b], true⟩
  | .andImm d a _ => some ⟨[d, a], [], some d, [a], true⟩
  | .andSx d a i _ => some ⟨[d, a], [], some d, [a], i == 0⟩
  | .or d a b => some ⟨[d, a, b], [], some d, [a, b], true⟩
  | .orImm d a _ => some ⟨[d, a], [], some d, [a], true⟩
  | .orSx d a i _ => some ⟨[d, a], [], some d, [a], i == 0⟩
  | .xor d a b => some ⟨[d, a, b], [], some d, [a, b], true⟩
  | .xorImm d a _ => some ⟨[d, a], [], some d, [a], true⟩
  | .xorSx d a i _ => some ⟨[d, a], [], some d, [a], i == 0⟩
  | .andn d a b => some ⟨[d, a, b], [], some d, [a, b], true⟩
  | .andnImm d a _ => some ⟨[d, a], [], some d, [a], true⟩
  | .andnSx d a i _ => some ⟨[d, a], [], some d, [a], i == 0⟩
  | .shl d a b => some ⟨[d, a, b], [], some d, [a, b], true⟩
  | .shlImm d a _ => some ⟨[d, a], [], some d, [a], true⟩
  | .shlSx d a i _ => some ⟨[d, a], [], some d, [a], i == 0⟩
  | .shr d a b => some ⟨[d, a, b], [], some d, [a, b], true⟩
  | .shrImm d a _ => some ⟨[d, a], [], some d, [a], true⟩
  | .shrSx d a i _ => some ⟨[d, a], [], some d, [a], i == 0⟩
  | .sar d a b => some ⟨[d, a, b], [], some d, [a, b], true⟩
  | .sarImm d a _ => some ⟨[d, a], [], some d, [a], true⟩
  | .sarSx d a i _ => some ⟨[d, a], [], some d, [a], i == 0⟩
  | .rot d a b => some ⟨[d, a, b], [], some d, [a, b], true⟩
  | .rotImm d a _ => some ⟨[d, a], [], some d, [a], true⟩
  | .rotSx d a i _ => some ⟨[d, a], [], some d, [a], i == 0⟩
  | .min d a b => some ⟨[d, a, b], [], some d, [a, b], true⟩
  | .minImm d a _ => some ⟨[d, a], [], some d, [a], true⟩
  | .minSx d a i _ => some ⟨[d, a], [], some d, [a], i == 0⟩
  | .max d a b => some ⟨[d, a, b], [], some d, [a, b], true⟩
  | .maxImm d a _ => some ⟨[d, a], [], some d, [a], true⟩
  | .maxSx d a i _ => some ⟨[d, a], [], some d, [a], i == 0⟩
  | .minn d a b => some ⟨[d, a, b], [], some d, [a, b], true⟩
  | .minnImm d a _ => some ⟨[d, a], [], some d, [a], true⟩
  | .minnSx d a i _ => some ⟨[d, a], [], some d, [a], i == 0⟩
  | .maxn d a b => some ⟨[d, a, b], [], some d, [a, b], true⟩
  | .maxnImm d a _ => some ⟨[d, a], [], some d, [a], true⟩
  | .maxnSx d a i _ => some ⟨[d, a], [], some d, [a], i == 0⟩
  | .cmp d a b => some ⟨[d, a, b], [], some d, [a, b], true⟩
  | .cmpImm d a _ => some ⟨[d, a], [], some d, [a], true⟩
  | .cmpSx d a i _ => some ⟨[d, a], [], some d, [a], i == 0⟩
  | .clz d a => some ⟨[d, a], [], some d, [a], true⟩
  | .popc d a => some ⟨[d, a], [], some d, [a], true⟩
  | .sel d a b => some ⟨[d, a, b], [], some d, [a, b], true⟩
  | .bfx d a b => some ⟨[d, a, b], [], some d, [a, b], true⟩
  | .bfi d a b => some ⟨[d, a, b], [], some d, [d, a, b], true⟩
  | .fadd d a b => some ⟨[d, a, b], [], some d, [a, b], true⟩
  | .fmul d a b => some ⟨[d, a, b], [], some d, [a, b], true⟩
  | .ffma d a b => some ⟨[d, a, b], [], some d, [d, a, b], true⟩
  | .fcmp d a b => some ⟨[d, a, b], [], some d, [a, b], true⟩
  | .fcvt d a k => some ⟨[d, a], [], some d, [a], decide (k ≤ 9)⟩
  | .li d _ => some ⟨[d], [], some d, [], true⟩
  | .liSx d i _ => some ⟨[d], [], some d, [], i == 0⟩
  | .lih d _ => some ⟨[d], [], some d, [d], true⟩
  | .lihSx d i _ => some ⟨[d], [], some d, [d], i == 0⟩
  | .sld d a m => some ⟨[d, a], [], some d, [a], goodLoadM m⟩
  | .sldSx d a m _ => some ⟨[d, a], [], some d, [a], goodLoadM m⟩
  | .sst d a m => some ⟨[d, a], [], none, [d, a], goodStoreM m⟩
  | .sstSx d a m _ => some ⟨[d, a], [], none, [d, a], goodStoreM m⟩
  | .slds d a m => some ⟨[d, a], [], some d, [a], goodScratchLoadM m⟩
  | .sldsSx d a m _ => some ⟨[d, a], [], some d, [a], goodScratchLoadM m⟩
  | .ssts d a m => some ⟨[d, a], [], none, [d, a], goodStoreM m⟩
  | .sstsSx d a m _ => some ⟨[d, a], [], none, [d, a], goodStoreM m⟩
  | .satom d a m lit => some ⟨[d, a, lit.extractLsb' 16 8, lit.extractLsb' 8 8], [], some d, [a, lit.extractLsb' 16 8, lit.extractLsb' 8 8], goodAtomM m lit⟩
  | .br _ => some ⟨[], [], none, [], true⟩
  | .call _ => some ⟨[], [], some 191, [], true⟩
  | .brc a c _ => some ⟨[a], [], none, [a], decide (c ≤ 11)⟩
  | .brm _ _ _ _ _ => some ⟨[], [], none, [], true⟩
  | .rcv _ => some ⟨[], [], none, [], true⟩
  | .jmpi a => some ⟨[a], [], none, [a], true⟩
  | .ret => some ⟨[], [], none, [191], true⟩
  | .issue s _ => some ⟨[], [], none, [s, s + 1, s + 2, s + 3, s + 4, s + 5, s + 6, s + 7], decide (s ≤ 184)⟩
  | .exit => some ⟨[], [], none, [], true⟩
  | .wait _ _ _ _ => some ⟨[], [], none, [], true⟩
  | .fence o s => some ⟨[], [], none, [], (o != 0 && decide (s ≤ 4))⟩
  | .nop => some ⟨[], [], none, [], true⟩
  | .barinit d a _ => some ⟨[d, a], [], none, [d, a], true⟩
  | .bararr d a s => some ⟨[d, a], [], none, [d, a], decide (s ≤ 4)⟩
  | .barexp d a s => some ⟨[d, a], [], none, [d, a], decide (s ≤ 4)⟩
  | .barwait d a m lit => some ⟨[d, a, lit.extractLsb' 0 8], [], some d, [a, lit.extractLsb' 0 8], (decide (m ≤ 4) && lit.extractLsb' 8 24 == 0)⟩
  | .barinv a s => some ⟨[a], [], none, [a], decide (s ≤ 4)⟩
  | .barph d a => some ⟨[d, a], [], some d, [a], true⟩
  | .cvjoin d a => some ⟨[d, a], [], some d, [a], true⟩
  | .cvleave => some ⟨[], [], none, [], true⟩
  | .cvstep => some ⟨[], [], none, [], true⟩
  | .setfmtReg a => some ⟨[a], [], none, [a], true⟩
  | .setfmtImm _ => some ⟨[], [], none, [], true⟩
  | .mma a => some ⟨[a], [a], none, [a, a + 1, a + 2, a + 3, a + 4, a + 5, a + 6, a + 7], true⟩
  | .mfence d => some ⟨[d], [], some d, [], true⟩
  | .mwait a => some ⟨[a], [], none, [a], true⟩
  | .cpy d a => some ⟨[d, a], [a], some d, [a, a + 1, a + 2, a + 3, a + 4, a + 5, a + 6, a + 7], true⟩
  | .cpym d a => some ⟨[d, a], [a], some d, [a, a + 1, a + 2, a + 3, a + 4, a + 5, a + 6, a + 7], true⟩
  | .cpyr d a => some ⟨[d, a], [a], some d, [a, a + 1, a + 2, a + 3, a + 4, a + 5, a + 6, a + 7], true⟩
  | .cpyx d a => some ⟨[d, a], [a], some d, [a, a + 1, a + 2, a + 3, a + 4, a + 5, a + 6, a + 7], true⟩
  | .nlsend _ d a b => some ⟨[d, a, b], [], some d, [a, b], true⟩
  | .nlrecv _ d a b => some ⟨[d, a, b], [], some d, [a, b], true⟩
  | .tspawn d a => some ⟨[d, a], [a], some d, [a, a + 1, a + 2, a + 3, a + 4, a + 5, a + 6, a + 7], true⟩
  | .tdep d a => some ⟨[d, a], [], some d, [a], true⟩
  | .tdone => some ⟨[], [], none, [], true⟩
  | .qpush d a b => some ⟨[d, a, b], [], some d, [a, b], true⟩
  | .qpop d a => some ⟨[d, a], [], some d, [a], true⟩
  | .flushred => some ⟨[], [], none, [], true⟩
  | .trap _ => some ⟨[], [], none, [], true⟩
  | .eret => some ⟨[], [], none, [], true⟩
  | .mfs d i => some ⟨[d], [], some d, [], knownSpecial i⟩
  | .mts d i => some ⟨[d], [], none, [d], knownSpecial i⟩
  | .yield => some ⟨[], [], none, [], true⟩
  | .reggrow a => some ⟨[a], [], none, [a], true⟩
  | .regshrink a => some ⟨[a], [], none, [a], true⟩
  | .bkpt => some ⟨[], [], none, [], true⟩
  | _ => none

/-- A base of eight registers is a multiple of 8 from 8 to 184 (R244). -/
def goodBase (r : BitVec 8) : Bool := r.toNat % 8 == 0 && decide (8 ≤ r.toNat) && decide (r.toNat ≤ 184)

/-- Whether a scalar instruction's fields make it ILLEGAL, without what depends on the state (R245). -/
def illegalFields (i : ScalarInfo) : Bool :=
  i.regs.any (fun r => decide (208 ≤ r.toNat)) || i.bases.any (fun r => !goodBase r) || !i.good

/-! ### Lane words -/

/-- What a source field of a lane opcode may name (Table 10, Table 12, R254). -/
inductive SrcKind where
  /-- the row does not name it: it must be 0 -/
  | none
  /-- a vector register, a block slot or a constant -/
  | any
  /-- the same, read as an integer whatever the type -/
  | int
  /-- a block slot or a constant, read as an integer -/
  | uniform
  /-- a block slot or a constant of the instruction's type -/
  | uniformVal
  /-- a block slot: the base of an address -/
  | slot
  /-- an index: a vector register or a constant -/
  | index
  /-- a predicate -/
  | pred
  deriving DecidableEq, Repr

/-- What a destination field may name (R252). -/
inductive DstKind where
  | none | vec | pred | scalar | vecOrScalar
  deriving DecidableEq, Repr

/-- The four lane formats (R249). -/
inductive LaneFmt where
  | l3 | lx | li | lm
  deriving DecidableEq, Repr

/-- What Table 12 says of a lane opcode; `types` are the codes of Table 9 it takes, `mod` whether MOD is allowed,
`orders` the ORD values allowed in LM (R256). -/
structure LaneInfo where
  fmt    : LaneFmt
  types  : List Nat
  dst    : DstKind
  a      : SrcKind
  b      : SrcKind
  c      : SrcKind
  guard  : Bool := false
  mod    : LaneWord → Bool := fun w => w.mod == 0
  orders : List Nat := [0]
  cv     : Bool := false
  seg    : Bool := false

/-- Class F of Table 9. -/
def classF : List Nat := [0x09, 0x0A, 0x0B]
/-- Class I. -/
def classI : List Nat := [0x02, 0x06, 0x03, 0x07, 0x04, 0x08]
/-- Class IS. -/
def classIS : List Nat := [0x02, 0x03, 0x04]
/-- Class M. -/
def classM : List Nat := [0x01, 0x02, 0x03, 0x04, 0x05, 0x06, 0x07, 0x08]
/-- Class A. -/
def classA : List Nat := [0x03, 0x07, 0x04, 0x08, 0x09]
/-- Class C: every code but .b32. -/
def classC : List Nat := [0x01, 0x02, 0x03, 0x04, 0x05, 0x06, 0x07, 0x08, 0x09, 0x0A, 0x0B, 0x0C, 0x0D]
/-- The types of VPACK and VUNPACK. -/
def classPack : List Nat := [0x01, 0x05, 0x02, 0x06, 0x0A, 0x0B]

/-- MOD of VCMP and VFCMP: a condition; 6 and 7 only for VFCMP (R255). -/
def modCond (fp : Bool) (w : LaneWord) : Bool := decide (w.mod ≤ (if fp then 7 else 5))
/-- MOD of VCVT: a source type (R255). -/
def modCvt (w : LaneWord) : Bool := classC.contains w.mod.toNat
/-- MOD of VUNPACK: the packed part (R255). -/
def modPart (w : LaneWord) : Bool :=
  decide (w.mod ≤ (if w.typ == 0x01 || w.typ == 0x05 then 3 else 1))
/-- MOD of VATOM and VRED: an operation that R385 allows for the type. -/
def modAop (red : Bool) (w : LaneWord) : Bool := goodAop w.mod (w.typ == 0x09) red


/-- The row of Table 12 of a lane instruction; none for any other. -/
def laneInfo : Instr → Option (LaneInfo × LaneWord)
  | .vfadd w => some ({ fmt := .l3, types := classF, dst := .vec, a := .any, b := .any, c := .none }, w)
  | .vfaddLi w => some ({ fmt := .li, types := classF, dst := .vec, a := .any, b := .none, c := .none }, w)
  | .vfsub w => some ({ fmt := .l3, types := classF, dst := .vec, a := .any, b := .any, c := .none }, w)
  | .vfsubLi w => some ({ fmt := .li, types := classF, dst := .vec, a := .any, b := .none, c := .none }, w)
  | .vfmul w => some ({ fmt := .l3, types := classF, dst := .vec, a := .any, b := .any, c := .none }, w)
  | .vfmulLi w => some ({ fmt := .li, types := classF, dst := .vec, a := .any, b := .none, c := .none }, w)
  | .vffma w => some ({ fmt := .l3, types := classF, dst := .vec, a := .any, b := .any, c := .any }, w)
  | .vffmaLi w => some ({ fmt := .li, types := classF, dst := .vec, a := .any, b := .any, c := .none }, w)
  | .vfmin w => some ({ fmt := .l3, types := classF, dst := .vec, a := .any, b := .any, c := .none }, w)
  | .vfminLi w => some ({ fmt := .li, types := classF, dst := .vec, a := .any, b := .none, c := .none }, w)
  | .vfmax w => some ({ fmt := .l3, types := classF, dst := .vec, a := .any, b := .any, c := .none }, w)
  | .vfmaxLi w => some ({ fmt := .li, types := classF, dst := .vec, a := .any, b := .none, c := .none }, w)
  | .vfrcp w => some ({ fmt := .l3, types := [0x09], dst := .vec, a := .any, b := .none, c := .none }, w)
  | .vfrsq w => some ({ fmt := .l3, types := [0x09], dst := .vec, a := .any, b := .none, c := .none }, w)
  | .vfsqrt w => some ({ fmt := .l3, types := [0x09], dst := .vec, a := .any, b := .none, c := .none }, w)
  | .vfdiv w => some ({ fmt := .l3, types := [0x09], dst := .vec, a := .any, b := .any, c := .none }, w)
  | .vfdivLi w => some ({ fmt := .li, types := [0x09], dst := .vec, a := .any, b := .none, c := .none }, w)
  | .vfexp2 w => some ({ fmt := .l3, types := [0x09], dst := .vec, a := .any, b := .none, c := .none }, w)
  | .vflog2 w => some ({ fmt := .l3, types := [0x09], dst := .vec, a := .any, b := .none, c := .none }, w)
  | .vfsin w => some ({ fmt := .l3, types := [0x09], dst := .vec, a := .any, b := .none, c := .none }, w)
  | .vfcos w => some ({ fmt := .l3, types := [0x09], dst := .vec, a := .any, b := .none, c := .none }, w)
  | .vfcmp w => some ({ fmt := .l3, types := classF, dst := .pred, a := .any, b := .any, c := .none, mod := modCond true }, w)
  | .vfcmpLi w => some ({ fmt := .li, types := classF, dst := .pred, a := .any, b := .none, c := .none, mod := modCond true }, w)
  | .vfclass w => some ({ fmt := .l3, types := classF, dst := .vec, a := .any, b := .none, c := .none }, w)
  | .vfrnd w => some ({ fmt := .l3, types := classF, dst := .vec, a := .any, b := .none, c := .none }, w)
  | .vadd w => some ({ fmt := .l3, types := classI, dst := .vec, a := .any, b := .any, c := .none }, w)
  | .vaddLi w => some ({ fmt := .li, types := classI, dst := .vec, a := .any, b := .none, c := .none }, w)
  | .vsub w => some ({ fmt := .l3, types := classI, dst := .vec, a := .any, b := .any, c := .none }, w)
  | .vsubLi w => some ({ fmt := .li, types := classI, dst := .vec, a := .any, b := .none, c := .none }, w)
  | .vmul w => some ({ fmt := .l3, types := classI, dst := .vec, a := .any, b := .any, c := .none }, w)
  | .vmulLi w => some ({ fmt := .li, types := classI, dst := .vec, a := .any, b := .none, c := .none }, w)
  | .vmulh w => some ({ fmt := .l3, types := classI, dst := .vec, a := .any, b := .any, c := .none }, w)
  | .vmulhLi w => some ({ fmt := .li, types := classI, dst := .vec, a := .any, b := .none, c := .none }, w)
  | .vmad w => some ({ fmt := .l3, types := classI, dst := .vec, a := .any, b := .any, c := .any }, w)
  | .vmadLi w => some ({ fmt := .li, types := classI, dst := .vec, a := .any, b := .any, c := .none }, w)
  | .vmin w => some ({ fmt := .l3, types := classI, dst := .vec, a := .any, b := .any, c := .none }, w)
  | .vminLi w => some ({ fmt := .li, types := classI, dst := .vec, a := .any, b := .none, c := .none }, w)
  | .vmax w => some ({ fmt := .l3, types := classI, dst := .vec, a := .any, b := .any, c := .none }, w)
  | .vmaxLi w => some ({ fmt := .li, types := classI, dst := .vec, a := .any, b := .none, c := .none }, w)
  | .vabs w => some ({ fmt := .l3, types := classIS, dst := .vec, a := .any, b := .none, c := .none }, w)
  | .vand w => some ({ fmt := .l3, types := [0x00], dst := .vec, a := .any, b := .any, c := .none }, w)
  | .vandLi w => some ({ fmt := .li, types := [0x00], dst := .vec, a := .any, b := .none, c := .none }, w)
  | .vor w => some ({ fmt := .l3, types := [0x00], dst := .vec, a := .any, b := .any, c := .none }, w)
  | .vorLi w => some ({ fmt := .li, types := [0x00], dst := .vec, a := .any, b := .none, c := .none }, w)
  | .vxor w => some ({ fmt := .l3, types := [0x00], dst := .vec, a := .any, b := .any, c := .none }, w)
  | .vxorLi w => some ({ fmt := .li, types := [0x00], dst := .vec, a := .any, b := .none, c := .none }, w)
  | .vshl w => some ({ fmt := .l3, types := classI, dst := .vec, a := .any, b := .any, c := .none }, w)
  | .vshlLi w => some ({ fmt := .li, types := classI, dst := .vec, a := .any, b := .none, c := .none }, w)
  | .vshr w => some ({ fmt := .l3, types := classI, dst := .vec, a := .any, b := .any, c := .none }, w)
  | .vshrLi w => some ({ fmt := .li, types := classI, dst := .vec, a := .any, b := .none, c := .none }, w)
  | .vsar w => some ({ fmt := .l3, types := classI, dst := .vec, a := .any, b := .any, c := .none }, w)
  | .vsarLi w => some ({ fmt := .li, types := classI, dst := .vec, a := .any, b := .none, c := .none }, w)
  | .vbfx w => some ({ fmt := .l3, types := [0x00], dst := .vec, a := .any, b := .any, c := .any }, w)
  | .vbfxLi w => some ({ fmt := .li, types := [0x00], dst := .vec, a := .any, b := .any, c := .none }, w)
  | .vbfi w => some ({ fmt := .l3, types := [0x00], dst := .vec, a := .any, b := .any, c := .any }, w)
  | .vbfiLi w => some ({ fmt := .li, types := [0x00], dst := .vec, a := .any, b := .any, c := .none }, w)
  | .vpopc w => some ({ fmt := .l3, types := [0x00], dst := .vec, a := .any, b := .none, c := .none }, w)
  | .vclz w => some ({ fmt := .l3, types := [0x00], dst := .vec, a := .any, b := .none, c := .none }, w)
  | .vcmp w => some ({ fmt := .l3, types := classI, dst := .pred, a := .any, b := .any, c := .none, mod := modCond false }, w)
  | .vcmpLi w => some ({ fmt := .li, types := classI, dst := .pred, a := .any, b := .none, c := .none, mod := modCond false }, w)
  | .vsadd w => some ({ fmt := .l3, types := classI, dst := .vec, a := .any, b := .any, c := .none }, w)
  | .vsaddLi w => some ({ fmt := .li, types := classI, dst := .vec, a := .any, b := .none, c := .none }, w)
  | .vssub w => some ({ fmt := .l3, types := classI, dst := .vec, a := .any, b := .any, c := .none }, w)
  | .vssubLi w => some ({ fmt := .li, types := classI, dst := .vec, a := .any, b := .none, c := .none }, w)
  | .vsel w => some ({ fmt := .l3, types := [0x00, 0x08], dst := .vec, a := .any, b := .any, c := .none, guard := true }, w)
  | .vselLi w => some ({ fmt := .li, types := [0x00, 0x08], dst := .vec, a := .any, b := .none, c := .none, guard := true }, w)
  | .pset w => some ({ fmt := .l3, types := [0x00], dst := .pred, a := .any, b := .none, c := .none }, w)
  | .pand w => some ({ fmt := .l3, types := [0x00], dst := .pred, a := .pred, b := .pred, c := .none }, w)
  | .por w => some ({ fmt := .l3, types := [0x00], dst := .pred, a := .pred, b := .pred, c := .none }, w)
  | .pxor w => some ({ fmt := .l3, types := [0x00], dst := .pred, a := .pred, b := .pred, c := .none }, w)
  | .pnot w => some ({ fmt := .l3, types := [0x00], dst := .pred, a := .pred, b := .none, c := .none }, w)
  | .vmask w => some ({ fmt := .l3, types := [0x00], dst := .scalar, a := .pred, b := .none, c := .none, mod := fun w => decide (w.mod ≤ 1) }, w)
  | .vcvt w => some ({ fmt := .l3, types := classC, dst := .vec, a := .any, b := .none, c := .none, mod := modCvt }, w)
  | .vpack w => some ({ fmt := .l3, types := classPack, dst := .vec, a := .any, b := .any, c := .none }, w)
  | .vunpack w => some ({ fmt := .l3, types := classPack, dst := .vec, a := .any, b := .none, c := .none, mod := modPart }, w)
  | .vscale w => some ({ fmt := .l3, types := classF, dst := .vec, a := .any, b := .int, c := .none }, w)
  | .vshuf w => some ({ fmt := .lx, types := [0x00], dst := .vec, a := .any, b := .any, c := .none, seg := true }, w)
  | .vbcast w => some ({ fmt := .lx, types := [0x00], dst := .vec, a := .any, b := .uniform, c := .none, seg := true }, w)
  | .vrot w => some ({ fmt := .lx, types := [0x00], dst := .vec, a := .any, b := .uniform, c := .none, seg := true }, w)
  | .vxlane w => some ({ fmt := .lx, types := [0x00], dst := .vec, a := .any, b := .uniform, c := .none, seg := true }, w)
  | .vreadlane w => some ({ fmt := .lx, types := [0x00], dst := .scalar, a := .any, b := .uniform, c := .none }, w)
  | .vwritelane w => some ({ fmt := .lx, types := [0x00], dst := .vec, a := .uniformVal, b := .uniform, c := .none }, w)
  | .viota w => some ({ fmt := .lx, types := [0x00], dst := .vec, a := .pred, b := .none, c := .none }, w)
  | .vreduce w => some ({ fmt := .lx, types := classA, dst := .vecOrScalar, a := .any, b := .none, c := .none, seg := true, mod := fun w => decide (w.mod ≤ 5) && !(w.typ == 0x09 && decide (3 ≤ w.mod)) }, w)
  | .vmov w => some ({ fmt := .l3, types := [0x00, 0x08], dst := .vec, a := .any, b := .none, c := .none }, w)
  | .vmovi w => some ({ fmt := .li, types := [0x00, 0x08], dst := .vec, a := .none, b := .none, c := .none }, w)
  | .vld w => some ({ fmt := .lm, types := classM, dst := .vec, a := .slot, b := .index, c := .none, orders := [0, 1], cv := true }, w)
  | .vst w => some ({ fmt := .lm, types := classM, dst := .none, a := .slot, b := .index, c := .any, orders := [0, 2], guard := true }, w)
  | .vldx w => some ({ fmt := .lm, types := classM, dst := .vec, a := .slot, b := .index, c := .none, orders := [0, 1] }, w)
  | .vstx w => some ({ fmt := .lm, types := classM, dst := .none, a := .slot, b := .index, c := .any, orders := [0, 2], guard := true }, w)
  | .vlds w => some ({ fmt := .lm, types := classM, dst := .vec, a := .slot, b := .index, c := .none, orders := [0, 1] }, w)
  | .vsts w => some ({ fmt := .lm, types := classM, dst := .none, a := .slot, b := .index, c := .any, orders := [0, 2], guard := true }, w)
  | .vldc w => some ({ fmt := .lm, types := classM, dst := .vec, a := .slot, b := .index, c := .none }, w)
  | .vstp w => some ({ fmt := .lm, types := classM, dst := .none, a := .slot, b := .index, c := .any, guard := true }, w)
  | .vpref w => some ({ fmt := .lm, types := [0x00], dst := .none, a := .slot, b := .index, c := .none, cv := true }, w)
  | .vatom w => some ({ fmt := .lm, types := classA, dst := .vec, a := .slot, b := .index, c := .any, orders := [0, 1, 2, 3], guard := true, mod := modAop false }, w)
  | .vred w => some ({ fmt := .lm, types := classA, dst := .none, a := .slot, b := .index, c := .any, guard := true, mod := modAop true }, w)
  | .vaccrd w => some ({ fmt := .lm, types := [0x09], dst := .vec, a := .slot, b := .index, c := .uniform }, w)
  | .vtrsend w => some ({ fmt := .l3, types := [0x00], dst := .none, a := .any, b := .none, c := .none }, w)
  | .vtrrecv w => some ({ fmt := .l3, types := [0x00], dst := .vec, a := .none, b := .none, c := .none }, w)
  | _ => none

/-- Whether a type takes a register pair in each lane (R250). -/
def is64 (t : BitVec 5) : Bool := t == 0x04 || t == 0x08
/-- Whether a type packs two elements in a lane (R250). -/
def is16 (t : BitVec 5) : Bool := t == 0x02 || t == 0x06 || t == 0x0A || t == 0x0B
/-- Whether FP constants stand for a value of the type (R251). -/
def isFloatTyp (t : BitVec 5) : Bool := t == 0x09 || t == 0x0A || t == 0x0B

/-- Whether a source field holds what its opcode allows there, for elements of type `t` and a wave of `vc` vector
registers (R251, R254, R257). -/
def goodSrc (k : SrcKind) (t : BitVec 5) (vc : Nat) (f : BitVec 9) : Bool :=
  let n := f.toNat
  let vec := decide (n < 256) && decide (n < vc)
  let uni := decide (256 ≤ n) && decide (n < 344)
  let fpc := decide (344 ≤ n) && decide (n < 352)
  match k with
  | .none => n == 0
  | .any => (vec && !(is64 t && n % 2 == 1)) || uni || (fpc && isFloatTyp t)
  | .int => vec || uni
  | .uniform => uni
  | .uniformVal => uni
  | .slot => decide (256 ≤ n) && decide (n < 264)
  | .index => vec || (decide (264 ≤ n) && decide (n < 344))
  | .pred => decide (n < 16)

/-- Whether a destination field holds what its opcode allows (R252, R257). -/
def goodDst (k : DstKind) (sd : Bool) (t : BitVec 5) (vc : Nat) (d : BitVec 8) : Bool :=
  let vec := !sd && decide (d.toNat < vc) && !(is64 t && d.toNat % 2 == 1)
  let scl := sd && decide (d.toNat < 192)
  match k with
  | .none => d == 0 && !sd
  | .vec => vec
  | .pred => decide (d.toNat < 16) && !sd
  | .scalar => scl
  | .vecOrScalar => vec || scl

/-- The type of the sources: VCVT's stand in MOD (R255). -/
def srcTyp (i : Instr) (w : LaneWord) : BitVec 5 :=
  match i with
  | .vcvt _ => w.mod.setWidth 5
  | _ => w.typ

/-- Whether a lane word is free of every fault of R257, in a wave of `vc` vector registers. -/
def laneGood (i : Instr) (vc : Nat) : Bool :=
  match laneInfo i with
  | none => false
  | some (r, w) =>
    let t := srcTyp i w
    let sd := (match r.fmt with | .l3 => w.sd | .lx => w.sd | _ => false)
    let low := (match r.fmt with
      | .l3 => w.low.extractLsb' 0 30 == 0
      | .lx => w.low.extractLsb' 0 27 == 0 && (r.seg || w.seg == 0) && !(w.sd && w.seg != 0)
      | .li => true
      | .lm => decide (w.scp ≤ 4) && r.orders.contains w.ord.toNat && (r.cv || !w.cv))
    let srcC := (match r.fmt with
      | .li => w.sc.extractLsb' 1 8 == 0
      | _ => goodSrc r.c t vc w.sc)
    r.types.contains w.typ.toNat && r.mod w && (r.guard || (w.neg == 0 && w.pred == 0)) && low && srcC &&
      goodSrc r.a (if r.fmt == .lm then 0 else t) vc w.sa && goodSrc r.b (if r.fmt == .lm then 0 else t) vc w.sb &&
      goodDst r.dst sd w.typ vc w.dst

end Sys2Proof.Machine
end

