-- ==== Sys2Proof/Decode.lean ====
section
/-!
DEFINITION. Decoding and encoding (R239 to R257). A scalar instruction is decoded from its 32-bit word and the word
after it, which is the literal of an SX form; a lane instruction from its 96-bit word. Decoding decides by the opcode
and by the bits the encoding fixes; the checks of R245 and R257 on the values of the fields are made when the word
executes, because there they take a trap. The encoder stands after the decoder.
-/
namespace Sys2Proof

/-- Why some bits are no instruction. -/
inductive DecodeError where
  /-- an opcode that Table 5 or Table 12 reserves, or a form of an opcode the table does not give -/
  | reservedOpcode
  /-- a nonzero bit in a field that the format fixes at 0 (R244) -/
  | fixedBits
  /-- fewer bytes than the instruction has -/
  | truncated
  deriving DecidableEq, Repr

/-- The `n` bits of a word from bit `lo` up: one field. -/
def field (w : Word32) (lo n : Nat) : BitVec n := w.extractLsb' lo n

/-- Whether a scalar word is followed by a literal: bit 24 of the word, OP<0> (R240). -/
def hasLiteral (w : Word32) : Bool := w.getLsbD 24

/-- The instruction, if the bits that the format fixes at 0 are 0 (R244). -/
def whenZero {n : Nat} (z : BitVec n) (i : Instr) : Except DecodeError Instr :=
  if z = 0 then .ok i else .error .fixedBits

/-- The scalar instruction of opcode `op` (Table 5): its fields from the word `w`, its literal from the word after it. -/
def decodeScalarOp (op : Nat) (w lit : Word32) : Except DecodeError Instr :=
  match op with
  | 0x02 => .ok (.add (field w 16 8) (field w 8 8) (field w 0 8))
  | 0x04 => .ok (.sub (field w 16 8) (field w 8 8) (field w 0 8))
  | 0x06 => .ok (.mul (field w 16 8) (field w 8 8) (field w 0 8))
  | 0x08 => .ok (.mulh (field w 16 8) (field w 8 8) (field w 0 8))
  | 0x0A => .ok (.mulhn (field w 16 8) (field w 8 8) (field w 0 8))
  | 0x0C => .ok (.div (field w 16 8) (field w 8 8) (field w 0 8))
  | 0x0E => .ok (.divn (field w 16 8) (field w 8 8) (field w 0 8))
  | 0x10 => .ok (.rem (field w 16 8) (field w 8 8) (field w 0 8))
  | 0x12 => .ok (.remn (field w 16 8) (field w 8 8) (field w 0 8))
  | 0x14 => .ok (.and (field w 16 8) (field w 8 8) (field w 0 8))
  | 0x16 => .ok (.or (field w 16 8) (field w 8 8) (field w 0 8))
  | 0x18 => .ok (.xor (field w 16 8) (field w 8 8) (field w 0 8))
  | 0x1A => .ok (.andn (field w 16 8) (field w 8 8) (field w 0 8))
  | 0x1C => .ok (.shl (field w 16 8) (field w 8 8) (field w 0 8))
  | 0x1E => .ok (.shr (field w 16 8) (field w 8 8) (field w 0 8))
  | 0x20 => .ok (.sar (field w 16 8) (field w 8 8) (field w 0 8))
  | 0x22 => .ok (.rot (field w 16 8) (field w 8 8) (field w 0 8))
  | 0x24 => .ok (.min (field w 16 8) (field w 8 8) (field w 0 8))
  | 0x26 => .ok (.max (field w 16 8) (field w 8 8) (field w 0 8))
  | 0x28 => .ok (.minn (field w 16 8) (field w 8 8) (field w 0 8))
  | 0x2A => .ok (.maxn (field w 16 8) (field w 8 8) (field w 0 8))
  | 0x2C => .ok (.cmp (field w 16 8) (field w 8 8) (field w 0 8))
  | 0x2E => whenZero (field w 0 8) (.clz (field w 16 8) (field w 8 8))
  | 0x30 => whenZero (field w 0 8) (.popc (field w 16 8) (field w 8 8))
  | 0x32 => .ok (.sel (field w 16 8) (field w 8 8) (field w 0 8))
  | 0x34 => .ok (.bfx (field w 16 8) (field w 8 8) (field w 0 8))
  | 0x36 => .ok (.bfi (field w 16 8) (field w 8 8) (field w 0 8))
  | 0x38 => .ok (.fadd (field w 16 8) (field w 8 8) (field w 0 8))
  | 0x3A => .ok (.fmul (field w 16 8) (field w 8 8) (field w 0 8))
  | 0x3C => .ok (.ffma (field w 16 8) (field w 8 8) (field w 0 8))
  | 0x3E => .ok (.fcmp (field w 16 8) (field w 8 8) (field w 0 8))
  | 0x40 => .ok (.addImm (field w 16 8) (field w 8 8) (field w 0 8))
  | 0x41 => .ok (.addSx (field w 16 8) (field w 8 8) (field w 0 8) lit)
  | 0x42 => .ok (.subImm (field w 16 8) (field w 8 8) (field w 0 8))
  | 0x43 => .ok (.subSx (field w 16 8) (field w 8 8) (field w 0 8) lit)
  | 0x44 => .ok (.mulImm (field w 16 8) (field w 8 8) (field w 0 8))
  | 0x45 => .ok (.mulSx (field w 16 8) (field w 8 8) (field w 0 8) lit)
  | 0x46 => .ok (.mulhImm (field w 16 8) (field w 8 8) (field w 0 8))
  | 0x47 => .ok (.mulhSx (field w 16 8) (field w 8 8) (field w 0 8) lit)
  | 0x48 => .ok (.mulhnImm (field w 16 8) (field w 8 8) (field w 0 8))
  | 0x49 => .ok (.mulhnSx (field w 16 8) (field w 8 8) (field w 0 8) lit)
  | 0x4A => .ok (.divImm (field w 16 8) (field w 8 8) (field w 0 8))
  | 0x4B => .ok (.divSx (field w 16 8) (field w 8 8) (field w 0 8) lit)
  | 0x4C => .ok (.divnImm (field w 16 8) (field w 8 8) (field w 0 8))
  | 0x4D => .ok (.divnSx (field w 16 8) (field w 8 8) (field w 0 8) lit)
  | 0x4E => .ok (.remImm (field w 16 8) (field w 8 8) (field w 0 8))
  | 0x4F => .ok (.remSx (field w 16 8) (field w 8 8) (field w 0 8) lit)
  | 0x50 => .ok (.remnImm (field w 16 8) (field w 8 8) (field w 0 8))
  | 0x51 => .ok (.remnSx (field w 16 8) (field w 8 8) (field w 0 8) lit)
  | 0x52 => .ok (.andImm (field w 16 8) (field w 8 8) (field w 0 8))
  | 0x53 => .ok (.andSx (field w 16 8) (field w 8 8) (field w 0 8) lit)
  | 0x54 => .ok (.orImm (field w 16 8) (field w 8 8) (field w 0 8))
  | 0x55 => .ok (.orSx (field w 16 8) (field w 8 8) (field w 0 8) lit)
  | 0x56 => .ok (.xorImm (field w 16 8) (field w 8 8) (field w 0 8))
  | 0x57 => .ok (.xorSx (field w 16 8) (field w 8 8) (field w 0 8) lit)
  | 0x58 => .ok (.andnImm (field w 16 8) (field w 8 8) (field w 0 8))
  | 0x59 => .ok (.andnSx (field w 16 8) (field w 8 8) (field w 0 8) lit)
  | 0x5A => .ok (.shlImm (field w 16 8) (field w 8 8) (field w 0 8))
  | 0x5B => .ok (.shlSx (field w 16 8) (field w 8 8) (field w 0 8) lit)
  | 0x5C => .ok (.shrImm (field w 16 8) (field w 8 8) (field w 0 8))
  | 0x5D => .ok (.shrSx (field w 16 8) (field w 8 8) (field w 0 8) lit)
  | 0x5E => .ok (.sarImm (field w 16 8) (field w 8 8) (field w 0 8))
  | 0x5F => .ok (.sarSx (field w 16 8) (field w 8 8) (field w 0 8) lit)
  | 0x60 => .ok (.rotImm (field w 16 8) (field w 8 8) (field w 0 8))
  | 0x61 => .ok (.rotSx (field w 16 8) (field w 8 8) (field w 0 8) lit)
  | 0x62 => .ok (.minImm (field w 16 8) (field w 8 8) (field w 0 8))
  | 0x63 => .ok (.minSx (field w 16 8) (field w 8 8) (field w 0 8) lit)
  | 0x64 => .ok (.maxImm (field w 16 8) (field w 8 8) (field w 0 8))
  | 0x65 => .ok (.maxSx (field w 16 8) (field w 8 8) (field w 0 8) lit)
  | 0x66 => .ok (.minnImm (field w 16 8) (field w 8 8) (field w 0 8))
  | 0x67 => .ok (.minnSx (field w 16 8) (field w 8 8) (field w 0 8) lit)
  | 0x68 => .ok (.maxnImm (field w 16 8) (field w 8 8) (field w 0 8))
  | 0x69 => .ok (.maxnSx (field w 16 8) (field w 8 8) (field w 0 8) lit)
  | 0x6A => .ok (.cmpImm (field w 16 8) (field w 8 8) (field w 0 8))
  | 0x6B => .ok (.cmpSx (field w 16 8) (field w 8 8) (field w 0 8) lit)
  | 0x6C => whenZero (field w 4 4) (.fcvt (field w 16 8) (field w 8 8) (field w 0 4))
  | 0x6E => .ok (.li (field w 16 8) (field w 0 16))
  | 0x6F => .ok (.liSx (field w 16 8) (field w 0 16) lit)
  | 0x70 => .ok (.lih (field w 16 8) (field w 0 16))
  | 0x71 => .ok (.lihSx (field w 16 8) (field w 0 16) lit)
  | 0x72 => .ok (.sld (field w 16 8) (field w 8 8) (field w 0 8))
  | 0x73 => .ok (.sldSx (field w 16 8) (field w 8 8) (field w 0 8) lit)
  | 0x74 => .ok (.sst (field w 16 8) (field w 8 8) (field w 0 8))
  | 0x75 => .ok (.sstSx (field w 16 8) (field w 8 8) (field w 0 8) lit)
  | 0x76 => .ok (.slds (field w 16 8) (field w 8 8) (field w 0 8))
  | 0x77 => .ok (.sldsSx (field w 16 8) (field w 8 8) (field w 0 8) lit)
  | 0x78 => .ok (.ssts (field w 16 8) (field w 8 8) (field w 0 8))
  | 0x79 => .ok (.sstsSx (field w 16 8) (field w 8 8) (field w 0 8) lit)
  | 0x7B => .ok (.satom (field w 16 8) (field w 8 8) (field w 0 8) lit)
  | 0x80 => .ok (.br (field w 0 24))
  | 0x82 => .ok (.call (field w 0 24))
  | 0x84 => whenZero (field w 10 2) (.brc (field w 16 8) (field w 12 4) (field w 0 10))
  | 0x86 => whenZero (field w 21 3) (.brm (field w 20 1) (field w 16 4) (field w 12 4) (field w 10 2) (field w 0 10))
  | 0x88 => whenZero (field w 4 20) (.rcv (field w 0 4))
  | 0x8A => whenZero (field w 16 8 ++ field w 0 8) (.jmpi (field w 8 8))
  | 0x8C => whenZero (field w 0 24) (.ret)
  | 0x8E => .ok (.issue (field w 16 8) (field w 0 16))
  | 0x90 => whenZero (field w 0 24) (.exit)
  | 0x92 => .ok (.wait (field w 18 6) (field w 12 6) (field w 6 6) (field w 0 6))
  | 0x94 => whenZero (field w 5 19) (.fence (field w 3 2) (field w 0 3))
  | 0x96 => whenZero (field w 0 24) (.nop)
  | 0xA0 => whenZero (field w 0 7) (.barinit (field w 16 8) (field w 8 8) (field w 7 1))
  | 0xA2 => whenZero (field w 3 5) (.bararr (field w 16 8) (field w 8 8) (field w 0 3))
  | 0xA4 => whenZero (field w 3 5) (.barexp (field w 16 8) (field w 8 8) (field w 0 3))
  | 0xA7 => .ok (.barwait (field w 16 8) (field w 8 8) (field w 0 8) lit)
  | 0xA8 => whenZero (field w 16 8 ++ field w 3 5) (.barinv (field w 8 8) (field w 0 3))
  | 0xAA => whenZero (field w 0 8) (.barph (field w 16 8) (field w 8 8))
  | 0xB0 => whenZero (field w 0 8) (.cvjoin (field w 16 8) (field w 8 8))
  | 0xB2 => whenZero (field w 0 24) (.cvleave)
  | 0xB4 => whenZero (field w 0 24) (.cvstep)
  | 0xB8 => whenZero (field w 16 8 ++ field w 0 8) (.setfmtReg (field w 8 8))
  | 0xBA => whenZero (field w 16 8) (.setfmtImm (field w 0 16))
  | 0xBC => whenZero (field w 16 8 ++ field w 0 8) (.mma (field w 8 8))
  | 0xBE => whenZero (field w 0 16) (.mfence (field w 16 8))
  | 0xC0 => whenZero (field w 16 8 ++ field w 0 8) (.mwait (field w 8 8))
  | 0xC2 => whenZero (field w 0 8) (.cpy (field w 16 8) (field w 8 8))
  | 0xC4 => whenZero (field w 0 8) (.cpym (field w 16 8) (field w 8 8))
  | 0xC6 => whenZero (field w 0 8) (.cpyr (field w 16 8) (field w 8 8))
  | 0xC8 => whenZero (field w 0 8) (.cpyx (field w 16 8) (field w 8 8))
  | 0xD0 => .ok (.nlsend (field w 25 2) (field w 16 8) (field w 8 8) (field w 0 8))
  | 0xD2 => .ok (.nlsend (field w 25 2) (field w 16 8) (field w 8 8) (field w 0 8))
  | 0xD4 => .ok (.nlsend (field w 25 2) (field w 16 8) (field w 8 8) (field w 0 8))
  | 0xD6 => .ok (.nlsend (field w 25 2) (field w 16 8) (field w 8 8) (field w 0 8))
  | 0xD8 => .ok (.nlrecv (field w 25 2) (field w 16 8) (field w 8 8) (field w 0 8))
  | 0xDA => .ok (.nlrecv (field w 25 2) (field w 16 8) (field w 8 8) (field w 0 8))
  | 0xDC => .ok (.nlrecv (field w 25 2) (field w 16 8) (field w 8 8) (field w 0 8))
  | 0xDE => .ok (.nlrecv (field w 25 2) (field w 16 8) (field w 8 8) (field w 0 8))
  | 0xE0 => whenZero (field w 0 8) (.tspawn (field w 16 8) (field w 8 8))
  | 0xE2 => whenZero (field w 0 8) (.tdep (field w 16 8) (field w 8 8))
  | 0xE4 => whenZero (field w 0 24) (.tdone)
  | 0xE6 => .ok (.qpush (field w 16 8) (field w 8 8) (field w 0 8))
  | 0xE8 => whenZero (field w 0 8) (.qpop (field w 16 8) (field w 8 8))
  | 0xEA => whenZero (field w 0 24) (.flushred)
  | 0xF0 => whenZero (field w 16 8) (.trap (field w 0 16))
  | 0xF2 => whenZero (field w 0 24) (.eret)
  | 0xF4 => .ok (.mfs (field w 16 8) (field w 0 16))
  | 0xF6 => .ok (.mts (field w 16 8) (field w 0 16))
  | 0xF8 => whenZero (field w 0 24) (.yield)
  | 0xFA => whenZero (field w 16 8 ++ field w 0 8) (.reggrow (field w 8 8))
  | 0xFC => whenZero (field w 16 8 ++ field w 0 8) (.regshrink (field w 8 8))
  | 0xFE => whenZero (field w 0 24) (.bkpt)
  | _ => .error .reservedOpcode

/-- The scalar instruction that the word `w` is, followed in memory by the word `lit` (R240, R241). -/
def decodeScalar (w lit : Word32) : Except DecodeError Instr :=
  decodeScalarOp (field w 24 8).toNat w lit

/-- The fields of a lane word beside its opcode (R248). -/
def laneFields (w : BitVec 96) : LaneWord where
  typ := w.extractLsb' 79 5
  mod := w.extractLsb' 71 8
  neg := w.extractLsb' 70 1
  pred := w.extractLsb' 66 4
  dst := w.extractLsb' 58 8
  sa := w.extractLsb' 49 9
  sb := w.extractLsb' 40 9
  sc := w.extractLsb' 31 9
  low := w.extractLsb' 0 31

/-- The lane instruction of opcode `opc` (Table 12). -/
def decodeLaneOp (opc : Nat) (f : LaneWord) : Except DecodeError Instr :=
  match opc with
  | 0x010 => .ok (.vfadd f)
  | 0x011 => .ok (.vfsub f)
  | 0x012 => .ok (.vfmul f)
  | 0x013 => .ok (.vffma f)
  | 0x014 => .ok (.vfmin f)
  | 0x015 => .ok (.vfmax f)
  | 0x016 => .ok (.vfrcp f)
  | 0x017 => .ok (.vfrsq f)
  | 0x018 => .ok (.vfsqrt f)
  | 0x019 => .ok (.vfdiv f)
  | 0x01A => .ok (.vfexp2 f)
  | 0x01B => .ok (.vflog2 f)
  | 0x01C => .ok (.vfsin f)
  | 0x01D => .ok (.vfcos f)
  | 0x01E => .ok (.vfcmp f)
  | 0x01F => .ok (.vfclass f)
  | 0x020 => .ok (.vfrnd f)
  | 0x040 => .ok (.vadd f)
  | 0x041 => .ok (.vsub f)
  | 0x042 => .ok (.vmul f)
  | 0x043 => .ok (.vmulh f)
  | 0x044 => .ok (.vmad f)
  | 0x045 => .ok (.vmin f)
  | 0x046 => .ok (.vmax f)
  | 0x047 => .ok (.vabs f)
  | 0x048 => .ok (.vand f)
  | 0x049 => .ok (.vor f)
  | 0x04A => .ok (.vxor f)
  | 0x04B => .ok (.vshl f)
  | 0x04C => .ok (.vshr f)
  | 0x04D => .ok (.vsar f)
  | 0x04E => .ok (.vbfx f)
  | 0x04F => .ok (.vbfi f)
  | 0x050 => .ok (.vpopc f)
  | 0x051 => .ok (.vclz f)
  | 0x052 => .ok (.vcmp f)
  | 0x053 => .ok (.vsadd f)
  | 0x054 => .ok (.vssub f)
  | 0x080 => .ok (.vsel f)
  | 0x081 => .ok (.pset f)
  | 0x082 => .ok (.pand f)
  | 0x083 => .ok (.por f)
  | 0x084 => .ok (.pxor f)
  | 0x085 => .ok (.pnot f)
  | 0x086 => .ok (.vmask f)
  | 0x0C0 => .ok (.vcvt f)
  | 0x0C1 => .ok (.vpack f)
  | 0x0C2 => .ok (.vunpack f)
  | 0x0C3 => .ok (.vscale f)
  | 0x100 => .ok (.vshuf f)
  | 0x101 => .ok (.vbcast f)
  | 0x102 => .ok (.vrot f)
  | 0x103 => .ok (.vxlane f)
  | 0x104 => .ok (.vreadlane f)
  | 0x105 => .ok (.vwritelane f)
  | 0x106 => .ok (.viota f)
  | 0x107 => .ok (.vreduce f)
  | 0x140 => .ok (.vmov f)
  | 0x200 => .ok (.vld f)
  | 0x201 => .ok (.vst f)
  | 0x202 => .ok (.vldx f)
  | 0x203 => .ok (.vstx f)
  | 0x204 => .ok (.vlds f)
  | 0x205 => .ok (.vsts f)
  | 0x206 => .ok (.vldc f)
  | 0x207 => .ok (.vstp f)
  | 0x208 => .ok (.vpref f)
  | 0x240 => .ok (.vatom f)
  | 0x241 => .ok (.vred f)
  | 0x242 => .ok (.vaccrd f)
  | 0x280 => .ok (.vtrsend f)
  | 0x281 => .ok (.vtrrecv f)
  | 0x810 => .ok (.vfaddLi f)
  | 0x811 => .ok (.vfsubLi f)
  | 0x812 => .ok (.vfmulLi f)
  | 0x813 => .ok (.vffmaLi f)
  | 0x814 => .ok (.vfminLi f)
  | 0x815 => .ok (.vfmaxLi f)
  | 0x819 => .ok (.vfdivLi f)
  | 0x81E => .ok (.vfcmpLi f)
  | 0x840 => .ok (.vaddLi f)
  | 0x841 => .ok (.vsubLi f)
  | 0x842 => .ok (.vmulLi f)
  | 0x843 => .ok (.vmulhLi f)
  | 0x844 => .ok (.vmadLi f)
  | 0x845 => .ok (.vminLi f)
  | 0x846 => .ok (.vmaxLi f)
  | 0x848 => .ok (.vandLi f)
  | 0x849 => .ok (.vorLi f)
  | 0x84A => .ok (.vxorLi f)
  | 0x84B => .ok (.vshlLi f)
  | 0x84C => .ok (.vshrLi f)
  | 0x84D => .ok (.vsarLi f)
  | 0x84E => .ok (.vbfxLi f)
  | 0x84F => .ok (.vbfiLi f)
  | 0x852 => .ok (.vcmpLi f)
  | 0x853 => .ok (.vsaddLi f)
  | 0x854 => .ok (.vssubLi f)
  | 0x880 => .ok (.vselLi f)
  | 0x940 => .ok (.vmovi f)
  | _ => .error .reservedOpcode

/-- The lane instruction that the 96-bit word `w` is (R248, R256). -/
def decodeLane (w : BitVec 96) : Except DecodeError Instr :=
  decodeLaneOp (w.extractLsb' 84 12).toNat (laneFields w)

/-- The little-endian number that four bytes at `b` spell. -/
def word32OfBytes (b0 b1 b2 b3 : Byte) : Word32 := b3 ++ b2 ++ b1 ++ b0

/-- Decode the bytes at a scalar thread's SPC (R239): the instruction and the bytes that follow it. -/
def decodeScalarBytes : List Byte → Except DecodeError (Instr × List Byte)
  | a :: b :: c :: d :: rest =>
    let w := word32OfBytes a b c d
    if hasLiteral w then
      match rest with
      | e :: f :: g :: h :: rest' => (decodeScalar w (word32OfBytes e f g h)).map (·, rest')
      | _ => .error .truncated
    else (decodeScalar w 0).map (·, rest)
  | _ => .error .truncated

/-- Decode the twelve bytes of a lane word (R239): the instruction and the bytes that follow it. -/
def decodeLaneBytes : List Byte → Except DecodeError (Instr × List Byte)
  | a :: b :: c :: d :: e :: f :: g :: h :: i :: j :: k :: l :: rest =>
    (decodeLane (word32OfBytes i j k l ++ word32OfBytes e f g h ++ word32OfBytes a b c d)).map (·, rest)
  | _ => .error .truncated

/-- The four bytes of a word as memory stores it: the lowest first (R239). -/
def bytesOfWord32 (w : Word32) : List Byte :=
  [w.extractLsb' 0 8, w.extractLsb' 8 8, w.extractLsb' 16 8, w.extractLsb' 24 8]

/-- The instruction that the decoder reads from an instruction word as the opcode table numbers its bits, the rest of
the instruction 0: bit 0 is the lowest bit of the first word. A row of 96 bits is a lane word; any other is scalar. -/
def decodeTableWord (nbits w : Nat) : Option Instr :=
  if nbits = 96 then
    match decodeLaneBytes (bytesOfWord32 (BitVec.ofNat 32 w) ++ bytesOfWord32 (BitVec.ofNat 32 (w >>> 32))
        ++ bytesOfWord32 (BitVec.ofNat 32 (w >>> 64))) with
    | .ok (i, _) => some i
    | .error _ => none
  else
    match decodeScalarBytes (bytesOfWord32 (BitVec.ofNat 32 w) ++ bytesOfWord32 (BitVec.ofNat 32 (w >>> 32))) with
    | .ok (i, _) => some i
    | .error _ => none


/-- A lane word from its opcode and its other fields (R248). -/
def laneWord (opc : BitVec 12) (f : LaneWord) : BitVec 96 :=
  opc ++ f.typ ++ f.mod ++ f.neg ++ f.pred ++ f.dst ++ f.sa ++ f.sb ++ f.sc ++ f.low

/-- The encoding of an instruction: a scalar word and its literal, if it has one, or a lane word; an event has none. -/
inductive Encoding where
  | scalar (w : Word32)
  | scalarLit (w lit : Word32)
  | lane (w : BitVec 96)
  | none
  deriving DecidableEq, Repr

/-- The words of an instruction (Tables 1, 5 and 12). -/
def encode : Instr → Encoding
  | .add d a b => .scalar (0x02#8 ++ d ++ a ++ b)
  | .addImm d a i => .scalar (0x40#8 ++ d ++ a ++ i)
  | .addSx d a i lit => .scalarLit (0x41#8 ++ d ++ a ++ i) lit
  | .sub d a b => .scalar (0x04#8 ++ d ++ a ++ b)
  | .subImm d a i => .scalar (0x42#8 ++ d ++ a ++ i)
  | .subSx d a i lit => .scalarLit (0x43#8 ++ d ++ a ++ i) lit
  | .mul d a b => .scalar (0x06#8 ++ d ++ a ++ b)
  | .mulImm d a i => .scalar (0x44#8 ++ d ++ a ++ i)
  | .mulSx d a i lit => .scalarLit (0x45#8 ++ d ++ a ++ i) lit
  | .mulh d a b => .scalar (0x08#8 ++ d ++ a ++ b)
  | .mulhImm d a i => .scalar (0x46#8 ++ d ++ a ++ i)
  | .mulhSx d a i lit => .scalarLit (0x47#8 ++ d ++ a ++ i) lit
  | .mulhn d a b => .scalar (0x0A#8 ++ d ++ a ++ b)
  | .mulhnImm d a i => .scalar (0x48#8 ++ d ++ a ++ i)
  | .mulhnSx d a i lit => .scalarLit (0x49#8 ++ d ++ a ++ i) lit
  | .div d a b => .scalar (0x0C#8 ++ d ++ a ++ b)
  | .divImm d a i => .scalar (0x4A#8 ++ d ++ a ++ i)
  | .divSx d a i lit => .scalarLit (0x4B#8 ++ d ++ a ++ i) lit
  | .divn d a b => .scalar (0x0E#8 ++ d ++ a ++ b)
  | .divnImm d a i => .scalar (0x4C#8 ++ d ++ a ++ i)
  | .divnSx d a i lit => .scalarLit (0x4D#8 ++ d ++ a ++ i) lit
  | .rem d a b => .scalar (0x10#8 ++ d ++ a ++ b)
  | .remImm d a i => .scalar (0x4E#8 ++ d ++ a ++ i)
  | .remSx d a i lit => .scalarLit (0x4F#8 ++ d ++ a ++ i) lit
  | .remn d a b => .scalar (0x12#8 ++ d ++ a ++ b)
  | .remnImm d a i => .scalar (0x50#8 ++ d ++ a ++ i)
  | .remnSx d a i lit => .scalarLit (0x51#8 ++ d ++ a ++ i) lit
  | .and d a b => .scalar (0x14#8 ++ d ++ a ++ b)
  | .andImm d a i => .scalar (0x52#8 ++ d ++ a ++ i)
  | .andSx d a i lit => .scalarLit (0x53#8 ++ d ++ a ++ i) lit
  | .or d a b => .scalar (0x16#8 ++ d ++ a ++ b)
  | .orImm d a i => .scalar (0x54#8 ++ d ++ a ++ i)
  | .orSx d a i lit => .scalarLit (0x55#8 ++ d ++ a ++ i) lit
  | .xor d a b => .scalar (0x18#8 ++ d ++ a ++ b)
  | .xorImm d a i => .scalar (0x56#8 ++ d ++ a ++ i)
  | .xorSx d a i lit => .scalarLit (0x57#8 ++ d ++ a ++ i) lit
  | .andn d a b => .scalar (0x1A#8 ++ d ++ a ++ b)
  | .andnImm d a i => .scalar (0x58#8 ++ d ++ a ++ i)
  | .andnSx d a i lit => .scalarLit (0x59#8 ++ d ++ a ++ i) lit
  | .shl d a b => .scalar (0x1C#8 ++ d ++ a ++ b)
  | .shlImm d a i => .scalar (0x5A#8 ++ d ++ a ++ i)
  | .shlSx d a i lit => .scalarLit (0x5B#8 ++ d ++ a ++ i) lit
  | .shr d a b => .scalar (0x1E#8 ++ d ++ a ++ b)
  | .shrImm d a i => .scalar (0x5C#8 ++ d ++ a ++ i)
  | .shrSx d a i lit => .scalarLit (0x5D#8 ++ d ++ a ++ i) lit
  | .sar d a b => .scalar (0x20#8 ++ d ++ a ++ b)
  | .sarImm d a i => .scalar (0x5E#8 ++ d ++ a ++ i)
  | .sarSx d a i lit => .scalarLit (0x5F#8 ++ d ++ a ++ i) lit
  | .rot d a b => .scalar (0x22#8 ++ d ++ a ++ b)
  | .rotImm d a i => .scalar (0x60#8 ++ d ++ a ++ i)
  | .rotSx d a i lit => .scalarLit (0x61#8 ++ d ++ a ++ i) lit
  | .min d a b => .scalar (0x24#8 ++ d ++ a ++ b)
  | .minImm d a i => .scalar (0x62#8 ++ d ++ a ++ i)
  | .minSx d a i lit => .scalarLit (0x63#8 ++ d ++ a ++ i) lit
  | .max d a b => .scalar (0x26#8 ++ d ++ a ++ b)
  | .maxImm d a i => .scalar (0x64#8 ++ d ++ a ++ i)
  | .maxSx d a i lit => .scalarLit (0x65#8 ++ d ++ a ++ i) lit
  | .minn d a b => .scalar (0x28#8 ++ d ++ a ++ b)
  | .minnImm d a i => .scalar (0x66#8 ++ d ++ a ++ i)
  | .minnSx d a i lit => .scalarLit (0x67#8 ++ d ++ a ++ i) lit
  | .maxn d a b => .scalar (0x2A#8 ++ d ++ a ++ b)
  | .maxnImm d a i => .scalar (0x68#8 ++ d ++ a ++ i)
  | .maxnSx d a i lit => .scalarLit (0x69#8 ++ d ++ a ++ i) lit
  | .cmp d a b => .scalar (0x2C#8 ++ d ++ a ++ b)
  | .cmpImm d a i => .scalar (0x6A#8 ++ d ++ a ++ i)
  | .cmpSx d a i lit => .scalarLit (0x6B#8 ++ d ++ a ++ i) lit
  | .clz d a => .scalar (0x2E#8 ++ d ++ a ++ 0#8)
  | .popc d a => .scalar (0x30#8 ++ d ++ a ++ 0#8)
  | .sel d a b => .scalar (0x32#8 ++ d ++ a ++ b)
  | .bfx d a b => .scalar (0x34#8 ++ d ++ a ++ b)
  | .bfi d a b => .scalar (0x36#8 ++ d ++ a ++ b)
  | .fadd d a b => .scalar (0x38#8 ++ d ++ a ++ b)
  | .fmul d a b => .scalar (0x3A#8 ++ d ++ a ++ b)
  | .ffma d a b => .scalar (0x3C#8 ++ d ++ a ++ b)
  | .fcmp d a b => .scalar (0x3E#8 ++ d ++ a ++ b)
  | .fcvt d a k => .scalar (0x6C#8 ++ d ++ a ++ 0#4 ++ k)
  | .li d i => .scalar (0x6E#8 ++ d ++ i)
  | .liSx d i lit => .scalarLit (0x6F#8 ++ d ++ i) lit
  | .lih d i => .scalar (0x70#8 ++ d ++ i)
  | .lihSx d i lit => .scalarLit (0x71#8 ++ d ++ i) lit
  | .sld d a m => .scalar (0x72#8 ++ d ++ a ++ m)
  | .sldSx d a m lit => .scalarLit (0x73#8 ++ d ++ a ++ m) lit
  | .sst d a m => .scalar (0x74#8 ++ d ++ a ++ m)
  | .sstSx d a m lit => .scalarLit (0x75#8 ++ d ++ a ++ m) lit
  | .slds d a m => .scalar (0x76#8 ++ d ++ a ++ m)
  | .sldsSx d a m lit => .scalarLit (0x77#8 ++ d ++ a ++ m) lit
  | .ssts d a m => .scalar (0x78#8 ++ d ++ a ++ m)
  | .sstsSx d a m lit => .scalarLit (0x79#8 ++ d ++ a ++ m) lit
  | .satom d a m lit => .scalarLit (0x7B#8 ++ d ++ a ++ m) lit
  | .br o => .scalar (0x80#8 ++ o)
  | .call o => .scalar (0x82#8 ++ o)
  | .brc a c o => .scalar (0x84#8 ++ a ++ c ++ 0#2 ++ o)
  | .brm n p t h o => .scalar (0x86#8 ++ 0#3 ++ n ++ p ++ t ++ h ++ o)
  | .rcv t => .scalar (0x88#8 ++ 0#20 ++ t)
  | .jmpi a => .scalar (0x8A#8 ++ 0#8 ++ a ++ 0#8)
  | .ret  => .scalar (0x8C#8 ++ 0#24)
  | .issue s b => .scalar (0x8E#8 ++ s ++ b)
  | .exit  => .scalar (0x90#8 ++ 0#24)
  | .wait l s c t => .scalar (0x92#8 ++ l ++ s ++ c ++ t)
  | .fence o s => .scalar (0x94#8 ++ 0#19 ++ o ++ s)
  | .nop  => .scalar (0x96#8 ++ 0#24)
  | .barinit d a e => .scalar (0xA0#8 ++ d ++ a ++ e ++ 0#7)
  | .bararr d a s => .scalar (0xA2#8 ++ d ++ a ++ 0#5 ++ s)
  | .barexp d a s => .scalar (0xA4#8 ++ d ++ a ++ 0#5 ++ s)
  | .barwait d a m lit => .scalarLit (0xA7#8 ++ d ++ a ++ m) lit
  | .barinv a s => .scalar (0xA8#8 ++ 0#8 ++ a ++ 0#5 ++ s)
  | .barph d a => .scalar (0xAA#8 ++ d ++ a ++ 0#8)
  | .cvjoin d a => .scalar (0xB0#8 ++ d ++ a ++ 0#8)
  | .cvleave  => .scalar (0xB2#8 ++ 0#24)
  | .cvstep  => .scalar (0xB4#8 ++ 0#24)
  | .setfmtReg a => .scalar (0xB8#8 ++ 0#8 ++ a ++ 0#8)
  | .setfmtImm i => .scalar (0xBA#8 ++ 0#8 ++ i)
  | .mma a => .scalar (0xBC#8 ++ 0#8 ++ a ++ 0#8)
  | .mfence d => .scalar (0xBE#8 ++ d ++ 0#16)
  | .mwait a => .scalar (0xC0#8 ++ 0#8 ++ a ++ 0#8)
  | .cpy d a => .scalar (0xC2#8 ++ d ++ a ++ 0#8)
  | .cpym d a => .scalar (0xC4#8 ++ d ++ a ++ 0#8)
  | .cpyr d a => .scalar (0xC6#8 ++ d ++ a ++ 0#8)
  | .cpyx d a => .scalar (0xC8#8 ++ d ++ a ++ 0#8)
  | .nlsend s d a b => .scalar (0x1A#5 ++ s ++ 0#1 ++ d ++ a ++ b)
  | .nlrecv s d a b => .scalar (0x1B#5 ++ s ++ 0#1 ++ d ++ a ++ b)
  | .tspawn d a => .scalar (0xE0#8 ++ d ++ a ++ 0#8)
  | .tdep d a => .scalar (0xE2#8 ++ d ++ a ++ 0#8)
  | .tdone  => .scalar (0xE4#8 ++ 0#24)
  | .qpush d a b => .scalar (0xE6#8 ++ d ++ a ++ b)
  | .qpop d a => .scalar (0xE8#8 ++ d ++ a ++ 0#8)
  | .flushred  => .scalar (0xEA#8 ++ 0#24)
  | .trap i => .scalar (0xF0#8 ++ 0#8 ++ i)
  | .eret  => .scalar (0xF2#8 ++ 0#24)
  | .mfs d i => .scalar (0xF4#8 ++ d ++ i)
  | .mts d i => .scalar (0xF6#8 ++ d ++ i)
  | .yield  => .scalar (0xF8#8 ++ 0#24)
  | .reggrow a => .scalar (0xFA#8 ++ 0#8 ++ a ++ 0#8)
  | .regshrink a => .scalar (0xFC#8 ++ 0#8 ++ a ++ 0#8)
  | .bkpt  => .scalar (0xFE#8 ++ 0#24)
  | .vfadd f => .lane (laneWord 0x010 f)
  | .vfaddLi f => .lane (laneWord 0x810 f)
  | .vfsub f => .lane (laneWord 0x011 f)
  | .vfsubLi f => .lane (laneWord 0x811 f)
  | .vfmul f => .lane (laneWord 0x012 f)
  | .vfmulLi f => .lane (laneWord 0x812 f)
  | .vffma f => .lane (laneWord 0x013 f)
  | .vffmaLi f => .lane (laneWord 0x813 f)
  | .vfmin f => .lane (laneWord 0x014 f)
  | .vfminLi f => .lane (laneWord 0x814 f)
  | .vfmax f => .lane (laneWord 0x015 f)
  | .vfmaxLi f => .lane (laneWord 0x815 f)
  | .vfrcp f => .lane (laneWord 0x016 f)
  | .vfrsq f => .lane (laneWord 0x017 f)
  | .vfsqrt f => .lane (laneWord 0x018 f)
  | .vfdiv f => .lane (laneWord 0x019 f)
  | .vfdivLi f => .lane (laneWord 0x819 f)
  | .vfexp2 f => .lane (laneWord 0x01A f)
  | .vflog2 f => .lane (laneWord 0x01B f)
  | .vfsin f => .lane (laneWord 0x01C f)
  | .vfcos f => .lane (laneWord 0x01D f)
  | .vfcmp f => .lane (laneWord 0x01E f)
  | .vfcmpLi f => .lane (laneWord 0x81E f)
  | .vfclass f => .lane (laneWord 0x01F f)
  | .vfrnd f => .lane (laneWord 0x020 f)
  | .vadd f => .lane (laneWord 0x040 f)
  | .vaddLi f => .lane (laneWord 0x840 f)
  | .vsub f => .lane (laneWord 0x041 f)
  | .vsubLi f => .lane (laneWord 0x841 f)
  | .vmul f => .lane (laneWord 0x042 f)
  | .vmulLi f => .lane (laneWord 0x842 f)
  | .vmulh f => .lane (laneWord 0x043 f)
  | .vmulhLi f => .lane (laneWord 0x843 f)
  | .vmad f => .lane (laneWord 0x044 f)
  | .vmadLi f => .lane (laneWord 0x844 f)
  | .vmin f => .lane (laneWord 0x045 f)
  | .vminLi f => .lane (laneWord 0x845 f)
  | .vmax f => .lane (laneWord 0x046 f)
  | .vmaxLi f => .lane (laneWord 0x846 f)
  | .vabs f => .lane (laneWord 0x047 f)
  | .vand f => .lane (laneWord 0x048 f)
  | .vandLi f => .lane (laneWord 0x848 f)
  | .vor f => .lane (laneWord 0x049 f)
  | .vorLi f => .lane (laneWord 0x849 f)
  | .vxor f => .lane (laneWord 0x04A f)
  | .vxorLi f => .lane (laneWord 0x84A f)
  | .vshl f => .lane (laneWord 0x04B f)
  | .vshlLi f => .lane (laneWord 0x84B f)
  | .vshr f => .lane (laneWord 0x04C f)
  | .vshrLi f => .lane (laneWord 0x84C f)
  | .vsar f => .lane (laneWord 0x04D f)
  | .vsarLi f => .lane (laneWord 0x84D f)
  | .vbfx f => .lane (laneWord 0x04E f)
  | .vbfxLi f => .lane (laneWord 0x84E f)
  | .vbfi f => .lane (laneWord 0x04F f)
  | .vbfiLi f => .lane (laneWord 0x84F f)
  | .vpopc f => .lane (laneWord 0x050 f)
  | .vclz f => .lane (laneWord 0x051 f)
  | .vcmp f => .lane (laneWord 0x052 f)
  | .vcmpLi f => .lane (laneWord 0x852 f)
  | .vsadd f => .lane (laneWord 0x053 f)
  | .vsaddLi f => .lane (laneWord 0x853 f)
  | .vssub f => .lane (laneWord 0x054 f)
  | .vssubLi f => .lane (laneWord 0x854 f)
  | .vsel f => .lane (laneWord 0x080 f)
  | .vselLi f => .lane (laneWord 0x880 f)
  | .pset f => .lane (laneWord 0x081 f)
  | .pand f => .lane (laneWord 0x082 f)
  | .por f => .lane (laneWord 0x083 f)
  | .pxor f => .lane (laneWord 0x084 f)
  | .pnot f => .lane (laneWord 0x085 f)
  | .vmask f => .lane (laneWord 0x086 f)
  | .vcvt f => .lane (laneWord 0x0C0 f)
  | .vpack f => .lane (laneWord 0x0C1 f)
  | .vunpack f => .lane (laneWord 0x0C2 f)
  | .vscale f => .lane (laneWord 0x0C3 f)
  | .vshuf f => .lane (laneWord 0x100 f)
  | .vbcast f => .lane (laneWord 0x101 f)
  | .vrot f => .lane (laneWord 0x102 f)
  | .vxlane f => .lane (laneWord 0x103 f)
  | .vreadlane f => .lane (laneWord 0x104 f)
  | .vwritelane f => .lane (laneWord 0x105 f)
  | .viota f => .lane (laneWord 0x106 f)
  | .vreduce f => .lane (laneWord 0x107 f)
  | .vmov f => .lane (laneWord 0x140 f)
  | .vmovi f => .lane (laneWord 0x940 f)
  | .vld f => .lane (laneWord 0x200 f)
  | .vst f => .lane (laneWord 0x201 f)
  | .vldx f => .lane (laneWord 0x202 f)
  | .vstx f => .lane (laneWord 0x203 f)
  | .vlds f => .lane (laneWord 0x204 f)
  | .vsts f => .lane (laneWord 0x205 f)
  | .vldc f => .lane (laneWord 0x206 f)
  | .vstp f => .lane (laneWord 0x207 f)
  | .vpref f => .lane (laneWord 0x208 f)
  | .vatom f => .lane (laneWord 0x240 f)
  | .vred f => .lane (laneWord 0x241 f)
  | .vaccrd f => .lane (laneWord 0x242 f)
  | .vtrsend f => .lane (laneWord 0x280 f)
  | .vtrrecv f => .lane (laneWord 0x281 f)
  | .faultRecordDrain _ => .none
  | .tableWalk _ _ => .none
  | .tlbInvalidateAll _ => .none
  | .tlbInvalidateJob _ => .none
  | .tlbInvalidateRange _ => .none
  | .tlbInvalidateComplete => .none
  | .create _ _ => .none
  | .endJob _ _ => .none
  | .jobEnded _ => .none
  | .keyLoad _ => .none
  | .keyGen _ => .none
  | .keyDestroy _ => .none
  | .keyCommandComplete => .none
  | .bindRegions _ => .none
  | .unbindRegions _ => .none
  | .liveMapCommandComplete => .none
  | .mpointSwitch _ => .none
  | .mpointRelease => .none
  | .retrain _ _ => .none
  | .retrainDone _ => .none
  | .repair _ _ => .none
  | .eyeAlert _ => .none
  | .eyestatRead _ => .none
  | .rd _ _ => .none
  | .wr _ => .none
  | .wrm _ _ => .none
  | .atm _ _ => .none
  | .grd _ _ => .none
  | .gwr _ => .none
  | .crossingNotice _ => .none
  | .packetReply _ => .none
  | .portQueueRelease _ _ => .none
  | .lensReadRequest _ => .none
  | .lensWritePassage _ => .none
  | .lensEntryReply _ => .none
  | .lensIntakeRelease _ => .none
  | .hostMemoryRead _ _ _ => .none
  | .hostMemoryWrite _ _ _ => .none
  | .queueApertureStore _ _ _ => .none
  | .peerAccessArrival _ => .none
  | .registerWrite _ _ => .none
  | .queueEnable _ _ => .none
  | .queueDisable _ _ => .none
  | .depcntFree _ => .none
  | .debugHalt _ _ => .none
  | .debugRelease _ _ => .none
  | .verify _ => .none
  | .install _ => .none
  | .fwCommandComplete => .none
  | .dumpstatClear _ => .none
  | .warmReset => .none
  | .coldReset _ => .none
  | .fatalError _ _ => .none
  | .admissionTurn _ => .none
  | .timeSliceExpiry _ => .none
  | .bandwidthWindow => .none
  | .gridCompletion _ => .none
  | .waveEviction _ _ => .none
  | .lightshipSave _ _ => .none
  | .lightshipOpen _ _ => .none
  | .lightshipRetire _ => .none
  | .divertedArrival _ _ => .none
  | .replyDiversion _ => .none
  | .gangResume _ _ => .none
  | .resumeReopen _ _ => .none
  | .enginePiece _ _ _ => .none
  | .neighbourLineSend _ _ => .none
  | .neighbourArrival _ _ => .none
  | .treeContribution _ => .none
  | .treeTimeout _ _ => .none
  | .treeResult _ _ _ => .none
  | .tileOperation _ _ _ => .none
  | .tileCompletion _ => .none
  | .maskResolution _ _ => .none
  | .cvstepRelease _ _ => .none
  | .convoyPatienceEjection _ _ => .none
  | .barwaitReturn _ _ _ => .none
  | .lineStateTake _ _ => .none
  | .waitComplete _ _ _ => .none
  | .qpopWake _ => .none
  | .reggrowGrant _ => .none
  | .watchdog _ => .none
  | .sliceover _ _ => .none
  | .sliceoverEnd _ _ => .none
  | .remoteReply _ _ => .none
  | .eyeMarginMeasurement _ _ _ _ => .none

/-- The instruction that an encoding decodes to. -/
def decode : Encoding → Except DecodeError Instr
  | .scalar w => decodeScalar w 0
  | .scalarLit w lit => decodeScalar w lit
  | .lane w => decodeLane w
  | .none => .error .truncated

end Sys2Proof
end

