-- ==== Sys2Proof/Machine/State.lean ====
section
/-!
DEFINITION. The state of the device as plain data: every piece of state the spec gives the machine, the reset state,
and the reasons a step can stop. Tables are lists of pairs in rising order of the key; a sparse file of words lists no
entry equal to 0, so equal contents are equal lists.
-/
namespace Sys2Proof.Machine

/-- A table: entries by number, in rising order of the number. -/
abbrev Tab (α : Type) := List (Nat × α)
/-- A file of `n`-bit words by number; a number not listed holds 0. -/
abbrev Sparse (n : Nat) := List (Nat × BitVec n)
/-- Bytes by address, in rising order, no entry 0; an address not listed reads 0 (log 8). -/
abbrev Memory := List Host.Cell

/-- What the instruction at a fragment's SPC waits for, once it has begun to wait (R206, R298, R312, R316, R326). -/
inductive Wait where
  /-- the fragment issues -/
  | run
  /-- a WAIT on its four limits (R312) -/
  | counters (ld st cp tl : BitVec 6)
  /-- a BARWAIT registered at the barrier unit for phase `n` (R316); `wide`: its scope is gang or wider -/
  | barrier (ea : Nat) (n : Word32) (d : BitVec 8) (wide : Bool)
  /-- a BARWAIT that returns once the operations that had landed at the object have completed (R316) -/
  | barrierDone (d : BitVec 8) (result : Word) (ops : List Nat) (wide : Bool)
  /-- a QPOP among the waiters of a queue (R326) -/
  | queue (q : Nat) (d : BitVec 8)
  /-- a YIELD of a chosen grid (R331) -/
  | yielding
  /-- a REGGROW that waits for groups (R332) -/
  | grow (n : Nat)
  /-- a held CVSTEP (R66) -/
  | cvstep
  /-- an ISSUE whose block still streams into the lane queue (R161) -/
  | issuing
  /-- an acquire access whose reply has not landed (R298); `len` is the length of the instruction in bytes -/
  | landing (out : Nat) (len : Nat)
  /-- a barrier operation on an object of an absent gang, performed by the diversion unit (R122) -/
  | diverted (id : Nat)
  deriving DecidableEq, Repr

/-- A live fragment slot (R165). -/
structure Frag where
  emask : Mask
  spc   : Word
  fmt   : BitVec 16
  /-- s176 to s191, by number -/
  bank  : Sparse 64
  /-- the token of the RCV it waits at (R167) -/
  rcv   : Option (BitVec 4)
  wait  : Wait
  deriving DecidableEq, Repr

/-- A reconvergence stack entry (R166, R304). -/
structure StackEntry where
  owner  : Nat
  token  : BitVec 4
  emask  : Mask
  spc    : Word
  bank   : Sparse 64
  fmt    : BitVec 16
  /-- RESUME instead of PENDING -/
  resume : Bool
  /-- pushed in supervisor mode -/
  sup    : Bool
  deriving DecidableEq, Repr

/-- An open fragment group (R166). -/
structure Group where
  slots : List Nat
  fmt   : BitVec 16
  deriving DecidableEq, Repr

/-- One lane instruction of the lane queue with its issue record (R161). -/
structure LaneItem where
  word     : BitVec 96
  /-- $0 to $7 -/
  slots    : List Word
  emask    : Mask
  fmt      : BitVec 16
  /-- live fragments of the wave at the ISSUE -/
  nfrag    : Nat
  /-- issuing fragment, or the survivor it merged into -/
  frag     : Nat
  block    : BitVec 16
  off      : BitVec 10
  /-- set when a trap retries only these lanes (R203) -/
  partMask : Option Mask
  /-- the unresolved predicted BRMs on whose paths it was issued, oldest first (R176) -/
  spec     : List Nat
  /-- TREESEL and TRTIMEOUT when it was issued (R91) -/
  treesel  : Word
  trtime   : Word
  /-- the convoy its wave was a member of at the ISSUE (R61) -/
  cv       : Option Nat
  /-- its number in queue order -/
  seq      : Nat
  /-- the fragments whose instructions from now on follow it in program order (R134) -/
  heirs    : List Nat
  deriving DecidableEq, Repr

/-- The registers a trap writes (R202) and the mode. -/
structure TrapRegs where
  sup    : Bool
  tcause : Word
  tval   : Word
  tspc   : Word
  tlpc   : Word
  lfmask : Mask
  /-- h0 to h15 -/
  h      : Sparse 64
  /-- the slot the handler runs in -/
  slot   : Nat
  /-- the lane queue frozen at trap entry, and the rest of a block that was streaming into it -/
  frozen : List LaneItem
  frest  : List LaneItem
  /-- the original cause of the absent fault being delivered (R128) -/
  absent : Option (BitVec 8)
  deriving DecidableEq, Repr

/-- Where an element of a reply goes in the registers. -/
inductive Dest where
  /-- nothing (a store, a prefetch, s0) -/
  | none
  /-- a scalar register of the wave; a bank register of a fragment when 176 or above -/
  | scalar (r : BitVec 8) (frag : Nat)
  /-- a vector register, from this number -/
  | vector (r : Nat)
  /-- the layout record at this address, for the instruction that reads it (R99) -/
  | record (va : Nat)
  deriving DecidableEq, Repr

/-- One access of a wave that it has issued and that has not landed (R297, R379). -/
structure Out where
  id    : Nat
  /-- counted in ST; otherwise in LD -/
  store : Bool
  dest  : Dest
  /-- vector registers pending until it lands -/
  nvec  : Nat
  /-- requests still without a reply -/
  left  : Nat
  /-- it lies in the host or peer window (R211) -/
  ext   : Bool
  /-- a scalar access: its failure is taken by the rules of R297 -/
  scl   : Bool
  tval  : Word
  /-- TLPC of a lane access -/
  lpc   : Word
  /-- an acquire of the lane stream: it holds later accesses of its fragment (R380) -/
  acq   : Bool
  /-- the fragment that issued it -/
  frag  : Nat
  /-- an acquire at gang or wider: the core's L1 empties when it completes (R54) -/
  clear : Bool
  /-- a drained reduction entry, which no counter counts (R387) -/
  red   : Bool
  /-- the number of the lane instruction that made it, if one did: engine operations and tile operations come after
  those before their issue (R142) -/
  seq   : Option Nat
  /-- the fragments whose instructions from now on follow it in program order (R134) -/
  heirs : List Nat
  deriving DecidableEq, Repr

/-- A trap held for the wave until its rule takes it (R111, R297, R379). -/
structure Deferred where
  cause : BitVec 8
  tval  : Word
  h2    : Word
  /-- the scalar register that takes it earlier, if named -/
  dest  : Dest
  lane  : Bool
  mask  : Mask
  lpc   : Word
  /-- the access it comes from; 0 for an engine operation -/
  out   : Nat
  /-- that access is counted in ST, otherwise in LD: a WAIT takes it once its limit covers the access (R297) -/
  store : Bool
  deriving DecidableEq, Repr

/-- An asynchronous cause that waits for its boundary (R205). -/
structure Pending where
  cause : BitVec 8
  tval  : Word
  deriving DecidableEq, Repr

/-- A fault of an absent wave, as its context image lists it (R124). -/
structure AbsentFault where
  word0 : Word
  tval  : Word
  deriving DecidableEq, Repr

/-- A reduction-buffer entry (R210, R238). -/
structure RedEntry where
  va    : Word
  value : Word
  opc   : BitVec 12
  typ   : BitVec 5
  aop   : BitVec 8
  order : Nat
  deriving DecidableEq, Repr

/-- Convoy registers of a wave (R69); `slip` and `pat` are the values it offers, which a membership hides. -/
structure CvRegs where
  /-- CVID.ID, CVSELF and whether a membership is held -/
  id    : Nat
  self  : Nat
  mem   : Bool
  slip  : BitVec 16
  pat   : BitVec 32
  pos   : Word
  held  : BitVec 32
  cause : BitVec 4
  state : BitVec 2
  deriving DecidableEq, Repr

/-- A range lock (R113): an inclusive first byte, a length, write or read. -/
structure Lock where
  op    : Nat
  grid  : Nat
  gang  : Nat
  /-- the gangs whose scratch it names; empty for a translated window -/
  gangs : List Nat
  base  : Nat
  len   : Nat
  write : Bool
  cpyr  : Bool
  deriving DecidableEq, Repr

/-- A run of consecutive addresses: where it starts, how long it is, and the place of its first byte in the piece. -/
structure Run where
  va  : Nat
  len : Nat
  at_ : Nat
  deriving DecidableEq, Repr

/-- A run's place: scratch of a gang, memory of this device under a key, the same reached through a peer address that
names this device (R10), or another device or the host. -/
inductive Place where
  | scratch (gang off : Nat)
  | mem (pa key : Nat)
  | own (pa key : Nat)
  | far
  deriving DecidableEq, Repr

/-- A request that an engine or a fetcher has made for a piece: its number, and the part of the piece that it carries. -/
structure Req where
  id  : Nat
  va  : Nat
  at_ : Nat
  len : Nat
  deriving DecidableEq, Repr

/-- The accesses of a piece on their way: the runs with their places, as they were translated, and the requests. -/
structure Flight where
  runs : List (Run × Place)
  reqs : List Req
  deriving DecidableEq, Repr

/-- A tile operation of the wave's queue (R339). -/
structure TileOp where
  spec  : List Word
  /-- layout records read at issue: A, B, A scale, B scale -/
  recs  : List (List Word)
  fmt   : BitVec 16
  cbase : Nat
  regs  : Nat
  /-- batch number; none while open -/
  batch : Option (BitVec 16)
  /-- the lane instructions that were queued before it, by number; true: of its fragment's program order (R134, R341) -/
  before : List (Nat × Bool)
  /-- its result is latched in the engine and its write-back is due -/
  latched : Bool
  /-- the read locks it holds (R113) -/
  locks : List Lock
  /-- accesses in flight at issue, which its fetches wait for (R142) -/
  waitOuts : List Nat
  /-- its operand reads on their way -/
  flight : Option Flight
  deriving DecidableEq, Repr

/-- Matrix state of a wave (R342, R345). -/
structure MatState where
  next   : BitVec 16
  faultb : BitVec 16
  seq    : BitVec 16
  ndisc  : BitVec 6
  fk     : Bool
  fv     : Bool
  forig  : BitVec 8
  ops    : List TileOp
  deriving DecidableEq, Repr

/-- A VTRSEND whose result the wave has not taken (R95), by session in the wave. -/
structure TreeSend where
  core   : Nat
  gen    : Nat
  /-- rejected (2) or late (3) -/
  status : Nat
  /-- the result that has reached its position: lanes 0 to 40 of Table 9 -/
  result : Option (List Word32)
  deriving DecidableEq, Repr

/-- A predicted BRM that has not resolved, with its checkpoint (R176). -/
structure SpecRec where
  /-- its number among the unresolved ones -/
  id     : Nat
  slot   : Nat
  neg    : BitVec 1
  p      : BitVec 4
  token  : BitVec 4
  off    : BitVec 10
  /-- the outcome it predicts: KIND and MASK of Table 4 -/
  kind   : BitVec 2
  mask   : Mask
  /-- some scalar instruction on its path wrote one of s1 to s175 -/
  wrote  : Bool
  /-- HIST before it, and the index of its lookup -/
  hist   : BitVec 10
  index  : Nat
  /-- the fragment as it stood at the BRM, and s1 to s175 -/
  frag   : Frag
  scl    : Sparse 64
  /-- lane instructions from this number were issued after it -/
  seq    : Nat
  /-- the slots that follow the predicted taken and fall-through paths -/
  taken  : Option Nat
  fall   : Option Nat
  /-- the slots that its split added to the token's group -/
  fresh  : List Nat
  /-- the older unresolved BRMs on whose paths it lies, oldest first -/
  deps   : List Nat
  /-- the classes that HIST has taken since: of a BRM that predicts by its number, of another by its class -/
  later  : List (Option Nat × BitVec 2)
  deriving DecidableEq, Repr

/-- What a wave is (R164, R185). -/
structure WaveId where
  job  : Nat
  grid : Nat
  gang : Nat
  rank : Nat
  deriving DecidableEq, Repr

/-- The lane stream of a wave. -/
structure LaneState where
  queue : List LaneItem
  /-- the rest of a block longer than the room of the queue, which streams in (R161) -/
  rest  : List LaneItem
  /-- BLOCK and OFF of the last completed lane instruction, 0 if none (R200) -/
  lpc   : Word
  /-- number of the next lane instruction -/
  next  : Nat
  deriving DecidableEq, Repr

/-- The outstanding work of a wave. -/
structure WorkState where
  outs     : List Out
  deferred : List Deferred
  pending  : List Pending
  red      : List RedEntry
  sends    : Tab TreeSend
  treesel  : Word
  trtime   : Word
  /-- absent faults still to be delivered (R128), and LOST -/
  absent   : List AbsentFault
  lost     : Nat
  /-- accesses outstanding at the last trap entry, eviction or merge, which later accesses come after (R139) -/
  fence    : List Nat
  deriving DecidableEq, Repr

/-- A walk that failed for a wave (R16): the 64 KiB page, the access kind, the cause, the level and the entry. -/
structure WalkFail where
  page  : Nat
  acc   : BitVec 3
  cause : BitVec 8
  level : Nat
  entry : Word
  deriving DecidableEq, Repr

/-- Scheduling state of a wave (R171, R194, R207, R212). -/
structure SchedState where
  lastFrag : Nat
  /-- clock at which it last issued a scalar instruction, and last started a lane instruction (R194) -/
  issued   : Nat
  started  : Nat
  /-- its last issue, and its last lane start, had to wait -/
  stallS   : Bool
  stallL   : Bool
  /-- fragments whose BRM has been counted as waiting (R180), each with the index that its lookup formed (R175) -/
  brm      : List (Nat × Nat)
  /-- halted by the debugger (R204, R333) -/
  halted   : Bool
  /-- halted at a BKPT of this fragment, which resumes at the next word -/
  atBkpt   : Option Nat
  /-- clocks since the eviction choice, without those held in CVSTEP (R207) -/
  overRun  : Nat
  /-- clocks since the SLICEOVER entry -/
  overTrap : Option Nat
  /-- fragments back from an eviction at a YIELD, which completes when it is executed again (R331) -/
  resumed  : List Nat
  /-- walks that failed for the scalar and for the lane instruction that executes next -/
  fails    : List WalkFail
  lfails   : List WalkFail
  /-- layout records read for the scalar instruction that executes next, by address (R99) -/
  recs     : Tab (List Word)
  /-- fragments whose engine operation stalls for lack of a copy slot (R108, R116) -/
  noSlot   : List Nat
  /-- the drain unit of its core performs its reduction entries, until they are done (R238) -/
  draining : Bool
  /-- the VRED, by its number in queue order, for which the entries that the wave holds drain first (R238) -/
  redFor   : Option Nat
  deriving DecidableEq, Repr

/-- A resident wave. -/
structure Wave where
  ident  : WaveId
  vcount : Nat
  scl    : Sparse 64
  vec    : Sparse 4096
  pred   : Sparse 128
  frags  : Tab Frag
  groups : Tab Group
  stack  : List StackEntry
  trap   : TrapRegs
  lane   : LaneState
  work   : WorkState
  cv     : CvRegs
  mat    : MatState
  spec   : List SpecRec
  hist   : BitVec 10
  sched  : SchedState
  deriving DecidableEq, Repr

/-- An evicted wave: what the layout of its context image has no place for (R117, R118, R126, R210). -/
structure Away where
  ident  : WaveId
  /-- PA of the context image, and the register groups the image holds -/
  image  : Nat
  groups : Nat
  outs   : List Out
  /-- registers still to land are pending at resume (R126) -/
  mat    : MatState
  cv     : CvRegs
  memloss : Bool
  /-- traps that were held for it at eviction -/
  deferred : List Deferred
  pending  : List Pending
  /-- LPC, and the number of the next lane instruction -/
  lpc    : Word
  next   : Nat
  /-- the frozen lane queue, for the words and owners that its records do not hold, and the rest of a block that was
  streaming into it -/
  frozen : List LaneItem
  frest  : List LaneItem
  /-- which stack entries, oldest first, were pushed in supervisor mode -/
  stackSup : List Bool
  /-- the fragment that issued last, the handler's slot, and the fragments that waited at a YIELD -/
  lastFrag : Nat
  handler  : Nat
  yielded  : List Nat
  /-- the original cause of the absent fault being delivered -/
  absentOf : Option (BitVec 8)
  /-- its VTRSENDs whose results it has not taken (R122) -/
  sends  : Tab TreeSend
  /-- its reduction entries, as its image holds them: its end by force performs them (R168, R214) -/
  red    : List RedEntry
  /-- old core, slot and epoch of its reply-diversion entry -/
  core   : Nat
  slot   : Nat
  epoch  : BitVec 8
  deriving DecidableEq, Repr

/-- A line of an L1 (R51): 128 bytes. -/
structure L1Line where
  line : Nat
  key  : BitVec 10
  job  : Nat
  data : BitVec 1024
  deriving DecidableEq, Repr

/-- A translation a TLB holds (R19). -/
structure TlbEntry where
  job   : Nat
  /-- level of the leaf: 2, 3 or 4 -/
  level : Nat
  /-- VA of the page divided by its size -/
  page  : Nat
  leaf  : Word
  /-- PA of the leaf entry, for the update of D (R18) -/
  leafPA : Nat
  deriving DecidableEq, Repr

/-- A table pointer of a pointer cache (R19). -/
structure PtrEntry where
  job   : Nat
  level : Nat
  index : Nat
  entry : Word
  deriving DecidableEq, Repr

/-- Who, beside the streams of a wave, waits for a translation (R20, R21): an engine operation, the operand fetches of a wave,
the task unit for a grid's record, an eviction that reads liveness records, the drain of an ended wave's reductions. -/
inductive Asker where
  | engine (id : Nat)
  | tiles (uid : Nat)
  | task (grid : Nat)
  | save (uid : Nat)
  | drain (uid : Nat)
  deriving DecidableEq, Repr

/-- A translation miss or walk (R20). -/
structure Walk where
  cluster : Nat
  job     : Nat
  va      : Nat
  /-- 0 read, 1 write, 2 read-write, 3 fetch, 4 prefetch -/
  acc     : BitVec 3
  /-- the waves that wait for it: twice the wave's number, plus 1 for its lane stream -/
  users   : List Nat
  /-- the others that wait for it -/
  askers  : List Asker
  /-- the core and slot of the wave whose miss started it, for a record of R26; 0 for the task unit -/
  core    : Nat
  slot    : Nat
  /-- the request on its way for the entry of the next level (R18) -/
  req     : Option Nat
  deriving DecidableEq, Repr

/-- A predictor entry (R174). -/
structure PredEntry where
  tag  : BitVec 8
  kind : BitVec 2
  conf : Nat
  mask : Mask
  deriving DecidableEq, Repr

/-- A reply-diversion entry (R118). -/
structure RDiv where
  state : BitVec 2
  job   : Nat
  slot  : Nat
  epoch : BitVec 8
  ctx   : Nat
  /-- the wave, and the replies still to land (OUT is their number): an access (0), an engine operation (1), a tile
  operation (2) or a tree session (3), with its number; a tile operation with the wave's, a session with the wave's × 8 + SID -/
  uid   : Nat
  due   : List (Nat × Nat)
  deriving DecidableEq, Repr

/-- A word of code that an instruction cache holds (R239): its place, and the access that read it. -/
structure CodeWord where
  /-- PA / 4 -/
  at_  : Nat
  key  : BitVec 10
  job  : Nat
  word : Word32
  deriving DecidableEq, Repr

/-- State of one core. -/
structure Core where
  l1     : List L1Line
  tlb    : List TlbEntry
  pred   : Tab PredEntry
  /-- words that the scalar instruction cache holds (R239) -/
  icache : List CodeWord
  /-- epoch of each wave slot (R117) -/
  epochs : Sparse 8
  rdiv   : Tab RDiv
  /-- waves that wait in REGGROW, oldest first (R196) -/
  growq  : List Nat
  locks  : List Lock
  /-- a miss of the core found its cluster's miss queue full: no translated access issues until an entry frees (R20) -/
  noMiss : Bool
  /-- words of blocks that the lane instruction cache holds (R239) -/
  lcache : List CodeWord
  deriving DecidableEq, Repr

/-- The scratch allocation of a gang on a cluster (R73). -/
structure Alloc where
  grid : Nat
  gang : Nat
  base : Nat
  len  : Nat
  deriving DecidableEq, Repr

/-- The arm of an inbound neighbour port (R87). -/
structure Arm where
  grid : Nat
  gang : Nat
  base : Nat
  len  : Nat
  cur  : Nat
  deriving DecidableEq, Repr

/-- A line on its way to an inbound port (R90). -/
structure NlLine where
  op   : Nat
  grid : Nat
  data : BitVec 1024
  deriving DecidableEq, Repr

/-- A Lightship entry (R120). -/
structure Ship where
  state : BitVec 2
  job   : Nat
  gang  : Nat
  grid  : Nat
  image : Nat
  len   : Nat
  divb  : Word
  deriving DecidableEq, Repr

/-- The accumulator latched in a matrix engine (R341). -/
structure Latch where
  uid   : Nat
  cbase : Nat
  /-- the registers of the range, in order -/
  acc   : List (BitVec 4096)
  deriving DecidableEq, Repr

/-- An access that waits at hand-off lines of a cluster (R77, R78). -/
structure LineWait where
  /-- 0: VLDC or VSTP of wave `id`, lane instruction number `seq`; 1: engine operation `id`, at its gang `seq`; 2: inbound port
  of side `id` -/
  kind  : Nat
  id    : Nat
  seq   : Nat
  lines : List Nat
  /-- it waits for FULL; otherwise for EMPTY -/
  full  : Bool
  deriving DecidableEq, Repr

/-- State of one cluster. -/
structure Cluster where
  csp    : Memory
  /-- FULL lines -/
  full   : List Nat
  allocs : List Alloc
  /-- inbound arms by side (0 n, 1 e, 2 s, 3 w) -/
  arms   : Tab Arm
  /-- queues of the outbound ports: operation numbers -/
  outq   : Tab (List Nat)
  /-- lines that have reached the inbound ports -/
  inq    : Tab (List NlLine)
  tlb    : List TlbEntry
  ptr    : List PtrEntry
  ships  : Tab Ship
  latch  : Option Latch
  /-- the wave after which the matrix engine's round-robin goes on (R194) -/
  tileRR : Nat
  /-- the operation after which the copy engine's round-robin goes on (R109) -/
  copyRR : Nat
  /-- accesses that wait at hand-off lines, in the order they reached them -/
  linew  : List LineWait
  deriving DecidableEq, Repr

/-- What a request asks of memory (R37). -/
inductive PacketOp where
  /-- a line read toward a Lens slice, or the RD of a Lens entry -/
  | rd
  | wr
  | wrm
  | atm
  | grd
  | gwr
  deriving DecidableEq, Repr

/-- Where a request stands on its way (R36, R57 to R60). -/
inductive Phase where
  /-- on its way to its Lens slice, or to its port if it passes none -/
  | made
  /-- held in a slice's intake for lack of an entry, in the order `n` of arrival (R57) -/
  | intake (n : Nat)
  /-- attached to a Lens entry -/
  | entry (id : Nat)
  /-- it waits for older accesses of its core before it is sent (R138, R382) -/
  | waiting
  /-- held at its port, in the order `n` (R36) -/
  | held (n : Nat)
  /-- sent under a tag; `n` is its place in the order of sending (R40) -/
  | sent (n : Nat)
  /-- performed at the base die; `notice`: its crossing notice is still to come (R60) -/
  | performed (notice : Bool)
  /-- the entry's reply is back and is being sent to the requesters (R58) -/
  | replied
  /-- an access of the peer or host window, on its way (R124) -/
  | remote
  deriving DecidableEq, Repr

/-- The status of a reply (R39, Table 3), and a link error of the fabric or the host link (R10). -/
inductive Status where
  | ok | corrected | notLive | keyMismatch | poison | retired | badPkt | link
  deriving DecidableEq, Repr

/-- One element an access moves: a lane, the address of its first byte, its size in bytes. -/
structure Elem where
  lane : Nat
  va   : Nat
  pa   : Nat
  size : Nat
  /-- data to store, or an atomic's operand -/
  data : Word
  /-- compare value of a compare-and-swap -/
  cmp  : Word
  deriving DecidableEq, Repr

/-- A wave's access that a request serves (R52): where its elements go. -/
structure User where
  uid   : Nat
  out   : Nat
  elems : List Elem
  dest  : Dest
  typ   : BitVec 5
  /-- convoy tag (R61) -/
  cv    : Option Nat
  /-- slot of the wave when it made the access (R26) -/
  slot  : Nat
  deriving DecidableEq, Repr

/-- A request in flight, with the packet it becomes (R36 to R39). A Lens entry's own RD has no user. -/
structure Txn where
  op     : PacketOp
  phase  : Phase
  users  : List User
  core   : Nat
  slot   : Nat
  /-- die of the port it leaves from -/
  die    : Nat
  stack  : Nat
  job    : Nat
  key    : BitVec 10
  pa     : Nat
  /-- VA of its first byte, for a record of R26 -/
  va     : Nat
  /-- atoms, entries -/
  cnt    : Nat
  elems  : List Elem
  esz    : Nat
  /-- data bytes of a write, or of a reply -/
  data   : List Byte
  bmask  : Word
  aop    : BitVec 8
  typ    : BitVec 5
  acc    : BitVec 2
  agent  : BitVec 3
  status : Status
  /-- entries of a GRD reply that read zero (R39) -/
  pmask  : List Nat
  /-- entries of a packet whose region is bound to another key (R26) -/
  mism   : List Nat
  /-- fill the L1 with the line (R52, R54) -/
  fill   : Bool
  /-- how many of its users were there when it left the core (R61) -/
  seen   : Nat
  /-- an engine or a fetcher made it, and takes its reply by its number -/
  owner  : Bool
  /-- the tag it took when it was sent (R36) -/
  tag    : Nat
  /-- its peer address named this device when it was translated (R405) -/
  own    : Bool
  /-- ORIG of an error that it meets (R49): 0 a wave or an engine, 2 a walker, and so on -/
  orig   : Nat
  deriving DecidableEq, Repr

/-- A Lens entry (R56). -/
structure LensEntry where
  slice  : Nat
  line   : Nat
  key    : BitVec 10
  job    : Nat
  /-- requests in join order -/
  reqs   : List Nat
  isOpen : Bool
  deriving DecidableEq, Repr

/-- The memory side of the dies. -/
structure Net where
  txns   : Tab Txn
  lens   : Tab LensEntry
  nextId : Nat
  deriving DecidableEq, Repr

/-- A live-map entry (R44). -/
structure LiveEntry where
  live : Bool
  key  : BitVec 10
  ret  : Bool
  deriving DecidableEq, Repr

/-- The memory controllers, keys and interface state (R25 to R50). -/
structure MemCtl where
  /-- loaded key pairs by slot, 1 to 1023 -/
  keys    : Sparse 512
  live    : Tab LiveEntry
  /-- one more than the time of the last corrected error by atom (R42) -/
  corrAt  : Sparse 64
  /-- errors that atoms hold and no access has met yet (R42, R43) -/
  flaws   : Ecc
  /-- the key command, live-map command and invalidation in progress -/
  keyCmd  : Option Word
  lmCmd   : Option (Word × Nat × Nat)
  tlbCmd  : Option (Word × Word × Nat)
  /-- the ports hold for a switch to a point; stacks that retrain -/
  mpoint  : Option (BitVec 2)
  retrain : List Nat
  /-- eye alerts whose log entry and interrupt are due: stack and channel (R48) -/
  alerts  : List (Nat × Nat)
  /-- the repair maps (R48): stack, spare 2c+i of EYEREP, and the lane moved onto it -/
  repairs : List (Nat × Nat × Nat)
  /-- fabric routes (R10) -/
  routes  : List Nat
  deriving DecidableEq, Repr

/-- A fault record that waits in an overflow buffer (R32). -/
structure HeldRecord where
  die   : Nat
  job   : Nat
  words : List Word
  deriving DecidableEq, Repr

/-- Translation and fault records (R20, R31, R32). -/
structure Xlate where
  walks  : Tab Walk
  /-- walks that failed, for those beside the waves that waited for them, until they have taken the result -/
  failed : List (Asker × WalkFail)
  seq    : BitVec 16
  held   : List HeldRecord
  deriving DecidableEq, Repr

/-- The kinds of engine operation (R102 to R106, R88). -/
inductive EngKind where
  | linear | tileLoad | tileStore | mcast | mcastTile | gather | accum | nlsend
  deriving DecidableEq, Repr

/-- An engine operation in flight (R96 to R112). -/
structure EngOp where
  kind    : EngKind
  uid     : Nat
  ident   : WaveId
  core    : Nat
  slot    : Nat
  frag    : Nat
  d       : BitVec 8
  desc    : List Word
  /-- the layout record read at issue, if it has a handle -/
  rcd     : List Word
  /-- its accesses wait for these: accesses in flight at issue, and lane instructions by number, that come before it in
  program order (R109); `wide`: the release is at gang or wider -/
  waitOuts : List Nat
  waitSeqs : List Nat
  wide    : Bool
  /-- destination bytes done, or lines sent; within the piece: its bytes once read, gangs served, lines written; after
  the last piece `served` is 1 once the status address has been written -/
  pos     : Nat
  buf     : Option (List Byte)
  /-- the part of an index list that a gather's piece takes, once read (R105) -/
  idx     : Option (List Byte)
  /-- the accesses of the piece that are on their way -/
  flight  : Option Flight
  served  : Nat
  lines   : Nat
  /-- FLAGS of the status word without MULTI: SAT, NAN, CLAMP, ZERO, ABSENT in bits 5 to 1 (R112) -/
  flags   : BitVec 6
  bytes   : Nat
  /-- conditions met -/
  conds   : List (BitVec 8)
  aborted : Bool
  /-- barrier objects it has landed at: gang and offset -/
  landed  : List (Nat × Nat)
  /-- the first fault record: SEQ, agent, number of records -/
  fault   : Option (BitVec 16 × BitVec 3 × Nat)
  /-- bytes dropped by destination gang, with the first dropped address (R130) -/
  dropped : List (Nat × Nat × Nat)
  deriving DecidableEq, Repr

/-- What an arrival for an absent gang does (R122). -/
inductive ArrivalOp where
  /-- a piece's bytes, and the barrier object of the same gang at which they land with the piece's size -/
  | write (off : Nat) (bytes : List Byte) (prod : Bool) (bar : Option (Nat × Nat))
  /-- a status word (R110) -/
  | status (off : Nat) (v : Word)
  | land (off bytes : Nat)
  | accum (off : Nat) (exp : BitVec 16) (int32 : Bool) (elems : List Word32) (bar : Option (Nat × Nat))
  /-- a neighbour line, with the cluster and side of the port that took it -/
  | line (cl side : Nat) (data : BitVec 1024)
  | barinit (off : Nat) (a b : Word) (ext : Bool)
  | bararr (off : Nat) (n : Word)
  deriving DecidableEq, Repr

/-- An arrival held at, or passing, a diversion point (R122, R123). -/
structure Arrival where
  grid   : Nat
  gang   : Nat
  /-- the engine operation, or the fragment (its wave × 4 + its slot), it comes from -/
  sender : Nat
  isWave : Bool
  op     : ArrivalOp
  deriving DecidableEq, Repr

/-- A convoy member (R63). -/
structure Member where
  uid    : Nat
  pos    : Word
  parked : Bool
  /-- the blocking instructions at which it was evicted and that have still to complete before that parking ends (R64):
  the fragment, and whether its handler waited there -/
  sticky : List (Nat × Bool)
  idle   : Nat
  deriving DecidableEq, Repr

/-- A bound convoy (R63). -/
structure Convoy where
  grid : Nat
  slip : BitVec 16
  pat  : BitVec 32
  hwm  : Word
  mem  : Tab Member
  deriving DecidableEq, Repr

/-- A contribution on its way to its cluster node (R94). -/
structure TreeMsg where
  uid   : Nat
  core  : Nat
  grid  : Nat
  sel   : Word
  time  : Word
  gen   : Nat
  elems : List Word32
  deriving DecidableEq, Repr

/-- A session generation (R94). -/
structure TreeGen where
  grid   : Nat
  sid    : Nat
  gen    : Nat
  sel    : Word
  /-- clocks since it opened, and CLOCKS of the opening contribution -/
  clocks : Nat
  limit  : Nat
  /-- accepted contributions by core -/
  inputs : Tab (List Word32)
  /-- the result once it is complete, with status 0 or 1, and the cores it has still to reach -/
  result : Option (List Word32)
  cores  : List Nat
  /-- the cores that have sent to it, rejected and late contributions included -/
  sent   : List Nat
  deriving DecidableEq, Repr

/-- The reduction tree. -/
structure Tree where
  msgs : Tab TreeMsg
  gens : List TreeGen
  /-- generations opened so far, by grid × 8 + session -/
  next : Tab Nat
  deriving DecidableEq, Repr

/-- A gang of a grid (R186, R193). -/
structure Gang where
  cluster : Nat
  len     : Nat
  /-- ranks resident, and ranks evicted -/
  here    : List Nat
  gone    : List Nat
  /-- PA of its retired or open Lightship image, if saved -/
  image   : Option Nat
  /-- some wave saved FULL; the CSP ranges of the others' records -/
  full    : Bool
  ranges  : List (Nat × Nat)
  /-- resume is between its first step and its reopening (R126) -/
  resuming : Bool
  forced  : Bool
  /-- some wave of it has ended by a trap (R189) -/
  trapped : Bool
  deriving DecidableEq, Repr

/-- An admitted grid (R185, R189, R190, R193). -/
structure Grid where
  job     : Nat
  task    : List Word
  queue   : Nat
  pri     : Nat
  die     : Nat
  gangs   : Tab Gang
  /-- completion signals done -/
  signaled : Bool
  /-- the request that carries its completion record to another device or the host, until its reply (R189) -/
  crec    : Option Nat
  status  : BitVec 8
  /-- clock of admission or last resume -/
  since   : Nat
  chosen  : Bool
  /-- it has run one SLICE (R193) -/
  expired : Bool
  /-- position in the resume list: the clock it entered it -/
  waiting : Option Nat
  /-- watchdog count, and whether progress was made since the last clock -/
  wd      : Nat
  moved   : Bool
  deriving DecidableEq, Repr

/-- An armed dependence counter (R188). -/
structure DepCnt where
  count : BitVec 32
  q     : Nat
  deriving DecidableEq, Repr

/-- The task unit and the die schedulers. -/
structure Sched where
  grids    : Tab Grid
  nextGrid : Nat
  deps     : Tab DepCnt
  /-- times a candidate was skipped: queues at their number, grids at 64 + number -/
  skips    : Tab Nat
  /-- the queue after which the round-robin of a die among the queues of one PRI goes on, by die × 8 + PRI (R190) -/
  rr       : Tab Nat
  /-- dies whose admission turn is due, whether a bandwidth window has ended -/
  due      : List Nat
  window   : Bool
  /-- waiters of queues in order: queue, wave, fragment -/
  qwait    : List (Nat × Nat × Nat)
  deriving DecidableEq, Repr

/-- What the host receives (R12, R32, R49, R220). -/
structure HostSide where
  /-- the reply to its last read: bytes, or none for an error completion -/
  reply   : Option (Option (List Byte))
  /-- writes discarded and logged as writes to an unpopulated offset -/
  drops   : Nat
  /-- host fault interrupt pending (R32) -/
  irqFault : Bool
  /-- times the machine-check, eye and fatal interrupts were raised -/
  mcheck  : Nat
  eye     : Nat
  fatal   : Nat
  /-- the reply to the last peer access, with its status -/
  peer    : Option (Status × List Byte)
  deriving DecidableEq, Repr

/-- Firmware (R218, R219). -/
structure Firmware where
  /-- the two images; `none` is the image the part was delivered with, which passes the boot check (log 21) -/
  flash   : List (Option (List Byte))
  /-- image that runs; none in RECOVERY -/
  running : Option Nat
  /-- image installed last, tried first -/
  newer   : Nat
  minSvn  : BitVec 32
  /-- the command in progress with the code it will report -/
  cmd     : Option (BitVec 2 × BitVec 8)
  deriving DecidableEq, Repr

/-- The wave, fragment and stream of the instruction that executes. -/
structure Cur where
  core : Nat
  slot : Nat
  frag : Nat
  deriving DecidableEq, Repr

/-- Reduction entries of a wave that a forced end has ended: its end is a flush point, so they are still performed (R168,
R214). -/
structure Drain where
  ident   : WaveId
  core    : Nat
  slot    : Nat
  entries : List RedEntry
  deriving DecidableEq, Repr

/-- What moves next (log 3): an event, or an issue of a wave's scalar thread or lane pipeline. -/
inductive Turn where
  | dev (i : Instr)
  | scalar (core slot : Nat)
  | lane (core slot : Nat)
  deriving DecidableEq, Repr

/-- The state of the device. -/
structure State where
  clk      : Word
  /-- management registers by offset; see Mgmt -/
  mreg     : Sparse 64
  /-- main memory by PA -/
  mem      : Memory
  waves    : Tab Wave
  away     : Tab Away
  cores    : Tab Core
  clusters : Tab Cluster
  net      : Net
  ctl      : MemCtl
  xlate    : Xlate
  engines  : Tab EngOp
  arrivals : List Arrival
  drains   : List Drain
  convoys  : Tab Convoy
  tree     : Tree
  sched    : Sched
  host     : HostSide
  fw       : Firmware
  /-- the model's own: turns to come, the instruction that executes, and the number of the next free value -/
  agenda   : List Turn
  cur      : Option Cur
  free     : Nat
  deriving DecidableEq, Repr

/-- Why the machine stops with a fault. -/
inductive Fault where
  /-- exec of a wave's instruction with no wave to execute it: raised by every wave instruction when `cur` names no
  live fragment. Safe: no such step exists in the part. -/
  | noWave
  deriving DecidableEq, Repr

/-- Why an instruction has no meaning. -/
inductive Refusal where
  /-- not modelled yet: raised by an arm of `exec` only. Safe: a refused instruction proves nothing. -/
  | notModelled (mnemonic : String)
  deriving DecidableEq, Repr

/-- The outcome of a step of this machine. -/
abbrev Result := Host.Outcome State Fault Refusal

/-- A core with nothing in it (R50, R222). -/
def Core.empty : Core := ⟨[], [], [], [], [], [], [], [], false, []⟩
/-- A cluster with nothing in it: the matrix engine's first turn begins with the lowest core and slot (R194). -/
def Cluster.empty : Cluster := ⟨[], [], [], [], [], [], [], [], [], none, 65535, 0, []⟩

/-- The device right after a cold reset (R50, R222): no waves, no live regions, keys empty, every management register 0
but for SLICE, DEVPOW and SLICECEIL, whose reset values R188 and R207 give. -/
def State.reset : State where
  clk := 0
  mreg := [(0x421008, 0x100000), (0x421010, 2800), (0x421030, 262144)]
  mem := []
  waves := []
  away := []
  cores := []
  clusters := []
  net := ⟨[], [], 1⟩
  ctl := ⟨[], [], [], [], none, none, none, none, [], [], [], []⟩
  xlate := ⟨[], [], 0, []⟩
  engines := []
  arrivals := []
  drains := []
  convoys := []
  tree := ⟨[], [], []⟩
  sched := ⟨[], 1, [], [], [], [], false, []⟩
  host := ⟨none, 0, false, 0, 0, 0, none⟩
  fw := ⟨[none, some []], some 0, 0, 0, none⟩
  agenda := []
  cur := none
  free := 0

end Sys2Proof.Machine
end

