-- ==== Sys2Proof/Machine/Store.lean ====
section
/-!
DEFINITION. Tables, sparse files and byte stores: the one place where lists of pairs are read and written. A write
keeps the rising order, and in a sparse file lists no entry equal to 0.
-/
namespace Sys2Proof.Machine

/-- Look a number up in a table. -/
def Tab.get? {α : Type} : Tab α → Nat → Option α
  | [], _ => none
  | (k, a) :: t, n => if k = n then some a else Tab.get? t n

/-- Whether a table has the number. -/
def Tab.has {α : Type} (t : Tab α) (n : Nat) : Bool := (t.get? n).isSome

/-- Set an entry of a table. -/
def Tab.set {α : Type} : Tab α → Nat → α → Tab α
  | [], n, a => [(n, a)]
  | (k, b) :: t, n, a =>
    if n < k then (n, a) :: (k, b) :: t
    else if k = n then (n, a) :: t
    else (k, b) :: Tab.set t n a

/-- Remove an entry of a table. -/
def Tab.del {α : Type} (t : Tab α) (n : Nat) : Tab α := t.filter (fun e => e.1 != n)

/-- Change an entry of a table, if there is one. -/
def Tab.update {α : Type} (t : Tab α) (n : Nat) (f : α → α) : Tab α :=
  match t.get? n with
  | some a => t.set n (f a)
  | none => t

/-- Keep the entries that satisfy `p`. -/
def Tab.keep {α : Type} (t : Tab α) (p : Nat → α → Bool) : Tab α := t.filter (fun e => p e.1 e.2)

/-- Change every entry. -/
def Tab.mapAll {α : Type} (t : Tab α) (f : Nat → α → α) : Tab α := t.map (fun e => (e.1, f e.1 e.2))

/-- The first entry that satisfies `p`. -/
def Tab.first? {α : Type} (t : Tab α) (p : Nat → α → Bool) : Option (Nat × α) := t.find? (fun e => p e.1 e.2)

/-- Read a sparse file. -/
def Sparse.get {n : Nat} : Sparse n → Nat → BitVec n
  | [], _ => 0
  | (k, a) :: t, m => if k = m then a else Sparse.get t m

/-- List a value in a sparse file. -/
def Sparse.put {n : Nat} : Sparse n → Nat → BitVec n → Sparse n
  | [], m, v => [(m, v)]
  | (k, a) :: t, m, v =>
    if m < k then (m, v) :: (k, a) :: t
    else if k = m then (m, v) :: t
    else (k, a) :: Sparse.put t m v

/-- Write a sparse file: a zero is not listed. -/
def Sparse.set {n : Nat} (s : Sparse n) (m : Nat) (v : BitVec n) : Sparse n :=
  if v = 0 then s.filter (fun e => e.1 != m) else s.put m v

/-- The canonical form of a sparse file: numbers strictly rising from `lo`, no entry 0. -/
def Sparse.wfFrom {n : Nat} : Nat → Sparse n → Bool
  | _, [] => true
  | lo, (k, a) :: t => decide (lo ≤ k) && decide (a ≠ 0) && Sparse.wfFrom (k + 1) t

/-- The canonical form of a sparse file. -/
def Sparse.wf {n : Nat} (s : Sparse n) : Bool := Sparse.wfFrom 0 s

/-- The canonical form of memory: addresses strictly rising, no byte equal to what an unlisted address reads as. -/
def Memory.wf (m : Memory) : Bool := Sparse.wf (n := 8) m

/-- Read the byte of memory at an address. -/
def Memory.byte (m : Memory) (a : Nat) : Byte := Sparse.get (n := 8) m a
/-- Write the byte of memory at an address. -/
def Memory.setByte (m : Memory) (a : Nat) (b : Byte) : Memory := Sparse.set (n := 8) m a b

/-- The `n` bytes from an address up. -/
def Memory.read (m : Memory) (a : Nat) : Nat → List Byte
  | 0 => []
  | n + 1 => m.byte a :: Memory.read m (a + 1) n

/-- Write bytes from an address up. -/
def Memory.write (m : Memory) (a : Nat) : List Byte → Memory
  | [] => m
  | b :: bs => Memory.write (m.setByte a b) (a + 1) bs

/-- Write the bytes from an address up whose bit is set in `mask`. -/
def Memory.writeMasked (m : Memory) (a : Nat) (mask : Nat) : List Byte → Memory
  | [] => m
  | b :: bs => Memory.writeMasked (if mask % 2 = 1 then m.setByte a b else m) (a + 1) (mask / 2) bs

/-- Write `n` zero bytes from an address up: they leave the list. -/
def Memory.zero (m : Memory) (a n : Nat) : Memory := m.filter (fun c => decide (c.1 < a ∨ a + n ≤ c.1))

/-- The number that bytes spell, the lowest first. -/
def natOfBytes : List Byte → Nat
  | [] => 0
  | b :: bs => b.toNat + 256 * natOfBytes bs

/-- The `n` low bytes of a number, the lowest first. -/
def bytesOfNat : Nat → Nat → List Byte
  | 0, _ => []
  | n + 1, v => BitVec.ofNat 8 v :: bytesOfNat n (v / 256)

/-- The bytes of a word, little-endian. -/
def bytesOfWord (v : Word) : List Byte := bytesOfNat 8 v.toNat
/-- The word that eight bytes spell. -/
def wordOfBytes (bs : List Byte) : Word := BitVec.ofNat 64 (natOfBytes bs)

/-- The 64-bit word of memory at an address. -/
def Memory.word (m : Memory) (a : Nat) : Word := wordOfBytes (m.read a 8)
/-- Write a 64-bit word to memory. -/
def Memory.setWord (m : Memory) (a : Nat) (v : Word) : Memory := m.write a (bytesOfWord v)

/-- Consecutive 64-bit words of a byte list. -/
def wordsOfBytes : Nat → List Byte → List Word
  | 0, _ => []
  | n + 1, bs => wordOfBytes (bs.take 8) :: wordsOfBytes n (bs.drop 8)

/-- The bytes of words, in order. -/
def bytesOfWords : List Word → List Byte
  | [] => []
  | w :: ws => bytesOfWord w ++ bytesOfWords ws

/-- The bit field `hi:lo` of a word as a number. -/
def bits (w : Word) (hi lo : Nat) : Nat := w.toNat / 2 ^ lo % 2 ^ (hi - lo + 1)

/-- Set the bit field at `lo` of width `n` of a word. -/
def setBits (w : Word) (lo n : Nat) (v : Nat) : Word :=
  let m : Word := BitVec.ofNat 64 (2 ^ n - 1) <<< lo
  (w &&& ~~~m) ||| ((BitVec.ofNat 64 (v % 2 ^ n)) <<< lo)

/-- The bits set in a mask, in rising order, below `n`. -/
def lanesBelow (m : Mask) (n : Nat) : List Nat := (List.range n).filter (fun l => m.getLsbD l)
/-- The lanes of a mask in rising order (R258). -/
def lanesOf (m : Mask) : List Nat := lanesBelow m 128
/-- The mask with one lane. -/
def laneBit (l : Nat) : Mask := 1#128 <<< l
/-- The mask of a list of lanes. -/
def maskOf (ls : List Nat) : Mask := ls.foldl (fun m l => m ||| laneBit l) 0
/-- How many bits of a word are set. -/
def popCount {n : Nat} (x : BitVec n) : Nat := ((List.range n).filter (fun i => x.getLsbD i)).length
/-- The number of leading zero bits. -/
def leadingZeros {n : Nat} (x : BitVec n) : Nat :=
  ((List.range n).takeWhile (fun i => !x.getMsbD i)).length

/-- The whole part of the square root of a number, one bit of the root at a time. -/
def isqrtFrom (v : Nat) : Nat → Nat → Nat
  | 0, r => r
  | b + 1, r => let t := r + 2 ^ b; isqrtFrom v b (if t * t ≤ v then t else r)
/-- The whole part of the square root. -/
def isqrt (v : Nat) : Nat := isqrtFrom v (v.log2 / 2 + 1) 0

/-- Replace the elements of a list at an index. -/
def listSet {α : Type} : List α → Nat → α → List α
  | [], _, _ => []
  | _ :: t, 0, a => a :: t
  | h :: t, n + 1, a => h :: listSet t n a

/-- Put an element into a list before the first that it does not follow. -/
def insertBy {α : Type} (le : α → α → Bool) (a : α) : List α → List α
  | [] => [a]
  | b :: t => if le a b then a :: b :: t else b :: insertBy le a t

/-- A list in the order of `le`; elements that are equal under it keep their order. -/
def sortBy {α : Type} (le : α → α → Bool) : List α → List α
  | [] => []
  | a :: t => insertBy le a (sortBy le t)

/-- The element of a list of words at an index, 0 beyond its end. -/
def wordAt (ws : List Word) (i : Nat) : Word := (ws[i]?).getD 0

end Sys2Proof.Machine
end

