-- ==== Sys2Proof/Machine/Ops.lean ====
section
/-!
DEFINITION. The named operations over the state that every family uses: waves, cores and clusters, scalar registers,
management registers, the scoreboard, forced ends (R214), taking a trap (R202 to R204) and returning from one (R203).
-/
namespace Sys2Proof.Machine

/-! ### Waves, cores, clusters -/

/-- The table number of a wave slot. -/
def slotKey (core slot : Nat) : Nat := core * Config.slots + slot

/-- One number for a wave, for the whole life of its grid. -/
def WaveId.uid (i : WaveId) : Nat := (i.grid * 256 + i.gang) * 512 + i.rank

/-- The wave in a slot. -/
def State.wave? (s : State) (core slot : Nat) : Option Wave := s.waves.get? (slotKey core slot)

/-- Put a wave into a slot. -/
def State.setWave (s : State) (core slot : Nat) (w : Wave) : State :=
  { s with waves := s.waves.set (slotKey core slot) w }

/-- Where a wave is resident: its core and slot. -/
def State.findWave (s : State) (uid : Nat) : Option (Nat × Nat × Wave) :=
  match s.waves.first? (fun _ w => w.ident.uid == uid) with
  | some (k, w) => some (k / Config.slots, k % Config.slots, w)
  | none => none

/-- The cluster of a core (R2). -/
def clusterOf (core : Nat) : Nat := core / 4
/-- The compute die of a core (R2). -/
def dieOf (core : Nat) : Nat := core / 64
/-- The compute die of a cluster. -/
def dieOfCluster (cl : Nat) : Nat := cl / 16

/-- The state of a core; one never used is empty. -/
def State.core (s : State) (n : Nat) : Core := (s.cores.get? n).getD Core.empty
/-- Set the state of a core. -/
def State.setCore (s : State) (n : Nat) (c : Core) : State := { s with cores := s.cores.set n c }
/-- The state of a cluster. -/
def State.cluster (s : State) (n : Nat) : Cluster := (s.clusters.get? n).getD Cluster.empty
/-- Set the state of a cluster. -/
def State.setCluster (s : State) (n : Nat) (c : Cluster) : State := { s with clusters := s.clusters.set n c }

/-- Change the wave with this number, if it is resident. -/
def State.updWave (s : State) (uid : Nat) (f : Wave → Wave) : State :=
  match s.findWave uid with
  | some (core, slot, w) => s.setWave core slot (f w)
  | none => s

/-- Change the wave of a slot, if one is there. -/
def State.updWaveAt (s : State) (core slot : Nat) (f : Wave → Wave) : State :=
  match s.wave? core slot with
  | some w => s.setWave core slot (f w)
  | none => s

/-- The instruction's wave and fragment. -/
structure Ctx where
  core : Nat
  slot : Nat
  frag : Nat
  w    : Wave
  f    : Frag
  deriving DecidableEq, Repr

/-- The wave and live fragment that `cur` names. -/
def State.ctx (s : State) : Option Ctx :=
  match s.cur with
  | some c =>
    match s.wave? c.core c.slot with
    | some w =>
      match w.frags.get? c.frag with
      | some f => some ⟨c.core, c.slot, c.frag, w, f⟩
      | none => none
    | none => none
  | none => none

/-- The cluster of the instruction's wave. -/
def Ctx.cluster (c : Ctx) : Nat := clusterOf c.core
/-- The number of the instruction's wave. -/
def Ctx.uid (c : Ctx) : Nat := c.w.ident.uid

/-- Put the instruction's wave back with another value. -/
def Ctx.put (c : Ctx) (s : State) (w : Wave) : State := s.setWave c.core c.slot w

/-- The context with the traps pending on its wave as the state has them: a memory access that the instruction has made can
have added the memory loss of R43. -/
def Ctx.kept (c : Ctx) (s : State) : Ctx :=
  let pending := ((s.wave? c.core c.slot).map (·.work.pending)).getD c.w.work.pending
  { c with w := { c.w with work := { c.w.work with pending := pending } } }

/-- The fragment with another value, within the wave. -/
def Wave.setFrag (w : Wave) (n : Nat) (f : Frag) : Wave := { w with frags := w.frags.set n f }

/-- Take the number of the next free value. -/
def State.draw (s : State) : Word × State := (Config.freeValue s.free, { s with free := s.free + 1 })

/-! ### Scalar registers (R198, R241, R258) -/

/-- Read the scalar register a field names: s0 reads 0, s176 to s191 come from the fragment's bank, h0 to h15 lie at
192 to 207. -/
def readReg (w : Wave) (f : Frag) (r : BitVec 8) : Word :=
  if r.toNat = 0 then 0
  else if r.toNat < 176 then w.scl.get r.toNat
  else if r.toNat < 192 then f.bank.get r.toNat
  else w.trap.h.get (r.toNat - 192)

/-- Write the scalar register a field names in a wave, for its fragment `n`: a write to s0 is discarded. -/
def Wave.putReg (w : Wave) (n : Nat) (r : BitVec 8) (v : Word) : Wave :=
  if r.toNat = 0 then w
  else if r.toNat < 176 then { w with scl := w.scl.set r.toNat v }
  else if r.toNat < 192 then
    { w with frags := w.frags.update n (fun f => { f with bank := f.bank.set r.toNat v }) }
  else { w with trap := { w.trap with h := w.trap.h.set (r.toNat - 192) v } }

/-! ### Predicted paths (R176) -/

/-- A slot follows a predicted BRM's taken or fall-through path. -/
def SpecRec.owns (r : SpecRec) (n : Nat) : Bool := r.taken == some n || r.fall == some n

/-- The unresolved BRMs on whose paths fragment `n` runs, oldest first. -/
def Wave.pathOf (w : Wave) (n : Nat) : List Nat :=
  match w.spec.reverse.find? (·.owns n) with
  | some r => r.deps ++ [r.id]
  | none => []

/-- A reply, a status word or a lane result reaches a scalar register: the checkpoints of predicted BRMs take it too
(R162, R176). -/
def Wave.landReg (w : Wave) (n : Nat) (r : BitVec 8) (v : Word) : Wave :=
  let spec := w.spec.map (fun k =>
    let k' := ({ w with scl := k.scl, frags := [(k.slot, k.frag)] }).putReg n r v
    { k with scl := k'.scl, frag := (k'.frags.get? k.slot).getD k.frag })
  { w.putReg n r v with spec := spec }

/-- The value of a register field of the executing instruction. -/
def Ctx.get (c : Ctx) (r : BitVec 8) : Word := readReg c.w c.f r

/-- The eight registers from a field up (R96, R161, R336). -/
def Ctx.get8 (c : Ctx) (r : BitVec 8) : List Word :=
  (List.range 8).map (fun i => c.get (r + BitVec.ofNat 8 i))

/-! ### Management registers -/

/-- A plain management register. -/
def State.reg (s : State) (off : Nat) : Word := s.mreg.get off
/-- Set a plain management register. -/
def State.setReg (s : State) (off : Nat) (v : Word) : State := { s with mreg := s.mreg.set off v }
/-- Add to a counter, modulo 2^64. -/
def State.bump (s : State) (off : Nat) (n : Nat := 1) : State := s.setReg off (s.reg off + BitVec.ofNat 64 n)

/-- The offset of register `o` of a job's block (R23). -/
def jobReg (job o : Nat) : Nat := 0x100000 + job * 0x100 + o
/-- The offset of register `o` of a queue (R183). -/
def queueReg (q o : Nat) : Nat := 0x420000 + q * 0x40 + o
/-- The offset of an engine counter of a cluster (R116). -/
def ceReg (cl o : Nat) : Nat := 0x240000 + cl * 0x80 + o
/-- The offset of a Lens slice counter (R62). -/
def lensReg (sl o : Nat) : Nat := 0x2000 + sl * 0x40 + o
/-- The offset of a Lightship counter of a cluster (R132). -/
def lsReg (cl o : Nat) : Nat := 0x400000 + cl * 0x40 + o
/-- The offset of a prediction counter of a core (R180). -/
def pmReg (core o : Nat) : Nat := 0x410000 + core * 0x40 + o

/-- JOBCTL.STATE: 0 FREE, 1 ACTIVE, 2 ENDING, 3 ENDED (R24). -/
def State.jobState (s : State) (job : Nat) : Nat := bits (s.reg (jobReg job 0x88)) 1 0
/-- Set JOBCTL.STATE. -/
def State.setJobState (s : State) (job st : Nat) : State :=
  s.setReg (jobReg job 0x88) (setBits (s.reg (jobReg job 0x88)) 0 2 st)

/-- Raise the host fault interrupt, if it is not pending (R32, R214). -/
def State.raiseFault (s : State) : State := { s with host := { s.host with irqFault := true } }
/-- Raise the host machine-check interrupt (R49). -/
def State.raiseMcheck (s : State) : State := { s with host := { s.host with mcheck := s.host.mcheck + 1 } }

/-- The populated size of main memory in bytes (R12, R41). -/
def State.populated (s : State) : Nat :=
  (if (s.reg 0x428).getLsbD 5 then 1080 else 1152) * 1073741824

/-! ### Convoy membership (R64 to R68) -/

/-- The convoy number of a wave's membership. -/
def cvKey (core : Nat) (w : Wave) : Nat := dieOf core * 512 + w.cv.id

/-- The member entry of a wave in a convoy. -/
def Convoy.memberOf (c : Convoy) (uid : Nat) : Option (Nat × Member) := c.mem.first? (fun _ m => m.uid == uid)

/-- LEAD (R64). -/
def Convoy.lead (c : Convoy) : Nat :=
  if c.mem.isEmpty then c.hwm.toNat else c.mem.foldl (fun a e => max a e.2.pos.toNat) 0
/-- MIN over members that are not parked; none if all are (R64). -/
def Convoy.min? (c : Convoy) : Option Nat :=
  c.mem.foldl (fun a e => if e.2.parked then a else
    match a with | none => some e.2.pos.toNat | some x => some (min x e.2.pos.toNat)) none

/-- Remove a wave from every convoy, when it or its gang or job ends (R68). -/
def State.dropMember (s : State) (uid : Nat) : State :=
  { s with convoys := s.convoys.mapAll (fun _ c => { c with mem := c.mem.keep (fun _ m => m.uid != uid) }) }

/-- Park the membership of a wave (R64); `at_`: the blocking instructions at which it is evicted, if it is. -/
def State.park (s : State) (uid : Nat) (at_ : List (Nat × Bool) := []) : State :=
  { s with convoys := s.convoys.mapAll (fun _ c =>
      { c with mem := c.mem.mapAll (fun _ m =>
          if m.uid = uid then { m with parked := true, sticky := m.sticky ++ at_.filter (fun x => !m.sticky.contains x) }
          else m) }) }

/-- A wave's membership ends: CVSTAT takes a cause and a state (R67, R68, Table 5). -/
def Wave.leaveConvoy (w : Wave) (cause : BitVec 4) (state : BitVec 2) : Wave :=
  { w with cv := { w.cv with mem := false, cause := cause, state := state } }

/-- End the membership of a resident wave with a cause (R67). -/
def State.eject (s : State) (uid : Nat) (cause : BitVec 4) : State :=
  (s.dropMember uid).updWave uid (·.leaveConvoy cause 2)

/-- LD: loads and atomics of the wave that have not landed (R297, R312). -/
def Wave.ldCount (w : Wave) : Nat := (w.work.outs.filter (fun o => !o.store && !o.red)).length
/-- ST: stores of the wave that have not been performed. -/
def Wave.stCount (w : Wave) : Nat := (w.work.outs.filter (fun o => o.store && !o.red)).length

/-- A member must wait while CVPOS − MIN ≥ SLIP (R66). -/
def Convoy.mustHold (c : Convoy) (pos : Word) : Bool :=
  match c.min? with
  | none => false
  | some m => decide (m + c.slip.toNat ≤ pos.toNat)

/-- The fragments of a wave that wait in CVSTEP. -/
def Wave.cvFrags (w : Wave) : List Nat :=
  (w.frags.filter (fun e => e.2.wait == .cvstep)).map (fun e => e.1)

/-- A member is held while a CVSTEP of its wave waits and must (R66), whatever the wave's other fragments do; a halt by the
debugger leaves the CVSTEP pending and the member parked (Table 5 of R70). -/
def State.heldMember (s : State) (c : Convoy) (m : Member) : Bool :=
  match s.findWave m.uid with
  | some (_, _, w) => !w.sched.halted && !w.cvFrags.isEmpty && c.mustHold m.pos
  | none => false

/-- Fragment `n` is in a blocking wait (R206). -/
def Wave.blocking (w : Wave) (f : Frag) : Bool :=
  match f.wait with
  | .counters ld _ _ _ => decide (ld.toNat < w.ldCount)
  | .barrier _ _ _ _ | .queue _ _ | .yielding | .grow _ => true
  | _ => false

/-- The wave is in a blocking wait that it entered in user mode, or halted (R64). -/
def Wave.parks (w : Wave) : Bool :=
  w.sched.halted || w.frags.any (fun e => !(w.trap.sup && e.1 == w.trap.slot) && w.blocking e.2)

/-- The blocking instructions at which a wave stands: fragment, and whether its handler waits there (R64, R206). -/
def Wave.blockedAt (w : Wave) : List (Nat × Bool) :=
  (w.frags.filter (fun e => w.blocking e.2 && (!w.trap.sup || e.1 == w.trap.slot))).map (fun e => (e.1, w.trap.sup))

/-- A cause of parking ends (R67): a wave with no other cause continues, or is ejected if it is more than SLIP behind LEAD.
`done`: the blocking instruction that has completed, by its fragment and whether a handler executed it. The parking of an
eviction ends only when the instructions at which the wave was evicted have completed (R64); an instruction that a handler
executes is none of those of user mode (log 94). -/
def State.unpark (s : State) (uid : Nat) (done : List (Nat × Bool) := []) : State :=
  match s.convoys.first? (fun _ c => (c.memberOf uid).isSome), s.findWave uid with
  | some (k, c), some (_, _, w) =>
    match c.memberOf uid with
    | none => s
    | some (i, m) =>
      let m := { m with sticky := m.sticky.filter (fun x => !done.contains x) }
      let set (m : Member) : State := { s with convoys := s.convoys.set k { c with mem := c.mem.set i m } }
      if !m.parked || w.parks || !m.sticky.isEmpty then set m
      else if c.lead > m.pos.toNat + c.slip.toNat then s.eject uid 3
      else set { m with parked := false }
  | _, _ => s

/-- The instruction's blocking wait is over (R64, R67). -/
def Ctx.endBlock (c : Ctx) (s : State) : State := s.unpark c.uid [(c.frag, c.w.trap.sup)]

/-! ### Scratch of a gang (R9, R73) -/

/-- Where a gang's scratch is allocated: the cluster and the allocation. -/
def State.gangAlloc (s : State) (grid gang : Nat) : Option (Nat × Alloc) :=
  match s.clusters.first? (fun _ c => c.allocs.any (fun a => a.grid == grid && a.gang == gang)) with
  | none => none
  | some (k, c) =>
    match c.allocs.find? (fun a => a.grid == grid && a.gang == gang) with
    | some a => some (k, a)
    | none => none

/-- Read bytes of a cluster's scratch. -/
def State.cspRead (s : State) (cl a n : Nat) : List Byte := Memory.read (s.cluster cl).csp a n
/-- Write bytes of a cluster's scratch. -/
def State.cspWrite (s : State) (cl a : Nat) (bs : List Byte) : State :=
  s.setCluster cl { s.cluster cl with csp := Memory.write (s.cluster cl).csp a bs }

/-- Whether a line of a cluster's scratch is FULL (R77). -/
def State.lineFull (s : State) (cl line : Nat) : Bool := (s.cluster cl).full.contains line
/-- Set the state of a line. -/
def State.setLine (s : State) (cl line : Nat) (full : Bool) : State :=
  let c := s.cluster cl
  let rest := c.full.filter (· != line)
  s.setCluster cl { c with full := if full then (rest.takeWhile (· < line)) ++ line :: rest.dropWhile (· < line) else rest }

/-- Free the allocations of gangs that have ended and have no engine operation left, with their arms (R73, R87, R110). -/
def State.sweepAllocs (s : State) : State :=
  let alive (grid gang : Nat) : Bool :=
    (match s.sched.grids.get? grid with
     | some g => (match g.gangs.get? gang with
        | some x => !(x.here.isEmpty && x.gone.isEmpty)
        | none => false)
     | none => false)
  let busy (grid gang : Nat) : Bool :=
    s.engines.any (fun e => e.2.ident.grid == grid && e.2.ident.gang == gang)
  { s with clusters := s.clusters.mapAll (fun _ c =>
      { c with
        allocs := c.allocs.filter (fun a => alive a.grid a.gang || busy a.grid a.gang)
        arms := c.arms.keep (fun _ a => alive a.grid a.gang) }) }

/-! ### Waits that end without completing -/

/-- Lower WCNT of a barrier object by one (R84, R316): it lies in bits 31:23 of word 3. -/
def State.lowerWcnt (s : State) (w : Wave) (ea : Nat) : State :=
  match s.gangAlloc w.ident.grid w.ident.gang with
  | none => s
  | some (cl, a) =>
    let p := a.base + ea % 16777216 + 24
    let v := wordOfBytes (s.cspRead cl p 8)
    s.cspWrite cl p (bytesOfWord (setBits v 23 9 (bits v 31 23 - 1)))

/-- A fragment's wait is abandoned (R200): it leaves the waiters it had joined, and takes back a barrier operation that its
diversion point still queues, which its instruction makes again (R122). -/
def State.leaveWait (s : State) (w : Wave) (n : Nat) (f : Frag) : State :=
  match f.wait with
  | .barrier ea _ _ _ => s.lowerWcnt w ea
  | .queue _ _ =>
    { s with sched := { s.sched with qwait := s.sched.qwait.filter (fun e => !(e.2.1 == w.ident.uid && e.2.2 == n)) } }
  | .grow _ =>
    { s with cores := s.cores.mapAll (fun _ c => { c with growq := c.growq.filter (· != w.ident.uid) }) }
  | .diverted _ =>
    { s with arrivals := s.arrivals.filter (fun a => !(a.isWave && a.sender == w.ident.uid * 4 + n)) }
  | _ => s

/-- Abandon the waits of all fragments of a wave that leaves or ends. -/
def State.leaveWaits (s : State) (w : Wave) : State := w.frags.foldl (fun s e => s.leaveWait w e.1 e.2) s

/-! ### Ends (R168, R214) -/

/-- Write ENDCAUSE of a job (R204, R214): level 1 wave, 2 gang, 3 grid, 4 job. -/
def State.setEndCause (s : State) (job : Nat) (cause : BitVec 8) (level gang grid : Nat) : State :=
  s.setReg (jobReg job 0x78)
    (BitVec.ofNat 64 (cause.toNat * 2 ^ 56 + level * 2 ^ 53 + gang % 256 * 2 ^ 32 + grid % 2 ^ 32))

/-- A grid's gang with another value. -/
def State.updGang (s : State) (grid gang : Nat) (f : Gang → Gang) : State :=
  let up (g : Grid) : Grid := { g with gangs := g.gangs.update gang f }
  { s with sched := { s.sched with grids := s.sched.grids.update grid up } }

/-- A grid with another value. -/
def State.updGrid (s : State) (grid : Nat) (f : Grid → Grid) : State :=
  { s with sched := { s.sched with grids := s.sched.grids.update grid f } }

/-- Remove a resident wave from its slot, with its waits, misses, membership and place in its gang. Replies to it find
no wave and are dropped; its reduction entries are still to be performed, since its end is a flush point (R168). -/
def State.removeWave (s : State) (core slot : Nat) (w : Wave) : State :=
  let s := (s.leaveWaits w).dropMember w.ident.uid
  let s := { s with
    waves := s.waves.del (slotKey core slot)
    drains := if w.work.red.isEmpty then s.drains else s.drains ++ [(⟨w.ident, core, slot, w.work.red⟩ : Drain)]
    xlate := { s.xlate with walks := s.xlate.walks.mapAll (fun _ k =>
      { k with users := k.users.filter (fun u => u / 2 != w.ident.uid) }) } }
  s.updGang w.ident.grid w.ident.gang (fun g => { g with here := g.here.filter (· != w.ident.rank) })

/-- A chosen grid whose waves have all been evicted or ended enters the resume list of its home die (R193). -/
def State.enterResume (s : State) (grid : Nat) : State :=
  s.updGrid grid (fun g =>
    if g.chosen && g.waiting.isNone && g.gangs.all (fun e => e.2.here.isEmpty) && g.gangs.any (fun e => !e.2.gone.isEmpty) then
      { g with waiting := some s.clk.toNat, chosen := false }
    else g)

/-- Free the reply-diversion entries of some waves (R118). -/
def State.freeRdiv (s : State) (p : Nat → Bool) : State :=
  { s with cores := s.cores.mapAll (fun _ c => { c with rdiv := c.rdiv.keep (fun _ r => !p r.uid) }) }

/-- A reply that was due at an eviction is no longer to come: OUT falls by one in each entry that counts it, and at 0 an
OPEN entry is FREE (R118). -/
def State.outFalls (s : State) (key : Nat × Nat) : State :=
  { s with cores := s.cores.mapAll (fun _ c =>
      if c.rdiv.any (fun e => e.2.due.contains key) then
        let less := c.rdiv.mapAll (fun _ r => { r with due := r.due.erase key })
        { c with rdiv := less.keep (fun _ r => !(r.due.isEmpty && r.state == 1)) }
      else c) }

/-- A wave ends (R168): the wave is removed; a gang whose last wave ended frees its scratch when its operations have
completed. -/
def State.endWave (s : State) (core slot : Nat) : State :=
  match s.wave? core slot with
  | none => s
  | some w => (((s.removeWave core slot w).freeRdiv (· == w.ident.uid)).enterResume w.ident.grid).sweepAllocs

/-- A gang ends by force (R214): its waves end, resident or absent; its operations end ABORTED, with ABSENT if their
issuer is evicted (R112); its Lightship and reply-diversion entries free. Arrivals queued for it pass its diversion point
and are dropped there (R130, R131). The reduction entries of its waves are still to be performed, since their end is a flush
point (R168). DESIGN CHOICE (log 97): a grid that a trap has made FAULTED stays so when its job is ENDed, and the other way
round: R189 does not rank the two. -/
def State.endGang (s : State) (grid gang : Nat) (status : BitVec 8) : State :=
  let mine (i : WaveId) : Bool := i.grid == grid && i.gang == gang
  let s := s.waves.foldl (fun s e =>
    if mine e.2.ident then s.removeWave (e.1 / Config.slots) (e.1 % Config.slots) e.2 else s) s
  let gone := (s.away.keep (fun _ a => mine a.ident)).map (fun e => e.2)
  let left : List Drain := (gone.filter (fun a => !List.isEmpty a.red)).map (fun a => ⟨a.ident, a.core, a.slot, a.red⟩)
  let s := gone.foldl (fun s a => s.dropMember a.ident.uid) s
  let s := s.freeRdiv (fun u => u / 512 == grid * 256 + gang)
  let s := { s with
    away := s.away.keep (fun _ a => !(mine a.ident))
    drains := s.drains ++ left
    engines := s.engines.mapAll (fun _ e =>
      if mine e.ident then
        { e with aborted := true, flags := if gone.any (fun a => a.ident.uid == e.uid) then e.flags ||| 2 else e.flags }
      else e)
    clusters := s.clusters.mapAll (fun _ c =>
      { c with ships := c.ships.keep (fun _ x => !(x.grid == grid && x.gang == gang)) }) }
  let s := s.updGang grid gang (fun g => { g with
    here := [], gone := [], forced := true, trapped := g.trapped || status == 1, resuming := false, image := none })
  let s := s.updGrid grid (fun g => { g with status := if g.status = 0 then status else g.status })
  (s.enterResume grid).sweepAllocs

/-- Every gang of a grid ends. -/
def State.endGrid (s : State) (grid : Nat) (status : BitVec 8) : State :=
  match s.sched.grids.get? grid with
  | none => s
  | some g => g.gangs.foldl (fun s e => s.endGang grid e.1 status) s

/-- The head of a queue is no longer a candidate that turns have skipped (R190). -/
def State.clearSkips (s : State) (q : Nat) : State := { s with sched := { s.sched with skips := s.sched.skips.del q } }

/-- Clear EN in every queue whose QCFG.JOB names the job (R24, R214). -/
def State.stopQueues (s : State) (job : Nat) : State :=
  (List.range 64).foldl (fun s q =>
    let v := s.reg (queueReg q 0)
    if bits v 15 6 = job ∧ v.getLsbD 0 then (s.setReg (queueReg q 0) (setBits v 0 1 0)).clearSkips q else s) s

/-- Every grid of a job ends and the job goes to ENDING (R24, R214). -/
def State.endJob (s : State) (job : Nat) (status : BitVec 8) : State :=
  let s := s.stopQueues job
  let s := s.sched.grids.foldl (fun s e => if e.2.job = job then s.endGrid e.1 status else s) s
  if s.jobState job = 1 then s.setJobState job 2 else s

/-- A forced end at a level (R214), with the cause that ENDCAUSE records and the wave that led to it. -/
def State.forcedEnd (s : State) (i : WaveId) (core slot level : Nat) (cause : BitVec 8) : State :=
  let s := s.setEndCause i.job cause level i.gang i.grid
  match level with
  | 1 =>
    let s := s.updGang i.grid i.gang (fun g => { g with trapped := true })
    (s.updGrid i.grid (fun g => { g with status := if g.status = 0 then 1 else g.status })).endWave core slot
  | 2 => s.endGang i.grid i.gang 1
  | 3 => s.endGrid i.grid 1
  | _ => (s.endJob i.job 1).raiseFault

/-! ### Taking a trap and returning (R202 to R204) -/

/-- A trap to take: its cause, TVAL, whether the lane instruction at TLPC raised it, whether it is asynchronous, its
faulting lanes and h2. -/
structure Trap where
  cause : BitVec 8
  tval  : Word
  lane  : Bool := false
  async : Bool := false
  mask  : Mask := 0
  h2    : Word := 0
  /-- TLPC, where the cause's rule names a lane instruction other than the next (R379) -/
  lpc   : Option Word := none
  /-- the held trap that this takes, which leaves the list (R297) -/
  taken : Option Deferred := none
  deriving DecidableEq, Repr

/-- BLOCK and OFF of a lane instruction, as LPC and TLPC hold them. -/
def LaneItem.lpc (i : LaneItem) : Word := BitVec.ofNat 64 (i.block.toNat * 1024 + i.off.toNat)

/-- LPC: the lane instruction that executes next, or the one executed last (R160, R200). -/
def Wave.lpc (w : Wave) : Word :=
  match w.lane.queue with
  | i :: _ => i.lpc
  | [] => w.lane.lpc

/-- Every access the wave makes from now on comes after those it has outstanding (R139). -/
def Wave.fenceNow (w : Wave) : Wave := { w with work := { w.work with fence := w.work.outs.map (·.id) } }
/-- A later access waits for accesses that R139 puts before it. -/
def Wave.fenced (w : Wave) : Bool := w.work.outs.any (fun o => w.work.fence.contains o.id)

/-- The trap registers at entry (Table 2): TCAUSE packs LANE, ASYNC and CAUSE. -/
def Wave.trapRegs (w : Wave) (n : Nat) (f : Frag) (t : Trap) : TrapRegs where
  sup := true
  tcause := BitVec.ofNat 64 ((if t.lane then 512 else 0) + (if t.async then 256 else 0) + t.cause.toNat)
  tval := t.tval
  tspc := f.spc &&& 0x01FF_FFFF_FFFF_FFFC#64
  tlpc := (match t.lpc with | some l => l | none => w.lpc)
  lfmask := t.mask
  h := (w.trap.h.set 0 0).set 2 t.h2
  slot := n
  frozen :=
    if t.lane then
      match w.lane.queue with
      | i :: q => { i with partMask := some t.mask } :: q
      | [] => []
    else w.lane.queue
  frest := w.lane.rest
  absent := none

/-- Take a trap in fragment `n` of a wave (R202): the trap registers are written, h0 and h2 set, the lane queue frozen,
and the fragment goes on in supervisor mode at TVEC.ADDR. In supervisor mode a synchronous fault ends the gang, and so
does a trap with no handler, but for MEMLOSS, which then ends the wave (R204). -/
def State.takeTrap (s : State) (core slot n : Nat) (t : Trap) : State :=
  match s.wave? core slot with
  | none => s
  | some w =>
    match w.frags.get? n with
    | none => s
    | some f =>
      let tvec := s.reg (jobReg w.ident.job 0x60)
      if w.trap.sup && !t.async then s.forcedEnd w.ident core slot 2 0x0A
      else if !(tvec.getLsbD 0) then
        if t.cause = 0x07 then s.forcedEnd w.ident core slot 1 0x07
        else s.forcedEnd w.ident core slot 2 t.cause
      else
        let s := s.leaveWait w n f
        let f' := { f with spc := tvec &&& 0x01FF_FFFF_FFFF_FFFC#64, wait := .run, rcv := none }
        let w' := { w.fenceNow.setFrag n f' with
          trap := w.trapRegs n f t
          sched := { w.sched with brm := w.sched.brm.filter (·.1 != n), fails := [], lfails := [], recs := [], noSlot := [], draining := false }
          lane := { w.lane with queue := [], rest := [] } }
        (s.setWave core slot w').unpark w.ident.uid

/-- The length in bytes of the scalar instruction at a fragment's fault point, as its word's form states (R203, R240);
the caller reads the word. -/
def formLength (w : Word32) : Nat := if hasLiteral w then 8 else 4

/-- The wave back in user mode with a lane queue; a block that streamed in goes on doing so at its ISSUE. -/
def Wave.resumeUser (w : Wave) (q rest : List LaneItem) (spc : Word) : Wave :=
  let wait : Wait := (match rest with | i :: _ => if i.frag = w.trap.slot then .issuing else .run | [] => .run)
  { w with
    trap := { w.trap with sup := false, frozen := [], frest := [] }
    lane := { w.lane with queue := q, rest := rest }
    frags := w.frags.update w.trap.slot (fun f => { f with spc := spc, wait := wait }) }

/-- The head of the lane queue has completed (R160, R200): a block that streams in gives the next instruction, and its
ISSUE completes with the last (R161). -/
def Wave.popLane (w : Wave) : Wave :=
  match w.lane.queue with
  | [] => w
  | i :: q =>
    match w.lane.rest with
    | [] => { w with lane := { w.lane with queue := q, lpc := i.lpc } }
    | n :: rest =>
      let frags := if rest.isEmpty then
          w.frags.update n.frag (fun f => { f with spc := f.spc + 4, wait := .run })
        else w.frags
      { w with lane := { w.lane with queue := q ++ [n], rest := rest, lpc := i.lpc }, frags := frags }

/-- Return from a handler with retry (R203): the scalar stream at TSPC; the lane instruction at TLPC for the lanes of
LFMASK, and the frozen queue after it. -/
def Wave.retryTrap (w : Wave) : Wave := w.resumeUser w.trap.frozen w.trap.frest w.trap.tspc

/-- Return from a handler with skip (R203); `len` is the length of the instruction at TSPC. -/
def Wave.skipTrap (w : Wave) (len : Nat) : Wave :=
  if w.trap.tcause.getLsbD 9 then
    let w' := w.resumeUser w.trap.frozen w.trap.frest w.trap.tspc
    w'.popLane
  else
    let other := w.trap.frest.filter (fun i => i.frag != w.trap.slot)
    w.resumeUser w.trap.frozen other (w.trap.tspc + BitVec.ofNat 64 len)

/-! ### The clock -/

/-- The convoys after a clock: IDLE of members that are not parked rises (R63). -/
def Convoy.tick (c : Convoy) : Convoy :=
  { c with mem := c.mem.mapAll (fun _ m => if m.parked then m else { m with idle := m.idle + 1 }) }

end Sys2Proof.Machine
end

