-- ==== Sys2Proof/Machine/Operands.lean ====
section
/-!
DEFINITION. What stands between an instruction and its effect: the checks of R245 in their order, the scoreboards, the
stops of a predicted path, and for a lane instruction the checks of R257; then the operands of both streams.
-/
namespace Sys2Proof.Machine

/-! ### The scalar gate -/

/-- The scalar register a queued lane word writes: VMASK, VREADLANE, and VREDUCE with SD = 1 (R162, R350). -/
def LaneItem.scalarDst (i : LaneItem) : Option (BitVec 8) :=
  let opc := (i.word.extractLsb' 84 12).toNat
  if opc = 0x086 ∨ opc = 0x104 ∨ (opc = 0x107 ∧ i.word.getLsbD 30) then some (i.word.extractLsb' 58 8) else none

/-- Whether a destination is scalar register `r` as fragment `n` names it. -/
def Dest.isScalar (d : Dest) (r : BitVec 8) (n : Nat) : Bool :=
  match d with
  | .scalar r' n' => r' == r && (decide (r.toNat < 176) || n' == n)
  | _ => false

/-- Whether a register is pending on the scalar scoreboard (R110, R162, R297). -/
def State.pendingScalar (s : State) (w : Wave) (n : Nat) (r : BitVec 8) : Bool :=
  r != 0 &&
    (w.work.outs.any (fun o => o.dest.isScalar r n) ||
     (w.lane.queue ++ w.lane.rest).any (fun i => i.scalarDst == some r && (decide (r.toNat < 176) || i.frag == n)) ||
     s.engines.any (fun e => e.2.uid == w.ident.uid && e.2.d == r && (decide (r.toNat < 176) || e.2.frag == n)))

/-- The deferred trap of a scalar access that the instruction takes because it names its destination (R297). -/
def Wave.deferredAt (w : Wave) (n : Nat) (rs : List (BitVec 8)) : Option Deferred :=
  w.work.deferred.find? (fun d => rs.any (fun r => r != 0 && d.dest.isScalar r n))

/-- The instruction word that TVAL holds, a literal in its upper half (R245). -/
def instrTval (i : Instr) : Word :=
  match encode i with
  | .scalar w => w.setWidth 64
  | .scalarLit w l => l ++ w
  | .lane w => w.extractLsb' 0 64
  | .none => 0

/-- The bytes a scalar instruction takes (R239). -/
def instrLen (i : Instr) : Nat :=
  match encode i with
  | .scalarLit _ _ => 8
  | _ => 4

/-- The stops of a predicted path on the scalar side (R177, Table 6). -/
def specStop : Instr → Bool
  | .sst _ _ _ | .sstSx _ _ _ _ | .ssts _ _ _ | .sstsSx _ _ _ _ | .satom _ _ _ _ => true
  | .sld _ _ m | .sldSx _ _ m _ | .slds _ _ m | .sldsSx _ _ m _ => mOrd m == 1
  | .cpy _ _ | .cpym _ _ | .cpyr _ _ | .cpyx _ _ | .mma _ | .mfence _ | .mwait _ => true
  | .nlsend _ _ _ _ | .nlrecv _ _ _ _ => true
  | .barinit _ _ _ | .bararr _ _ _ | .barexp _ _ _ | .barwait _ _ _ _ | .barinv _ _ | .barph _ _ => true
  | .fence _ _ | .wait _ _ _ _ | .cvjoin _ _ | .cvleave | .cvstep => true
  | .tspawn _ _ | .tdep _ _ | .tdone | .qpush _ _ _ | .qpop _ _ | .flushred => true
  | .trap _ | .eret | .mts _ _ | .yield | .reggrow _ | .regshrink _ | .bkpt | .exit | .rcv _ => true
  | _ => false

/-- The loads a predicted path may perform early: this model performs them when the path has resolved (R150, R173, log
12). -/
def specLoad : Instr → Bool
  | .sld _ _ _ | .sldSx _ _ _ _ | .slds _ _ _ | .sldsSx _ _ _ _ => true
  | _ => false

/-- What no fragment of the wave does while a BRM of it is unresolved: a trap or a halt waits for the resolution (R177), and
a read of a special register, some of which show the predicted slots and mask, must not show them (R173, log 12). -/
def specBar : Instr → Bool
  | .trap _ | .bkpt | .mfs _ _ => true
  | _ => false

/-- Note that an instruction of fragment `n` on a predicted path writes one of s1 to s175 (R178). -/
def Wave.noteWrite (w : Wave) (n : Nat) (info : ScalarInfo) : Wave :=
  match info.dst with
  | some d =>
    let path := w.pathOf n
    if 1 ≤ d.toNat ∧ d.toNat ≤ 175 then
      { w with spec := w.spec.map (fun r => if path.contains r.id then { r with wrote := true } else r) }
    else w
  | none => w

/-- The special registers that Table 6 marks for supervisor reads only. -/
def supSpecial (n : BitVec 16) : Bool := decide (0x100 ≤ n.toNat)
/-- The special registers that Table 6 marks RO or whose MTS is ignored. -/
def roSpecial (n : BitVec 16) : Bool :=
  let n := n.toNat
  decide (n < 0x22) || (decide (0x23 ≤ n) && decide (n ≤ 0x25)) || n == 0x30 || n == 0x31 || n == 0x32 || n == 0x36

/-- PRIVINSTR beyond the register fields (R245, R246): ERET, a supervisor special register; MTS to a job register in
either mode. -/
def privileged (i : Instr) (sup : Bool) : Bool :=
  match i with
  | .eret => !sup
  | .mfs _ n => supSpecial n && !sup
  | .mts _ n => supSpecial n || (n == 0x22 && !sup)
  | _ => false

/-- SHAREDWRITE (R170, R246, R332): a destination in s1 to s175, or a wave's special register, with several live
fragments. -/
def sharedWrite (i : Instr) (info : ScalarInfo) (w : Wave) : Bool :=
  decide (1 < w.frags.length) &&
    (match i with
     | .reggrow _ | .regshrink _ => true
     | .mts _ n => !w.trap.sup && !roSpecial n
     | _ => !w.trap.sup && (match info.dst with
        | some d => decide (1 ≤ d.toNat) && decide (d.toNat ≤ 175)
        | none => false))

/-- What happens before a scalar instruction has any effect. -/
inductive Gate where
  /-- no wave executes -/
  | noWave
  /-- it traps and performs nothing -/
  | trap (c : Ctx) (t : Trap)
  /-- it waits: the wave is unchanged -/
  | stall
  /-- its effect follows -/
  | run (c : Ctx)
  deriving DecidableEq, Repr

/-- The address after the global window (R301). -/
def windowEnd : Word := 0x0100_0000_0000_0000

/-- Whether an instruction goes on at the next word, so that the end of the global window stops it (R301). -/
def fallsThrough : Instr → Bool
  | .br _ | .call _ | .brc _ _ _ | .brm _ _ _ _ _ | .jmpi _ | .ret | .exit | .trap _ | .eret => false
  | _ => true

/-- The registers that an instruction reads as it stands: a tile operation reads the scales' part of its eight only where FMT
has SMODE 01 (R336), an engine operation its barrier and status addresses only where CTL asks for them (R96). -/
def readsAt (i : Instr) (info : ScalarInfo) (c : Ctx) : List (BitVec 8) :=
  let ctl (a : BitVec 8) : List (BitVec 8) :=
    info.srcs.take 6 ++ (if (c.get a).getLsbD 28 then [a + 6] else []) ++ (if (c.get a).getLsbD 27 then [a + 7] else [])
  match i with
  | .mma _ => if c.f.fmt.extractLsb' 8 2 = 1 then info.srcs else info.srcs.take 5
  | .cpy _ a | .cpym _ a | .cpyr _ a | .cpyx _ a => ctl a
  | _ => info.srcs

/-- The trap that a scalar instruction's checks raise, in the order of R245; then R301's for the end of the window and
R297's for a register whose load failed. -/
def scalarTrap (i : Instr) (info : ScalarInfo) (c : Ctx) : Option Trap :=
  if illegalFields info then some { cause := 0x01, tval := instrTval i }
  else if privileged i c.w.trap.sup || (!c.w.trap.sup && info.regs.any (fun r => decide (192 ≤ r.toNat))) then
    some { cause := 0x03, tval := instrTval i }
  else if sharedWrite i info c.w then some { cause := 0x60, tval := instrTval i }
  else if fallsThrough i && decide (c.f.spc.toNat + instrLen i = windowEnd.toNat) then
    some { cause := 0x20, tval := windowEnd }
  else
    match c.w.deferredAt c.frag (readsAt i info c ++ info.dst.toList) with
    | some d => some { cause := d.cause, tval := d.tval, h2 := d.h2, taken := some d }
    | none => none

/-- The gate of a scalar instruction (R177, R179, R245, R162): a fragment on a predicted path waits for the resolution before
a stop and a load, every fragment of the wave before a trap. -/
def gate (i : Instr) (s : State) : Gate :=
  match s.ctx, scalarInfo i with
  | some c, some info =>
    match scalarTrap i info c with
    | some t => if c.w.spec.isEmpty then .trap c t else .stall
    | none =>
      if !(c.w.pathOf c.frag).isEmpty && (specStop i || specLoad i) then .stall
      else if !c.w.spec.isEmpty && specBar i then .stall
      else if (readsAt i info c ++ info.dst.toList).any (s.pendingScalar c.w c.frag) then .stall
      else .run { c with w := c.w.noteWrite c.frag info }
  | _, _ => .noWave

/-- Take a trap at the executing fragment: a held trap that it takes leaves the list (R297). -/
def State.trapAt (s : State) (c : Ctx) (t : Trap) : State :=
  let c := c.kept s
  let w := { c.w with work := { c.w.work with
    deferred := (match t.taken with | some d => c.w.work.deferred.erase d | none => c.w.work.deferred) } }
  (c.put s w).takeTrap c.core c.slot c.frag t

/-- Run a scalar instruction's effect behind its gate. -/
def scalarOp (i : Instr) (s : State) (body : Ctx → Result) : Result :=
  match gate i s with
  | .noWave => .fault .noWave
  | .trap c t => .next (s.trapAt c t)
  | .stall => .next s
  | .run c => body c

/-- A trap of an instruction's own rule: while a BRM of the wave is unresolved it waits (R177, R179). -/
def trapOr (s : State) (c : Ctx) (t : Trap) : Result :=
  if c.w.spec.isEmpty then .next (s.trapAt c t) else .next s

/-- The instruction completes: its fragment goes on `len` bytes further, in a wave changed by its effect. -/
def Wave.advance (w : Wave) (n len : Nat) : Wave :=
  { w with frags := w.frags.update n (fun f => { f with spc := f.spc + BitVec.ofNat 64 len, wait := .run }) }

/-- Complete with a changed wave. -/
def Ctx.complete (c : Ctx) (s : State) (w : Wave) (len : Nat) : State := c.put s (w.advance c.frag len)

/-- Complete with a value for the destination register (R258 sput). -/
def Ctx.finish (c : Ctx) (s : State) (d : BitVec 8) (v : Word) (len : Nat) : State :=
  c.complete s (c.w.putReg c.frag d v) len

/-- An instruction that computes one register from registers. -/
def computeOp (i : Instr) (s : State) (d : BitVec 8) (v : Ctx → Word) : Result :=
  scalarOp i s (fun c => .next (c.finish s d (v c) (instrLen i)))

/-- Complete without a result. -/
def Ctx.skip (c : Ctx) (s : State) (len : Nat) : State := c.complete s c.w len

/-! ### The lane gate -/

/-- A lane instruction that executes: its wave and the head of the lane queue. -/
structure LCtx where
  core : Nat
  slot : Nat
  w    : Wave
  it   : LaneItem
  deriving DecidableEq, Repr

/-- The lanes it executes for: the record's mask, or the lanes a trap retries (R161, R203). -/
def LCtx.mask (c : LCtx) : Mask := match c.it.partMask with | some m => m | none => c.it.emask

/-- The wave that `cur` names, with the head of its lane queue. -/
def State.lctx (s : State) : Option LCtx :=
  match s.cur with
  | some c =>
    match s.wave? c.core c.slot with
    | some w =>
      match w.lane.queue with
      | i :: _ => some ⟨c.core, c.slot, w, i⟩
      | [] => none
    | none => none
  | none => none

/-- The vector registers a source field names. -/
def srcRegs (k : SrcKind) (t : BitVec 5) (f : BitVec 9) : List Nat :=
  match k with
  | .any | .int | .index =>
    if f.toNat < 256 then (if k == .any && is64 t then [f.toNat, f.toNat + 1] else [f.toNat]) else []
  | _ => []

/-- The vector registers a lane instruction reads or writes. -/
def laneRegs (i : Instr) : List Nat :=
  match laneInfo i with
  | none => []
  | some (r, w) =>
    let t := srcTyp i w
    srcRegs r.a t w.sa ++ srcRegs r.b t w.sb ++ (if r.fmt == .li then [] else srcRegs r.c t w.sc) ++
      (if r.dst == .vec || (r.dst == .vecOrScalar && !w.sd) then
        (if is64 w.typ then [w.dst.toNat, w.dst.toNat + 1] else [w.dst.toNat]) else [])

/-- Whether a vector register is pending for a lane instruction: a load into it has not landed (R379), or an earlier
tile operation has not written it back (R341). -/
def Wave.pendingVec (w : Wave) (seq r : Nat) : Bool :=
  w.work.outs.any (fun o => match o.dest with
    | .vector v => decide (v ≤ r) && decide (r < v + o.nvec)
    | _ => false) ||
  w.mat.ops.any (fun o => !o.before.any (fun p => p.1 == seq) && decide (o.cbase ≤ r) && decide (r < o.cbase + o.regs))

/-- What happens before a lane instruction has any effect. -/
inductive LGate where
  | noWave
  | trap (c : LCtx) (t : Trap)
  | stall
  | run (c : LCtx)
  deriving DecidableEq, Repr

/-- A trap that a lane instruction raises for the lanes of its record (R170, R172, R257). -/
def laneTrap (c : LCtx) (cause : BitVec 8) : Trap :=
  { cause := cause, tval := c.it.word.extractLsb' 0 64, lane := true, mask := c.mask }

/-- Whether later lane instructions wait: an acquire of the lane stream has not landed (R380). -/
def Wave.laneHeld (w : Wave) : Bool := w.work.outs.any (fun o => o.acq)

/-- No trap is taken while a fragment holds a CVSTEP (R66) or has an acquire in flight (R298), whose instruction has
begun: it completes first. -/
def Wave.trapHeld (w : Wave) : Bool :=
  w.frags.any (fun e => match e.2.wait with | .cvstep | .landing _ _ | .diverted _ => true | _ => false)

/-- The asynchronous cause taken at a boundary, by Table 4 of R205: MEMLOSS, WATCHDOG, SLICEOVER. -/
def Wave.dueAsync (w : Wave) : Option Pending :=
  if w.trap.sup || !w.spec.isEmpty || w.trapHeld then none
  else
    match w.work.pending.find? (fun p => p.cause == 0x07) with
    | some p => some p
    | none =>
      match w.work.pending.find? (fun p => p.cause == 0x09) with
      | some p => some p
      | none => w.work.pending.head?

/-- The gate of a lane instruction (R162, R170, R177, R257). -/
def laneGate (i : Instr) (s : State) : LGate :=
  match s.lctx with
  | none => .noWave
  | some c =>
    if encode i ≠ .lane c.it.word then .noWave
    else if !c.it.spec.isEmpty || c.w.laneHeld then .stall
    else if !laneGood i c.w.vcount then .trap c (laneTrap c 0x02)
    else if decide (1 < c.it.nfrag) && !c.w.trap.sup &&
        (match c.it.scalarDst with | some d => decide (1 ≤ d.toNat) && decide (d.toNat ≤ 175) | none => false) then
      .trap c (laneTrap c 0x60)
    else if (laneRegs i).any (c.w.pendingVec c.it.seq) then .stall
    else .run c

/-- The fragment in which a trap of the lane stream runs: the one that issued the block, or the lowest live. -/
def Wave.laneFrag (w : Wave) (it : LaneItem) : Nat :=
  if w.frags.has it.frag then it.frag else match w.frags with | (n, _) :: _ => n | [] => 0

/-- The predicate a queued lane word writes. -/
def LaneItem.predDst (i : LaneItem) : Option Nat :=
  match decodeLane i.word with
  | .ok x =>
    match laneInfo x with
    | some (r, w) => if r.dst == .pred && w.dst != 0 then some w.dst.toNat else none
    | none => none
  | .error _ => none

/-- The lanes a queued instruction still executes for. -/
def LaneItem.lanes (i : LaneItem) : Mask := match i.partMask with | some m => m | none => i.emask

/-- Whether a predicate is pending under a mask, for lane instructions issued before number `seq` (R163). -/
def Wave.predPending (w : Wave) (p : Nat) (m : Mask) (seq : Nat) : Bool :=
  p != 0 && (w.lane.queue ++ w.lane.rest).any (fun i =>
    decide (i.seq < seq) && i.predDst == some p && (i.lanes &&& m) != 0)

/-- Whether the predicate of the oldest unresolved BRM has arrived. -/
def Wave.canResolve (w : Wave) : Bool :=
  match w.spec with
  | [] => false
  | r :: _ => !w.predPending r.p.toNat r.frag.emask r.seq

/-- Shift a class into HIST (R174). -/
def histShift (h : BitVec 10) (k : BitVec 2) : BitVec 10 := (h <<< 2) ||| k.setWidth 10

/-- The class of an outcome and the MASK an entry stores for it (R174, R175). -/
def outcome (t m : Mask) : BitVec 2 × Mask := if t = m then (0, 0) else if t = 0 then (1, 0) else (2, t)

/-- The taken lanes that an outcome predicts for a fragment. -/
def predicted (kind : BitVec 2) (mask m : Mask) : Mask :=
  match kind.toNat with
  | 0 => m
  | 1 => 0
  | _ => m &&& mask

/-- The class that a predicted BRM has shifted into HIST. -/
def SpecRec.class_ (r : SpecRec) : BitVec 2 := (outcome (predicted r.kind r.mask r.frag.emask) r.frag.emask).1

/-- HIST after some classes: those of BRMs that predicted count while they stand among `spec`. -/
def histRun (spec : List SpecRec) : BitVec 10 → List (Option Nat × BitVec 2) → BitVec 10
  | h, [] => h
  | h, (none, k) :: l => histRun spec (histShift h k) l
  | h, (some i, _) :: l =>
    match spec.find? (fun y => y.id == i) with
    | some y => histRun spec (histShift h y.class_) l
    | none => histRun spec h l

/-! ### Merging (R167 to R169) -/

/-- Add slots to a group's list, in rising order. -/
def addSlots (l new : List Nat) : List Nat := (List.range 4).filter (fun n => l.contains n || new.contains n)

/-- What follows in program order once slot `k` is taken by a fragment that splits off from `n` (R134). -/
def splitHeirs (n k : Nat) (l : List Nat) : List Nat :=
  let l := l.filter (· != k)
  if l.contains n then l ++ [k] else l
/-- The same once fragment `a` has merged into `b`. -/
def mergeHeirs (a b : Nat) (l : List Nat) : List Nat := if l.contains a then addSlots l [b] |>.filter (· != a) else l

/-- Fragment `n` splits, and slot `k` takes the new one: what came before `n` comes before both (R134). -/
def Wave.inherit (w : Wave) (n k : Nat) : Wave :=
  let item (i : LaneItem) : LaneItem := { i with heirs := splitHeirs n k i.heirs }
  { w with
    lane := { w.lane with queue := w.lane.queue.map item, rest := w.lane.rest.map item }
    work := { w.work with outs := w.work.outs.map (fun o => { o with heirs := splitHeirs n k o.heirs }) } }

/-- The lane instructions, replies and status words bound for fragment `a` go to fragment `b` (R110, R162). -/
def Wave.renameFrag (w : Wave) (a b : Nat) : Wave :=
  let item (i : LaneItem) : LaneItem :=
    { i with frag := if i.frag = a then b else i.frag, heirs := mergeHeirs a b i.heirs }
  let dest (d : Dest) : Dest := (match d with | .scalar r n => if n = a then .scalar r b else .scalar r n | d => d)
  { w with
    lane := { w.lane with queue := w.lane.queue.map item, rest := w.lane.rest.map item }
    work := { w.work with
      outs := w.work.outs.map (fun o => { o with
        dest := dest o.dest, frag := if o.frag = a then b else o.frag, heirs := mergeHeirs a b o.heirs })
      deferred := w.work.deferred.map (fun d => { d with dest := dest d.dest }) }
    stack := w.stack.map (fun e => if e.owner = a then { e with owner := b } else e)
    groups := w.groups.mapAll (fun _ g =>
      if g.slots.contains a then { g with slots := addSlots (g.slots.filter (· != a)) [b] } else g) }

/-- The same for the wave's requests in flight and its engine operations. -/
def State.renameFrag (s : State) (uid a b : Nat) : State :=
  let user (u : User) : User :=
    match u.dest with
    | .scalar r n => if u.uid = uid ∧ n = a then { u with dest := .scalar r b } else u
    | _ => u
  { s with
    engines := s.engines.mapAll (fun _ e => if e.uid = uid ∧ e.frag = a then { e with frag := b } else e)
    net := { s.net with txns := s.net.txns.mapAll (fun _ t => { t with users := t.users.map user }) } }

/-- Whether every slot of a group waits at an RCV with its token. -/
def Wave.groupReady (w : Wave) (tok : Nat) (g : Group) : Bool :=
  !g.slots.isEmpty && g.slots.all (fun n => match w.frags.get? n with
    | some f => f.rcv == some (BitVec.ofNat 4 tok)
    | none => false)

/-- Merge an open group (R167): the lowest slot survives with its own bank and the group's FMT, and goes on after its
RCV. -/
def mergeGroup (s : State) (w : Wave) (tok : Nat) (g : Group) : State × Wave :=
  match g.slots with
  | [] => (s, w)
  | n :: others =>
    let mask := g.slots.foldl (fun m k => match w.frags.get? k with | some f => m ||| f.emask | none => m) 0
    let (s, w) := others.foldl (fun (sw : State × Wave) k =>
      (sw.1.renameFrag w.ident.uid k n, { sw.2.renameFrag k n with frags := sw.2.frags.del k })) (s, w)
    let up (f : Frag) : Frag := { f with emask := mask, fmt := g.fmt, spc := f.spc + 4, rcv := none, wait := .run }
    (s, { w.fenceNow with frags := w.frags.update n up, groups := w.groups.del tok })

/-- Merge every group whose members all wait (R167, R168). -/
def mergeReady (s : State) (w : Wave) : State × Wave :=
  (List.range 16).foldl (fun (sw : State × Wave) t =>
    match sw.2.groups.get? t with
    | some g => if sw.2.groupReady t g then mergeGroup sw.1 sw.2 t g else sw
    | none => sw) (s, w)

/-! ### Undoing predicted BRMs (R173, R177) -/

/-- Undo a predicted BRM that no younger one depends on: the slots of its paths go, and its fragment stands at it again. -/
def Wave.undoOne (w : Wave) (y : SpecRec) : Wave :=
  { w with
    frags := ((y.taken.toList ++ y.fall.toList).foldl Tab.del w.frags).set y.slot y.frag
    groups := (w.groups.update y.token.toNat (fun g => { g with slots := g.slots.filter (!y.fresh.contains ·) })).keep
      (fun _ g => !g.slots.isEmpty)
    scl := y.scl }

/-- Undo every predicted BRM: each fragment that predicted stands at its oldest again, which has not begun (R173, R200). -/
def Wave.undoSpec (w : Wave) : Wave :=
  match w.spec with
  | [] => w
  | r :: _ =>
    let real (q : List LaneItem) : List LaneItem := q.filter (fun i => i.spec.isEmpty)
    { w.spec.reverse.foldl Wave.undoOne w with
      spec := []
      hist := histRun [] r.hist r.later
      sched := { w.sched with brm := w.sched.brm.filter (fun e => (w.pathOf e.1).isEmpty) }
      lane := { w.lane with queue := real w.lane.queue, rest := real w.lane.rest } }

/-- Take a trap of the lane stream (R200, R201) in the wave without its predictions, whose groups that have become whole
merge first (R167, R173); the instruction is then one of the merged fragment. -/
def State.laneTrapAt (s : State) (c : LCtx) (t : Trap) : State :=
  let (s, w) := mergeReady s c.w.undoSpec
  let it := (match w.lane.queue with | i :: _ => i | [] => c.it)
  (s.setWave c.core c.slot w).takeTrap c.core c.slot (w.laneFrag it) t

/-- Whether a trap of the lane stream waits: for an instruction that has begun, or for the resolution of a BRM (R177). A BRM
whose predicate an instruction behind the trapping one writes cannot resolve before the trap: it is undone. -/
def Wave.laneTrapWaits (w : Wave) : Bool := w.trapHeld || w.canResolve

/-- A trap of a lane instruction, once it can be taken. -/
def laneTrapOr (s : State) (c : LCtx) (t : Trap) : Result :=
  if c.w.laneTrapWaits then .next s else .next (s.laneTrapAt c t)

/-- Run a lane instruction's effect behind its gate. -/
def laneOp (i : Instr) (s : State) (body : LCtx → Result) : Result :=
  match laneGate i s with
  | .noWave => .fault .noWave
  | .trap c t => laneTrapOr s c t
  | .stall => .next s
  | .run c => body c

/-- A lane instruction completes in a changed wave. -/
def LCtx.complete (c : LCtx) (s : State) (w : Wave) : State := s.setWave c.core c.slot w.popLane

/-! ### Lane operands (R249 to R253, R258) -/

/-- Lane `l` of a vector register. -/
def Wave.lane32 (w : Wave) (r l : Nat) : Word32 := (w.vec.get r).extractLsb' (32 * l) 32

/-- A vector register from its lanes: lane `l` is `f l` in the mask, the old value elsewhere. -/
def mergeLanes (old : BitVec 4096) (m : Mask) (f : Nat → Word32) : BitVec 4096 :=
  (List.range 128).foldl (fun acc l =>
    acc ||| (((if m.getLsbD l then f l else old.extractLsb' (32 * l) 32).setWidth 4096) <<< (32 * l))) 0

/-- Write the lanes of a mask of a vector register. -/
def Wave.putVec (w : Wave) (r : Nat) (m : Mask) (f : Nat → Word32) : Wave :=
  { w with vec := w.vec.set r (mergeLanes (w.vec.get r) m f) }

/-- Write the lanes of a mask of a register pair, or of one register for a narrower type (R258 vput). -/
def Wave.putLanes (w : Wave) (t : BitVec 5) (r : Nat) (m : Mask) (f : Nat → Word) : Wave :=
  let w := w.putVec r m (fun l => (f l).extractLsb' 0 32)
  if is64 t then w.putVec (r + 1) m (fun l => (f l).extractLsb' 32 32) else w

/-- Lane `l` of a predicate; p0 is true (R258 pget). -/
def Wave.pget (w : Wave) (p l : Nat) : Bool := p = 0 || (w.pred.get p).getLsbD l
/-- A predicate as a set of lanes. -/
def Wave.pmask (w : Wave) (p : Nat) : Mask := if p = 0 then BitVec.allOnes 128 else w.pred.get p
/-- Write the lanes of a mask of a predicate; p0 is not written (R163, R252). -/
def Wave.putPred (w : Wave) (p : Nat) (m v : Mask) : Wave :=
  if p = 0 then w else { w with pred := w.pred.set p ((w.pred.get p &&& ~~~m) ||| (v &&& m)) }

/-- The lanes where the guard is true (R253). -/
def Wave.guardMask (w : Wave) (f : LaneWord) : Mask :=
  let p := w.pmask f.pred.toNat
  if f.neg = 1 then ~~~p else p

/-- Block slot `k` of the record. -/
def LCtx.slotVal (c : LCtx) (k : Nat) : Word := wordAt c.it.slots k

/-- The integer a constant field stands for (Table 10). -/
def constInt (f : Nat) : Int := if f < 328 then Int.ofNat (f - 264) else -Int.ofNat (f - 327)

/-- The FP32 constants of Table 10. -/
def constFp (f : Nat) : Word32 :=
  match f - 344 with
  | 0 => 0x3F000000 | 1 => 0x3F800000 | 2 => 0x40000000 | 3 => 0x40800000
  | 4 => 0xBF000000 | 5 => 0xBF800000 | 6 => 0xC0000000 | _ => 0xC0800000

/-- A source field read as an integer of 64 bits, for lane `l`: a vector register gives its 32 bits sign-extended. -/
def LCtx.intOpnd (c : LCtx) (f : BitVec 9) (l : Nat) : Word :=
  let n := f.toNat
  if n < 256 then (c.w.lane32 n l).signExtend 64
  else if n < 264 then c.slotVal (n - 256)
  else BitVec.ofInt 64 (constInt n)

/-- The number of elements packed in a lane. -/
def packCount (t : BitVec 5) : Nat := if is16 t then 2 else 1

/-- Both halves of a lane. -/
def twice (h : BitVec 16) : Word32 := h ++ h

end Sys2Proof.Machine
end

