-- ==== Sys2Proof/Machine/Flags.lean ====
section
/-!
DEFINITION. The results of the integer operations of both streams, computed on exact integers and narrowed at the end,
and the comparison word, which takes the place of flags on this hardware (R286). The device keeps no other flags (R226,
R290).
-/
namespace Sys2Proof.Machine

/-- The comparison word of CMP (R286, Table 4): LTN, LTS, EQ in bits 2, 1, 0. -/
def cmpWord (a b : Word) : Word :=
  BitVec.ofNat 64 ((if a.ult b then 4 else 0) + (if a.slt b then 2 else 0) + (if a = b then 1 else 0))

/-- Saturate an exact integer to `n` bits, signed (R231). -/
def sats (n : Nat) (x : Int) : BitVec n := BitVec.ofInt n (max (-(2 ^ (n - 1) : Int)) (min x (2 ^ (n - 1) - 1)))
/-- Saturate an exact integer to `n` bits, unsigned (R231). -/
def satu (n : Nat) (x : Int) : BitVec n := BitVec.ofInt n (max 0 (min x (2 ^ n - 1)))

/-- Bits 127:64 of the signed product. -/
def mulHigh (a b : Word) : Word := BitVec.ofInt 64 (a.toInt * b.toInt / 2 ^ 64)
/-- Bits 127:64 of the unsigned product. -/
def mulHighN (a b : Word) : Word := BitVec.ofNat 64 (a.toNat * b.toNat / 2 ^ 64)

/-- Signed quotient toward zero, with the limits of Table 3 (R285). -/
def divS (a b : Word) : Word := if b = 0 then BitVec.allOnes 64 else BitVec.ofInt 64 (a.toInt.tdiv b.toInt)
/-- Unsigned quotient (R285). -/
def divN (a b : Word) : Word := if b = 0 then BitVec.allOnes 64 else BitVec.ofNat 64 (a.toNat / b.toNat)
/-- Signed remainder with the sign of the dividend (R285). -/
def remS (a b : Word) : Word := if b = 0 then a else BitVec.ofInt 64 (a.toInt.tmod b.toInt)
/-- Unsigned remainder (R285). -/
def remN (a b : Word) : Word := if b = 0 then a else BitVec.ofNat 64 (a.toNat % b.toNat)

/-- The shift amount of the scalar shifts: bits 5:0 of b. -/
def shAmt (b : Word) : Nat := b.toNat % 64

/-- The lesser and the greater, signed and unsigned. -/
def minS {n : Nat} (a b : BitVec n) : BitVec n := if b.slt a then b else a
def maxS {n : Nat} (a b : BitVec n) : BitVec n := if a.slt b then b else a
def minN {n : Nat} (a b : BitVec n) : BitVec n := if b.ult a then b else a
def maxN {n : Nat} (a b : BitVec n) : BitVec n := if a.ult b then b else a

/-- The fields of the operand of BFX and BFI (R288): POS, WID (above 64 taken as 64), SX. -/
def bfPos (b : Word) : Nat := bits b 5 0
def bfWid (b : Word) : Nat := min 64 (bits b 14 8)
def bfSx (b : Word) : Bool := b.getLsbD 15

/-- BFX (R288). -/
def bfExtract (a b : Word) : Word :=
  let w := bfWid b
  let x := a.toNat / 2 ^ bfPos b % 2 ^ w
  if bfSx b && decide (0 < w) && decide (2 ^ (w - 1) ≤ x) then BitVec.ofInt 64 (Int.ofNat x - 2 ^ w)
  else BitVec.ofNat 64 x

/-- BFI (R288): `d` is the old destination. -/
def bfInsert (d a b : Word) : Word :=
  let m : Word := BitVec.ofNat 64 (2 ^ bfWid b - 1) <<< bfPos b
  (d &&& ~~~m) ||| ((a <<< bfPos b) &&& m)

/-- The 22 integer operations of Table 1 (R284). -/
inductive IntOp where
  | add | sub | mul | mulh | mulhn | div | divn | rem | remn | and | or | xor | andn | shl | shr | sar | rot
  | min | max | minn | maxn | cmp
  deriving DecidableEq, Repr

/-- The result of an integer operation (R284 to R286). -/
def intOp : IntOp → Word → Word → Word
  | .add, a, b => a + b
  | .sub, a, b => a - b
  | .mul, a, b => a * b
  | .mulh, a, b => mulHigh a b
  | .mulhn, a, b => mulHighN a b
  | .div, a, b => divS a b
  | .divn, a, b => divN a b
  | .rem, a, b => remS a b
  | .remn, a, b => remN a b
  | .and, a, b => a &&& b
  | .or, a, b => a ||| b
  | .xor, a, b => a ^^^ b
  | .andn, a, b => a &&& ~~~b
  | .shl, a, b => a <<< shAmt b
  | .shr, a, b => a >>> shAmt b
  | .sar, a, b => a.sshiftRight (shAmt b)
  | .rot, a, b => a.rotateLeft (shAmt b)
  | .min, a, b => minS a b
  | .max, a, b => maxS a b
  | .minn, a, b => minN a b
  | .maxn, a, b => maxN a b
  | .cmp, a, b => cmpWord a b

/-- A branch condition of BRC on its register (R243, Table 3). -/
def brcTaken (c : BitVec 4) (a : Word) : Bool :=
  match c.toNat with
  | 0 => a == 0
  | 1 => a != 0
  | 2 => a.msb
  | 3 => !a.msb
  | 4 => !a.msb && a != 0
  | 5 => a.msb || a == 0
  | 6 => a.getLsbD 0
  | 7 => a.getLsbD 1
  | 8 => a.getLsbD 2
  | 9 => !a.getLsbD 0
  | 10 => !a.getLsbD 1
  | 11 => !a.getLsbD 2
  | _ => false

end Sys2Proof.Machine
end

