-- ==== Sys2Proof/Machine/Float.lean ====
section
/-!
DEFINITION. Number formats (R225 to R236): a datum is decoded to an exact value, every operation is computed exactly,
and one function rounds the exact result to a format (R227).
-/
namespace Sys2Proof.Machine

/-- An exact value: (−1)^neg × m × 2^e, an infinity, or a NaN. A zero has m = 0 and keeps its sign. -/
inductive FVal where
  | nan
  | inf (neg : Bool)
  | fin (neg : Bool) (m : Nat) (e : Int)
  deriving DecidableEq, Repr

/-- An IEEE format: exponent bits and fraction bits (R225, Table 2). -/
structure FFmt where
  ebits : Nat
  fbits : Nat
  deriving DecidableEq, Repr

/-- FP32. -/
def f32 : FFmt := ⟨8, 23⟩
/-- FP16. -/
def f16 : FFmt := ⟨5, 10⟩
/-- BF16: the upper half of FP32. -/
def bf16 : FFmt := ⟨8, 7⟩

/-- BIAS. -/
def FFmt.bias (f : FFmt) : Int := 2 ^ (f.ebits - 1) - 1
/-- The bits of +∞. -/
def FFmt.infBits (f : FFmt) : Nat := (2 ^ f.ebits - 1) * 2 ^ f.fbits
/-- The sign bit. -/
def FFmt.signBit (f : FFmt) : Nat := 2 ^ (f.ebits + f.fbits)
/-- The canonical NaN (Table 2). -/
def FFmt.nanBits (f : FFmt) : Nat := f.infBits + 2 ^ (f.fbits - 1)

/-- The value of a datum (R225). -/
def fdecode (f : FFmt) (b : Nat) : FVal :=
  let neg := decide (b / f.signBit % 2 = 1)
  let e := b / 2 ^ f.fbits % 2 ^ f.ebits
  let fr := b % 2 ^ f.fbits
  if e = 2 ^ f.ebits - 1 then (if fr = 0 then .inf neg else .nan)
  else if e = 0 then .fin neg fr (1 - f.bias - f.fbits)
  else .fin neg (2 ^ f.fbits + fr) (e - f.bias - f.fbits)

/-- The value of a datum as an input: under FTZ a subnormal is a zero of its sign (R227). -/
def fread (f : FFmt) (ftz : Bool) (b : Nat) : FVal :=
  let e := b / 2 ^ f.fbits % 2 ^ f.ebits
  if ftz && decide (e = 0) then .fin (decide (b / f.signBit % 2 = 1)) 0 0 else fdecode f b

/-- Rounding modes (Table 1 of R223): 0 RNE, 1 RZ, 2 RUP, 3 RDN. -/
abbrev RM := BitVec 2

/-- Whether a magnitude `n` with a lost part (compared with half a unit: `half` −1, 0, 1 in `cmp`) rounds up. -/
def roundsUp (rm : RM) (neg odd : Bool) (lost : Bool) (cmp : Ordering) : Bool :=
  match rm.toNat with
  | 0 => cmp == .gt || (cmp == .eq && odd)
  | 1 => false
  | 2 => lost && !neg
  | _ => lost && neg

/-- A magnitude m × 2^(−k) rounded to an integer. -/
def roundShift (rm : RM) (neg : Bool) (m k : Nat) : Nat :=
  let q := m / 2 ^ k
  let r := m % 2 ^ k
  let c := compare (2 * r) (2 ^ k)
  if roundsUp rm neg (q % 2 == 1) (r != 0) c then q + 1 else q

/-- The magnitude bits of an overflow (R227). -/
def overflowBits (f : FFmt) (rm : RM) (neg : Bool) : Nat :=
  match rm.toNat with
  | 0 => f.infBits
  | 1 => f.infBits - 1
  | 2 => if neg then f.infBits - 1 else f.infBits
  | _ => if neg then f.infBits else f.infBits - 1

/-- The magnitude bits of m × 2^e rounded once (R227), without the flush of a subnormal result. -/
def roundMag (f : FFmt) (rm : RM) (neg : Bool) (m : Nat) (e : Int) : Nat :=
  if m = 0 then 0
  else
    let top : Int := Int.ofNat m.log2 + e
    let emin : Int := 1 - f.bias
    if top > f.bias + 1 then overflowBits f rm neg
    else if top < emin - f.fbits - 2 then
      (if roundsUp rm neg false true .lt then 1 else 0)
    else
      let q : Int := max top emin - f.fbits
      let n := if e ≥ q then m * 2 ^ (e - q).toNat else roundShift rm neg m (q - e).toNat
      let b := ((q + f.fbits + f.bias - 1).toNat) * 2 ^ f.fbits + n
      if f.infBits ≤ b then overflowBits f rm neg else b

/-- Round an exact value to a format (R226, R227): the helper round of R258 for FP32, FP16 and BF16. -/
def fround (f : FFmt) (rm : RM) (ftz : Bool) : FVal → Nat
  | .nan => f.nanBits
  | .inf neg => (if neg then f.signBit else 0) + f.infBits
  | .fin neg m e =>
    let b := roundMag f rm neg m e
    (if neg then f.signBit else 0) + (if ftz && decide (b < 2 ^ f.fbits) then 0 else b)

/-- The negative of a value. -/
def FVal.neg : FVal → FVal
  | .nan => .nan
  | .inf n => .inf (!n)
  | .fin n m e => .fin (!n) m e

/-- A signed magnitude as an integer. -/
def signed (neg : Bool) (m : Nat) : Int := if neg then -(Int.ofNat m) else Int.ofNat m

/-- The exact sum; an exact zero of unlike signs is +0, or −0 under RDN (R227). -/
def FVal.add (rm : RM) : FVal → FVal → FVal
  | .nan, _ => .nan
  | _, .nan => .nan
  | .inf a, .inf b => if a = b then .inf a else .nan
  | .inf a, _ => .inf a
  | _, .inf b => .inf b
  | .fin a m e, .fin b n g =>
    if m = 0 ∧ n = 0 then .fin (if a = b then a else rm == 3) 0 0
    else
      let q := min e g
      let x := signed a m * 2 ^ (e - q).toNat + signed b n * 2 ^ (g - q).toNat
      if x = 0 then .fin (rm == 3) 0 0 else .fin (decide (x < 0)) x.natAbs q

/-- The exact product; 0 × ∞ is a NaN. -/
def FVal.mul : FVal → FVal → FVal
  | .nan, _ => .nan
  | _, .nan => .nan
  | .inf a, .inf b => .inf (a != b)
  | .inf a, .fin b n _ => if n = 0 then .nan else .inf (a != b)
  | .fin a m _, .inf b => if m = 0 then .nan else .inf (a != b)
  | .fin a m e, .fin b n g => .fin (a != b) (m * n) (e + g)

/-- The quotient, with a lowest bit that stands for what the exact quotient has beyond it, so that it rounds as the
exact quotient does in every format here. -/
def FVal.div : FVal → FVal → FVal
  | .nan, _ => .nan
  | _, .nan => .nan
  | .inf _, .inf _ => .nan
  | .inf a, .fin b _ _ => .inf (a != b)
  | .fin a _ _, .inf b => .fin (a != b) 0 0
  | .fin a m e, .fin b n g =>
    if n = 0 then (if m = 0 then .nan else .inf (a != b))
    else
      let k := n.log2 + 64
      let x := m * 2 ^ k
      .fin (a != b) (2 * (x / n) + (if x % n = 0 then 0 else 1)) (e - g - k - 1)

/-- The square root, with a lowest bit for what lies beyond it; −0 gives −0, a negative value a NaN. -/
def FVal.sqrt : FVal → FVal
  | .nan => .nan
  | .inf neg => if neg then .nan else .inf false
  | .fin neg m e =>
    if m = 0 then .fin neg 0 0
    else if neg then .nan
    else
      let k : Nat := 64 + (e.toNat + e.natAbs) % 2 + (if e % 2 = 0 then 0 else 1)
      let k := if (e - k) % 2 = 0 then k else k + 1
      let x := m * 2 ^ k
      let r := isqrt x
      .fin false (2 * r + (if r * r = x then 0 else 1)) ((e - k) / 2 - 1)

/-- Whether x < y for values that are no NaN; the zeros are equal. -/
def FVal.lt : FVal → FVal → Bool
  | .nan, _ => false
  | _, .nan => false
  | .inf a, .inf b => a && !b
  | .inf a, .fin _ _ _ => a
  | .fin _ _ _, .inf b => !b
  | .fin a m e, .fin b n g =>
    let q := min e g
    decide (signed a m * 2 ^ (e - q).toNat < signed b n * 2 ^ (g - q).toNat)

/-- Whether a value is a NaN. -/
def FVal.isNaN : FVal → Bool
  | .nan => true
  | _ => false

/-- Whether x = y; the zeros are equal, a NaN equals nothing. -/
def FVal.eq (x y : FVal) : Bool := !x.isNaN && !y.isNaN && !x.lt y && !y.lt x

/-- Round a value to an integer under a mode (R232); a NaN has none. -/
def FVal.toIntRM (rm : RM) : FVal → Option Int
  | .nan => none
  | .inf _ => none
  | .fin neg m e =>
    if 0 ≤ e then some (signed neg m * 2 ^ (min e 512).toNat)
    else some (signed neg (roundShift rm neg m (min (-e) 4096).toNat))

/-- A value converted to a signed integer of `n` bits: NaN gives 0, infinities the bounds (R232). -/
def FVal.toSigned (n : Nat) (rm : RM) (v : FVal) : BitVec n :=
  match v with
  | .nan => 0
  | .inf neg => if neg then sats n (-(2 ^ n : Int)) else sats n (2 ^ n)
  | _ => match v.toIntRM rm with | some x => sats n x | none => 0
/-- A value converted to an unsigned integer of `n` bits (R232). -/
def FVal.toUnsigned (n : Nat) (rm : RM) (v : FVal) : BitVec n :=
  match v with
  | .nan => 0
  | .inf neg => if neg then 0 else satu n (2 ^ n)
  | _ => match v.toIntRM rm with | some x => satu n x | none => 0

/-- An integer as an exact value. -/
def FVal.ofInt (x : Int) : FVal := .fin (decide (x < 0)) x.natAbs 0

/-- The lesser or greater of two values for a minimum or maximum: −0 is less than +0, and a NaN operand gives a NaN
(R92); the result is one of the operands. -/
def FVal.minMax (mx : Bool) (x y : FVal) : FVal :=
  if x.isNaN || y.isNaN then .nan
  else if x.lt y then (if mx then y else x)
  else if y.lt x then (if mx then x else y)
  else
    match x with
    | .fin n _ _ => if n then (if mx then y else x) else (if mx then x else y)
    | _ => x

/-- RM of a format word (R223). -/
def fmtRM (fmt : BitVec 16) : RM := fmt.extractLsb' 0 2
/-- FTZ of a format word (R223). -/
def fmtFTZ (fmt : BitVec 16) : Bool := fmt.getLsbD 2

/-- Whether FMT may hold the value: no rsv bit, no reserved code (R223). -/
def goodFmt (v : BitVec 16) : Bool :=
  v.extractLsb' 3 4 == 0 && decide (v.extractLsb' 13 3 ≤ 5) && decide (v.extractLsb' 10 3 ≤ 5) &&
    decide (v.extractLsb' 8 2 ≤ 1)

/-! ### Tapered formats (R229, R230) -/

/-- The length of the run of equal bits from bit `i` of `b` down, up to `fuel` bits. -/
def runLength (b : Nat) (top : Bool) : Nat → Nat
  | 0 => 0
  | i + 1 => if b.testBit i = top then 1 + runLength b top i else 0

/-- The value of a tapered code of `n` bits; the sign-only code is NaR, which reads as a NaN (R229). -/
def tfdecode (n c : Nat) : FVal :=
  let c := c % 2 ^ n
  if c = 0 then .fin false 0 0
  else if c = 2 ^ (n - 1) then .nan
  else
    let neg := decide (2 ^ (n - 1) < c)
    let c := if neg then 2 ^ n - c else c
    let b := c % 2 ^ (n - 1)
    let top := b.testBit (n - 2)
    let k := runLength b top (n - 1)
    let r : Int := if top then Int.ofNat k - 1 else -(Int.ofNat k)
    let len := n - 2 - k
    let rest := b % 2 ^ len
    let e := if len = 0 then 0 else rest / 2 ^ (len - 1)
    let fl := len - 1
    let f := if len = 0 then 0 else rest % 2 ^ fl
    .fin neg (2 ^ fl + f) (2 * r + Int.ofNat e - Int.ofNat fl)

/-- The bits of a run of `r` + 1 ones and a 0, or −`r` zeros and a 1. -/
def regime (r : Int) : Nat × Nat :=
  if 0 ≤ r then ((2 ^ (r.toNat + 1) - 1) * 2, r.toNat + 2) else (1, r.natAbs + 1)

/-- The tapered code of `n` bits of an exact value (R230): nearest on the bit string, ties to the even code. -/
def tfencode (n : Nat) : FVal → Nat
  | .nan => 2 ^ (n - 1)
  | .inf _ => 2 ^ (n - 1)
  | .fin neg m e =>
    if m = 0 then 0
    else
      let top : Int := Int.ofNat m.log2 + e
      let lim : Int := 2 * (Int.ofNat n - 2)
      let pow := decide (m = 2 ^ m.log2)
      let c : Nat :=
        if top ≥ lim then 2 ^ (n - 1) - 1
        else if top < -lim || (decide (top = -lim) && pow) then 1
        else
          let r : Int := top.fdiv 2
          let ex := (top - 2 * r).toNat
          -- the bit string: regime, exponent bit, fraction bits
          let (rb, rl) := regime r
          let fl := m.log2
          let bitsAll := (rb * 2 + ex) * 2 ^ fl + (m - 2 ^ fl)
          let len := rl + 1 + fl
          let pad := if len < n + 1 then n + 1 - len else 0
          let all := bitsAll * 2 ^ pad
          let len := len + pad
          roundShift 0 false all (len - (n - 1))
      if neg then 2 ^ n - c else c

/-! ### Types of Table 9 -/

/-- The IEEE format of a type code. -/
def fmtOfTyp (t : BitVec 5) : FFmt :=
  match t.toNat with
  | 0x0A => f16
  | 0x0B => bf16
  | _ => f32

/-- Bits of an element of a type. -/
def typWidth (t : BitVec 5) : Nat :=
  match t.toNat with
  | 0x01 | 0x05 | 0x0C | 0x0D => 8
  | 0x02 | 0x06 | 0x0A | 0x0B => 16
  | 0x04 | 0x08 => 64
  | _ => 32

/-- Whether a type is a signed integer. -/
def typSigned (t : BitVec 5) : Bool := decide (1 ≤ t.toNat) && decide (t.toNat ≤ 4)

/-- FP32 bits rounded RNE with subnormals kept (R92, R238, R385). -/
def f32rne (v : FVal) : Word32 := BitVec.ofNat 32 (fround f32 0 false v)

/-- The FP32 sum of R92, R238 and R385: RNE, subnormals kept. -/
def f32add (x y : Word32) : Word32 := f32rne (FVal.add 0 (fdecode f32 x.toNat) (fdecode f32 y.toNat))
/-- The FP32 minimum or maximum of R92 and R385. -/
def f32minMax (mx : Bool) (x y : Word32) : Word32 := f32rne (FVal.minMax mx (fdecode f32 x.toNat) (fdecode f32 y.toNat))

/-- The new value of an atomic operation (R385, Table 4) on an element of `t`, from old `o`, operand `x`, compare `c`;
integers are taken in the element's width. -/
def aopNew (aop : Nat) (t : BitVec 5) (o x c : Word) : Word :=
  let w := typWidth t
  let cut (v : Word) : Word := if w = 64 then v else (v.setWidth 32).setWidth 64
  let sx (v : Word) : Word := if w = 64 then v else (v.setWidth 32).signExtend 64
  let fp := t == 0x09
  let o := cut o
  let x := cut x
  match aop with
  | 1 => if fp then (f32add (o.setWidth 32) (x.setWidth 32)).setWidth 64 else cut (o + x)
  | 2 => if fp then (f32minMax false (o.setWidth 32) (x.setWidth 32)).setWidth 64
         else if typSigned t then cut (minS (sx o) (sx x)) else minN o x
  | 3 => if fp then (f32minMax true (o.setWidth 32) (x.setWidth 32)).setWidth 64
         else if typSigned t then cut (maxS (sx o) (sx x)) else maxN o x
  | 4 => o &&& x
  | 5 => o ||| x
  | 6 => o ^^^ x
  | 7 => x
  | _ => if o = cut c then x else o

/-- Whether an atomic writes its location: all but a failing compare-and-swap (R300, R386). -/
def aopWrites (aop : Nat) (t : BitVec 5) (o c : Word) : Bool :=
  let cut (v : Word) : Word := if typWidth t = 64 then v else (v.setWidth 32).setWidth 64
  aop != 8 || cut o == cut c

/-- What an element adds to a fixed-point accumulator (R106). -/
inductive FxTerm where
  | nan
  | inf
  | val (q : Int)
  deriving DecidableEq, Repr

/-- An element in units of 2^EXP, rounded to an integer under RNE (R106); an FP32 subnormal keeps its value. -/
def fx128Term (exp : BitVec 16) (int32 : Bool) (x : Word32) : FxTerm :=
  match (if int32 then FVal.ofInt x.toInt else fdecode f32 x.toNat) with
  | .nan => .nan
  | .inf _ => .inf
  | .fin neg m e =>
    let k := e - exp.toInt
    if 0 ≤ k then .val (signed neg m * 2 ^ (min k 512).toNat) else .val (signed neg (roundShift 0 neg m (min (-k) 4096).toNat))

/-- The fixed-point accumulator as FP32 (R236): RNE, subnormals kept, the marker gives a NaN. -/
def fx2f32 (a : Int) (exp : Int) : Word32 :=
  if a = -(2 ^ 127) then 0x7FC00000
  else f32rne (.fin (decide (a < 0)) a.natAbs exp)

end Sys2Proof.Machine
end

