-- ==== Sys2Proof/Machine/Memory.lean ====
section
/-!
DEFINITION. Main memory as the base dies perform it (R34 to R49): where an address lies, the live map, the error log,
memory loss, and one read and one write that every agent's access ends in. Then the Lens (R56 to R61), the L1 (R51 to
R55) and the ports (R36).
-/
namespace Sys2Proof.Machine

/-! ### Placement (R34, R35) -/

/-- The stack of a PA. -/
def stackOf (pa : Nat) : Nat := pa / 4096 % 12
/-- The local offset of a PA in its stack. -/
def localOff (pa : Nat) : Nat := pa / 49152 * 4096 + pa % 4096
/-- The 2 MiB region of a PA. -/
def regionOf (pa : Nat) : Nat := pa / 2097152
/-- The channel of a PA: under channel parity, the data position of its row skips the row's parity channel (log 9). -/
def chanOf (parity : Bool) (pa : Nat) : Nat :=
  let p := localOff pa / 256
  if parity then
    let row := p / 30
    let k := p % 30
    let i := k % 15
    k / 15 * 16 + (if i < row % 16 then i else i + 1)
  else p % 32

/-- Who makes an access at a base die, as the error log names it (R49): the port's die, the job, the origin, and the
waves that take a memory loss with their own reply. -/
structure Origin where
  src  : Nat
  job  : Nat
  orig : Nat
  uids : List Nat := []
  deriving DecidableEq, Repr

/-- The host as an origin. -/
def Origin.host : Origin := { src := 0, job := 0, orig := 1 }

/-! ### The error log (R49) -/

/-- Offset of word `w` of log entry `n`. -/
def logReg (n w : Nat) : Nat := 0x800 + n % 64 * 0x20 + w * 8

/-- Log an event of a kind at a PA: a repeat of the newest unconsumed entry counts there, a full ring counts it lost. -/
def State.logEvent (s : State) (kind pa : Nat) (key : BitVec 10) (o : Origin) : State :=
  let tail := (s.reg 0x438).toNat
  let head := (s.reg 0x440).toNat
  let parity := (s.reg 0x428).getLsbD 5
  let atom := pa / 64 % 2 ^ 46
  let prev := tail - 1
  if tail ≠ head ∧ bits (s.reg (logReg prev 1)) 63 56 = kind ∧ bits (s.reg (logReg prev 0)) 51 6 = atom then
    s.setReg (logReg prev 3) (BitVec.ofNat 64 (min 65535 ((s.reg (logReg prev 3)).toNat + 1)))
  else if tail = head + 64 then s.bump 0x448
  else
    let own := decide (o.orig = 0 ∨ o.orig = 2 ∨ o.orig = 3)
    let s := s.setReg (logReg tail 0) (BitVec.ofNat 64 (atom * 64))
    let s := s.setReg (logReg tail 1) (BitVec.ofNat 64
      (kind * 2 ^ 56 + stackOf pa * 2 ^ 52 + chanOf parity pa * 2 ^ 47 + key.toNat * 2 ^ 37 +
        (if own then o.src * 2 ^ 35 + o.job * 2 ^ 25 else 0) + o.orig * 2 ^ 22))
    let s := s.setReg (logReg tail 2) (BitVec.ofNat 64 (s.clk.toNat % 2 ^ 32))
    let s := s.setReg (logReg tail 3) 0
    s.setReg 0x438 (BitVec.ofNat 64 (tail + 1))

/-! ### The live map (R44) and memory loss (R43, R213) -/

/-- The live-map entry of a region. -/
def State.liveEntry (s : State) (region : Nat) : LiveEntry := (s.ctl.live.get? region).getD ⟨false, 0, false⟩

/-- How an access is decided by the live map (Table 5). -/
def State.liveStatus (s : State) (pa : Nat) (key : BitVec 10) : Status :=
  let e := s.liveEntry (regionOf pa)
  if e.ret then .retired else if !e.live then .notLive else if e.key ≠ key then .keyMismatch else .ok

/-- MEMLOSS for every wave of the job's gangs, resident or absent, but those that take it with their reply (R213). -/
def State.memLoss (s : State) (job : Nat) (but : List Nat) : State :=
  let hit (i : WaveId) : Bool := i.job == job && !but.contains i.uid
  { s with
    waves := s.waves.mapAll (fun _ w =>
      if hit w.ident then { w with work := { w.work with pending := w.work.pending ++ [⟨0x07, 0⟩] } } else w)
    away := s.away.mapAll (fun _ a => if hit a.ident then { a with memloss := true } else a) }

/-- The jobs that own a region: those whose JOBKEY is its key; for slot 0, the job whose access found the error. A host
access charges none. -/
def State.owners (s : State) (key : BitVec 10) (o : Origin) : List Nat :=
  if o.orig = 1 then []
  else if key = 0 then [o.job]
  else (List.range 1024).filter (fun j =>
    decide (s.jobState j = 1 ∨ s.jobState j = 2) && decide (bits (s.reg (jobReg j 0x08)) 9 0 = key.toNat))

/-- An uncorrectable error at an atom (R43): the region is retired, it is logged, the machine check is raised, and the
owning job loses memory. -/
def State.uncorrectable (s : State) (pa : Nat) (key : BitVec 10) (o : Origin) : State :=
  let r := regionOf pa
  let e := s.liveEntry r
  let s := { s with ctl := { s.ctl with live := s.ctl.live.set r { e with ret := true } } }
  let s := (s.logEvent 3 pa key o).raiseMcheck
  (s.owners e.key o).foldl (fun s j => s.memLoss j o.uids) s

/-- A corrected error at an atom (R42): counted and logged; a second within 2^20 clocks is logged as repeated and
raises the machine check (log 10). -/
def State.correctedErr (s : State) (pa : Nat) (key : BitVec 10) (o : Origin) : State :=
  let atom := pa / 64
  let last := s.ctl.corrAt.get atom
  let again := decide (last ≠ 0 ∧ s.clk.toNat + 1 ≤ last.toNat + 2 ^ 20)
  let s := (s.bump 0x430).logEvent (if again then 2 else 1) pa key o
  let s := { s with ctl := { s.ctl with corrAt := s.ctl.corrAt.set atom (s.clk + 1) } }
  if again then s.raiseMcheck else s

/-- The errors that an access can meet: those it brings, and those that atoms hold from before. -/
def State.errors (s : State) (ecc : Ecc) : Ecc := ecc ++ s.ctl.flaws
/-- Errors have come into some atoms; an access meets them later (log 91). -/
def State.addFlaws (s : State) (ecc : Ecc) : State := { s with ctl := { s.ctl with flaws := s.ctl.flaws ++ ecc } }
/-- The errors of the atoms of some bytes are gone: met, or overwritten. -/
def State.dropFlaws (s : State) (pa n : Nat) : State :=
  { s with ctl := { s.ctl with flaws := s.ctl.flaws.filter (fun e =>
      decide (e.atom < pa / 64) || decide ((pa + n - 1) / 64 < e.atom)) } }
/-- Errors of atoms that an access does not touch stay in those atoms. -/
def Ecc.beyond (ecc : Ecc) (pa n : Nat) : Ecc :=
  ecc.filter (fun e => decide (e.atom < pa / 64) || decide ((pa + n - 1) / 64 < e.atom))

/-- What the errors of an access come to, over the `n` bytes at `pa`: whether one is uncorrectable, one corrected. -/
def eccIn (ecc : Ecc) (pa n : Nat) : Bool × Bool :=
  let mine := ecc.filter (fun e => decide (pa / 64 ≤ e.atom) && decide (e.atom ≤ (pa + n - 1) / 64))
  (mine.any (·.uncorrectable), mine.any (fun e => !e.uncorrectable))

/-- The errors a base die finds in the atoms it reads, handled one by one (R42, R43): a corrected atom is rewritten. -/
def State.eccEvents (s : State) (ecc : Ecc) (pa n : Nat) (key : BitVec 10) (o : Origin) : State :=
  ((ecc.filter (fun e => decide (pa / 64 ≤ e.atom) && decide (e.atom ≤ (pa + n - 1) / 64))).foldl
    (fun s e => if e.uncorrectable then s.uncorrectable (e.atom * 64) key o else s.correctedErr (e.atom * 64) key o)
    s).dropFlaws pa n

/-- The status of a read of live memory, with the errors it met. -/
def eccStatus (ecc : Ecc) (pa n : Nat) : Status :=
  let (bad, cor) := eccIn ecc pa n
  if bad then .poison else if cor then .corrected else .ok

/-- Whether a reply's data are those of memory. -/
def Status.good : Status → Bool
  | .ok | .corrected => true
  | _ => false

/-- The trap cause of a failed reply (R43, R297, R379). -/
def Status.cause : Status → Option (BitVec 8)
  | .poison | .retired => some 0x07
  | .link => some 0x27
  | _ => none

/-- The code of a reply status (Table 3). -/
def Status.code : Status → Nat
  | .ok => 0 | .corrected => 1 | .notLive => 2 | .keyMismatch => 3 | .poison => 4 | .retired => 5 | .badPkt => 6 | .link => 7

/-- A read at a base die of `n` bytes within one region (R40 to R44): the status, the bytes, zeros where it is not
performed. DESIGN CHOICE (log 70): Table 3 of R39 says which entries of a GRD read zero; of an RD of two atoms the whole
reply is zeros if one of them meets an uncorrectable error. -/
def State.dieRead (s : State) (pa n : Nat) (key : BitVec 10) (ecc : Ecc) (o : Origin) : Status × List Byte × State :=
  match s.liveStatus pa key with
  | .ok =>
    let ecc := s.errors ecc
    let st := eccStatus ecc pa n
    (st, if st.good then s.mem.read pa n else List.replicate n 0, s.eccEvents ecc pa n key o)
  | .retired => (.retired, List.replicate n 0, s.logEvent 4 pa key o)
  | st => (st, List.replicate n 0, s)

/-- What a write that the live map refuses leaves behind (Table 5, R26, R43). -/
def State.writeRefused (s : State) (st : Status) (pa : Nat) (key : BitVec 10) (o : Origin) : State :=
  match st with
  | .retired => s.logEvent 4 pa key o
  | .notLive => (s.logEvent 5 pa key o).raiseMcheck
  | .keyMismatch => s.raiseMcheck
  | _ => s

/-- All `n` bytes enabled. -/
def allBytes (n : Nat) : Nat := 2 ^ n - 1

/-- Whether a write of `n` bytes at `pa` with a mask reads an atom before it writes it: under channel parity always, under
check-bit ECC if it writes a part of the atom (Table 4 of R41). -/
def State.readsAtom (s : State) (pa n mask atom : Nat) : Bool :=
  (s.reg 0x428).getLsbD 5 ||
    !(decide (pa ≤ atom * 64) && decide (atom * 64 + 64 ≤ pa + n) &&
      mask / 2 ^ (atom * 64 - pa) % 2 ^ 64 == allBytes 64)

/-- A write's mask without the atoms in which an uncorrectable error was met: their cycles write nothing (R41). -/
def maskWithout (ecc : Ecc) (pa n mask : Nat) : Nat :=
  (List.range n).foldl (fun m i =>
    if ecc.any (fun e => e.uncorrectable && e.atom == (pa + i) / 64) && mask.testBit i then m - 2 ^ i else m) mask

/-- A write at a base die of bytes within one region; `ecc` holds what its read of an atom meets (R41): an atom with an
uncorrectable error is not written. -/
def State.dieWrite (s : State) (pa : Nat) (bs : List Byte) (mask : Nat) (key : BitVec 10) (ecc : Ecc) (o : Origin) :
    Status × State :=
  match s.liveStatus pa key with
  | .ok =>
    let n := bs.length
    let ecc := (s.errors ecc).filter (fun e => s.readsAtom pa n mask e.atom)
    let st := eccStatus ecc pa n
    let s := s.eccEvents ecc pa n key o
    (st, { s with mem := s.mem.writeMasked pa (if st.good then mask else maskWithout ecc pa n mask) bs })
  | st => (st, s.writeRefused st pa key o)

/-- The size in bytes of an atomic's element (R385). -/
def aopSize (t : BitVec 5) : Nat := typWidth t / 8

/-- An atomic at memory (R40, R44, R385): the old value, 0 where it is not performed. -/
def State.dieAtomic (s : State) (pa : Nat) (aop : Nat) (t : BitVec 5) (x c : Word) (key : BitVec 10) (ecc : Ecc)
    (o : Origin) : Status × Word × State :=
  let n := aopSize t
  match s.liveStatus pa key with
  | .ok =>
    let ecc := s.errors ecc
    let st := eccStatus ecc pa n
    let s := s.eccEvents ecc pa n key o
    if st.good then
      let old := BitVec.ofNat 64 (natOfBytes (s.mem.read pa n))
      let m := if aopWrites aop t old c then s.mem.write pa (bytesOfNat n (aopNew aop t old x c).toNat) else s.mem
      (st, old, { s with mem := m })
    else (st, 0, s)
  | st => (st, 0, s.writeRefused st pa key o)

/-! ### The Lens (R56 to R61) -/

/-- Close every open entry for a line, whatever its key or job (R59, R60). -/
def State.closeLine (s : State) (pa : Nat) : State :=
  let line := pa / 128
  let n := (s.net.lens.filter (fun e => e.2.line == line && e.2.isOpen)).length
  let s := { s with net := { s.net with
    lens := s.net.lens.mapAll (fun _ e => if e.line = line then { e with isOpen := false } else e) } }
  if n = 0 then s else s.bump (lensReg (stackOf pa) 0x18) n

/-- Close the entries of every line that `n` bytes touch. -/
def State.closeLines (s : State) (pa n : Nat) : State :=
  (List.range ((pa + n - 1) / 128 - pa / 128 + 1)).foldl (fun s i => s.closeLine ((pa / 128 + i) * 128)) s

/-- Entries of a slice in use (LNOCC). -/
def State.lensUsed (s : State) (slice : Nat) : Nat := (s.net.lens.filter (fun e => e.2.slice == slice)).length

/-! ### The L1 (R51 to R55) -/

/-- Empty the L1 of a core; fills in flight are not installed (R54). -/
def State.emptyL1 (s : State) (core : Nat) : State :=
  let s := s.setCore core { s.core core with l1 := [] }
  { s with net := { s.net with txns := s.net.txns.mapAll (fun _ t =>
      if t.core = core then { t with fill := false } else t) } }

/-- Empty the instruction caches of every core (R239). -/
def State.emptyCode (s : State) : State := { s with cores := s.cores.mapAll (fun _ c => { c with icache := [], lcache := [] }) }

/-- Empty every L1 of the device (R55). -/
def State.emptyL1s (s : State) : State :=
  { s with
    cores := s.cores.mapAll (fun _ c => { c with l1 := [] })
    net := { s.net with txns := s.net.txns.mapAll (fun _ t => { t with fill := false }) } }

/-- Look a line up (R51). -/
def State.l1Find (s : State) (core line : Nat) (key : BitVec 10) (job : Nat) : Option L1Line :=
  (s.core core).l1.find? (fun l => l.line == line && l.key == key && l.job == job)

/-- Install a line (R52). DESIGN CHOICE (log 71): R51 calls associativity and replacement not architectural; the model is
fully associative, holds 2,048 lines, and drops the line that was installed longest ago. -/
def State.l1Fill (s : State) (core line : Nat) (key : BitVec 10) (job : Nat) (bs : List Byte) : State :=
  let c := s.core core
  let rest := c.l1.filter (fun l => !(l.line == line && l.key == key && l.job == job))
  s.setCore core { c with l1 := (⟨line, key, job, BitVec.ofNat 1024 (natOfBytes bs)⟩ :: rest).take 2048 }

/-- Bytes of a line. -/
def lineBytes (d : BitVec 1024) (off n : Nat) : List Byte := bytesOfNat n (d.toNat / 2 ^ (8 * off))

/-- A line with bytes replaced. -/
def lineWrite (d : BitVec 1024) (off : Nat) (bs : List Byte) : BitVec 1024 :=
  BitVec.ofNat 1024 (natOfBytes
    (bytesOfNat off d.toNat ++ bs ++ bytesOfNat (128 - off - bs.length) (d.toNat / 2 ^ (8 * (off + bs.length)))))

/-- A store of the core passes its L1 (R53): the matching copy takes the bytes, other copies of the line leave. -/
def State.l1Store (s : State) (core pa : Nat) (key : BitVec 10) (job : Nat) (bs : List Byte) : State :=
  let c := s.core core
  let keep := c.l1.filter (fun l => l.line != pa / 128 || (l.key == key && l.job == job))
  s.setCore core { c with l1 := keep.map (fun l =>
    if l.line = pa / 128 then { l with data := lineWrite l.data (pa % 128) bs } else l) }

/-- A line leaves the L1 of a core, before an atomic to it is sent (R53). -/
def State.l1Drop (s : State) (core pa : Nat) : State :=
  let c := s.core core
  s.setCore core { c with l1 := c.l1.filter (fun l => l.line != pa / 128) }

/-! ### Requests and ports (R36, R40) -/

/-- A request by number. -/
def State.txn? (s : State) (id : Nat) : Option Txn := s.net.txns.get? id
/-- Set a request. -/
def State.setTxn (s : State) (id : Nat) (t : Txn) : State := { s with net := { s.net with txns := s.net.txns.set id t } }
/-- Remove a request. -/
def State.delTxn (s : State) (id : Nat) : State := { s with net := { s.net with txns := s.net.txns.del id } }

/-- A new number. -/
def State.newId (s : State) : Nat × State := (s.net.nextId, { s with net := { s.net with nextId := s.net.nextId + 1 } })

/-- Whether a request stands at, or is on its way back from, its base die. -/
def Txn.tagged (t : Txn) : Bool := match t.phase with | .sent _ | .performed _ => true | _ => false

/-- The lines a request touches. -/
def Txn.lines (t : Txn) : List Nat :=
  match t.op with
  | .rd => [t.pa / 128]
  | .wr | .wrm | .atm => [t.pa / 128]
  | .grd | .gwr => t.elems.map (fun e => e.pa / 128)

/-- Whether two requests touch one line. -/
def Txn.meets (t u : Txn) : Bool := t.lines.any (u.lines.contains ·)

/-- Tags of a port in use (R36). -/
def State.tagsUsed (s : State) (die stack : Nat) : Nat :=
  (s.net.txns.filter (fun e => e.2.die == die && e.2.stack == stack && e.2.tagged)).length

/-- A request stands in its port's queue. -/
def Txn.queued (t : Txn) : Bool := match t.phase with | .held _ => true | _ => false

/-- Whether a port can't send now: the interface point is being switched, the stack retrains, or no tag is free. -/
def State.portBusy (s : State) (die stack : Nat) : Bool :=
  s.ctl.mpoint.isSome || s.ctl.retrain.contains stack || decide (512 ≤ s.tagsUsed die stack)

/-- Whether an older request `e` of the same core keeps a younger one to the same line from being sent (R138): it may
still be performed after it, since it has not left, or leaves from another port. A gather or scatter packet waits for the
replies of older stores and atomics as well (R382). -/
def Txn.blocks (e t : Txn) : Bool :=
  let packet := (t.op == .grd || t.op == .gwr) && e.op != .rd && e.op != .grd
  match e.phase with
  | .replied | .remote => false
  | .made | .intake _ | .waiting => true
  | .entry _ | .held _ | .sent _ => packet || e.die != t.die
  | .performed _ => packet

/-- Whether a request waits for an older request of its core, by number (R138, R382). -/
def State.mustWait (s : State) (id : Nat) (t : Txn) : Bool :=
  s.net.txns.any (fun e => decide (e.1 < id) && e.2.core == t.core && !e.2.users.isEmpty && e.2.meets t && e.2.blocks t)

/-- The tag that the next request of a port takes (R36). DESIGN CHOICE (log 88): the lowest that is free. -/
def State.freeTag (s : State) (die stack : Nat) : Nat :=
  ((List.range 512).find? (fun n =>
    !s.net.txns.any (fun e => e.2.die == die && e.2.stack == stack && e.2.tagged && e.2.tag == n))).getD 0

/-- Whether requests stand in a port's queue. -/
def State.portQueue (s : State) (die stack : Nat) : Bool :=
  s.net.txns.any (fun e => e.2.die == die && e.2.stack == stack && e.2.queued)

/-- Send a request to its base die under a tag, or hold it at its port behind those that are held there (R36). -/
def State.sendTxn (s : State) (id : Nat) (t : Txn) : State :=
  let (n, s) := s.newId
  if s.portBusy t.die t.stack || s.portQueue t.die t.stack then s.setTxn id { t with phase := .held n }
  else s.setTxn id { t with phase := .sent n, tag := s.freeTag t.die t.stack }

/-- Whether a request of a port that touches some lines, and is sent and performed in one step, may be: the port can send,
none waits there, and none that it has sent for those lines is still to be performed (R36, R40). -/
def State.portClear (s : State) (die stack : Nat) (lines : List Nat) : Bool :=
  !s.portBusy die stack && !s.portQueue die stack &&
    !s.net.txns.any (fun e => e.2.die == die && e.2.stack == stack && e.2.lines.any (lines.contains ·) &&
      (match e.2.phase with | .sent _ => true | _ => false))

/-- The lines that `n` bytes at a PA touch. -/
def linesOf (pa n : Nat) : List Nat := (List.range ((pa + n - 1) / 128 - pa / 128 + 1)).map (fun i => pa / 128 + i)

/-- Whether a die's own ports let it make an access of `n` bytes, which may lie on two stacks, in this step. -/
def State.portsClear (s : State) (die pa n : Nat) : Bool :=
  (linesOf pa n).all (fun l => s.portClear die (stackOf (l * 128)) [l])

/-- The stacks that `n` bytes at a PA lie on: of more than eleven pages of 4 KiB, all twelve (R34). -/
def stacksOf (pa n : Nat) : List Nat :=
  if 45056 < n then List.range 12
  else ((List.range ((pa + n - 1) / 4096 - pa / 4096 + 1)).map (fun i => (pa / 4096 + i) % 12)).eraseDups

/-- Whether a die's ports let accesses of a long range of bytes be sent and performed in one step: none of the stacks that it
touches is held or full there, and no request for it that a port has sent is still to be performed (R36, R40, R47, R48). -/
def State.rangeClear (s : State) (die pa n : Nat) : Bool :=
  (stacksOf pa n).all (fun k => !s.portBusy die k && !s.portQueue die k) &&
    !s.net.txns.any (fun e => e.2.die == die && (match e.2.phase with | .sent _ => true | _ => false) &&
      e.2.lines.any (fun l => decide (pa / 128 ≤ l) && decide (l ≤ (pa + n - 1) / 128)))

/-- Whether a base die may perform a request: it is the oldest sent from its port for its lines (R40). DESIGN CHOICE
(log 72): R40 orders the requests for one atom; the model keeps the order of one port's requests for one line. -/
def State.mayPerform (s : State) (t : Txn) (n : Nat) : Bool :=
  !(s.net.txns.any (fun e => e.2.die == t.die && e.2.stack == t.stack && e.2.meets t &&
    (match e.2.phase with | .sent m => decide (m < n) | _ => false)))

end Sys2Proof.Machine
end

