-- ==== Sys2Proof/Machine/Translate.lean ====
section
/-!
DEFINITION. Address windows (R7 to R11), page tables and walks (R14 to R18), the translation caches (R19 to R21) and
fault records (R31, R32).
-/
namespace Sys2Proof.Machine

/-! ### Windows (R7, R8) -/

/-- The windows of Table 1. -/
inductive Window where
  | global | peer | host | scratch | queues | light | mgmt | none
  deriving DecidableEq, Repr

/-- The window of an address, by VA<56:52>; none for a reserved window, or with any of bits 63:57 set. -/
def windowOf (va : Nat) : Window :=
  if 2 ^ 57 ≤ va then .none
  else
    match va / 2 ^ 52 with
    | 0x10 | 0x11 => .peer
    | 0x12 | 0x13 => .host
    | 0x14 => .scratch
    | 0x15 => .queues
    | 0x16 => .light
    | 0x17 => .mgmt
    | n => if n < 16 then .global else .none

/-- Whether a window is translated. -/
def Window.translated : Window → Bool
  | .global | .peer | .host => true
  | _ => false

/-- How far the untranslated windows of Table 1 reach. -/
def Window.extent : Window → Nat
  | .queues => 0x40000
  | .light => 0x10000
  | .mgmt => 0x1000000
  | _ => 2 ^ 52

/-- Whether an access of `n` bytes keeps within one window and its range (R7, R8). -/
def inWindow (va n : Nat) : Bool :=
  let w := windowOf va
  w != .none && windowOf (va + n - 1) == w &&
    (match w with
     | .queues | .light | .mgmt => decide (va % 2 ^ 52 + n ≤ w.extent)
     | _ => true)

/-! ### Page tables (R14 to R17) -/

/-- How a walk ends: with a leaf, its level and its place, or with a cause, a level and an entry; or it waits for its
slice or a port. -/
inductive WalkEnd where
  | leaf (leaf : Word) (level pa : Nat)
  | fail (cause : BitVec 8) (level : Nat) (entry : Word)
  | wait
  deriving DecidableEq, Repr

/-- The lowest VA bit of a level's index (Table 3). -/
def levelShift : Nat → Nat
  | 0 => 48 | 1 => 39 | 2 => 30 | 3 => 21 | _ => 16
/-- The index of a level. -/
def levelIndex (level va : Nat) : Nat := va / 2 ^ levelShift level % (if level = 4 then 32 else 512)
/-- VA of a page of a level, divided by its size. -/
def pageOf (level va : Nat) : Nat := va / 2 ^ levelShift level

/-- The permissions an access needs (R17): 0 read, 1 write, 2 both, 3 fetch, 4 prefetch. -/
def permitted (leaf : Word) (acc : BitVec 3) : Bool :=
  let x := leaf.getLsbD 63
  let w := leaf.getLsbD 62
  let r := leaf.getLsbD 61
  match acc.toNat with
  | 0 => r
  | 1 => w
  | 2 => r && w
  | 3 => x
  | _ => r

/-- The peer device an address names, VA<52:43> (R10). -/
def peerOf (va : Nat) : Nat := va / 2 ^ 43 % 1024
/-- This device's own number (R405). -/
def State.ownNumber (s : State) : Nat := bits (s.reg 0x450) 9 0
/-- Whether the fabric reaches the peer an address names: the device itself is looped back (R10). -/
def State.hasRoute (s : State) (va : Nat) : Bool :=
  decide (peerOf va = s.ownNumber) || s.ctl.routes.contains (peerOf va)

/-- The checks of R16 on a table pointer at a level. -/
def badPointer (level : Nat) (e : Word) : Bool :=
  bits e 63 52 != 0 || bits e 7 2 != 0 || level == 4 || (level != 3 && bits e 11 8 != 0)

/-- The checks of R16, steps 2 and 3, on a leaf at a level. -/
def State.badLeaf (s : State) (level va : Nat) (e : Word) : Bool :=
  let tgt := bits e 50 49
  let frame := bits e 47 12 * 65536
  bits e 48 48 != 0 || bits e 11 8 != 0 || bits e 5 2 != 0 || decide (level < 2) ||
    frame % 2 ^ levelShift level != 0 || tgt == 3 ||
    (match windowOf va with
     | .global => tgt != 0 || decide (s.populated ≤ frame)
     | .peer => tgt != 1
     | _ => tgt != 2 || bits e 60 51 != 0)

/-- What follows once the leaf is well formed: steps 4 to 6 of R16. -/
def State.leafEnd (s : State) (job level va pa : Nat) (acc : BitVec 3) (e : Word) : WalkEnd :=
  let key := bits e 60 51
  if key ≠ 0 ∧ key ≠ bits (s.reg (jobReg job 0x08)) 9 0 then .fail 0x25 level e
  else if !permitted e acc then .fail 0x23 level e
  else if windowOf va = .peer ∧ !s.hasRoute va then .fail 0x27 level e
  else .leaf e level pa

/-- The origin of a walker's update of a leaf (R49). -/
def walkOrigin (cluster job : Nat) : Origin := { src := dieOfCluster cluster, job := job, orig := 2 }

/-- A walk with another value. -/
def State.setWalk (s : State) (id : Nat) (w : Walk) : State :=
  { s with xlate := { s.xlate with walks := s.xlate.walks.set id w } }

/-- A walker asks for the line of an entry, with key slot 0 (R18): a request that goes to the slice of its stack and may merge
there (R56). -/
def State.askWalk (s : State) (id : Nat) (w : Walk) (pa : Nat) : State :=
  let (n, s) := s.newId
  let t : Txn :=
    { op := .rd, phase := .made, users := [], core := w.cluster * 4, slot := 0, die := stackOf pa / 3, stack := stackOf pa,
      job := w.job, key := 0, pa := pa / 128 * 128, va := w.va, cnt := 2, elems := [], esz := 0, data := [], bmask := 0,
      aop := 0, typ := 0, acc := 0, agent := 5, status := .ok, pmask := [], mism := [], fill := false, seen := 0,
      owner := true, tag := 0, own := false, orig := 2 }
  (s.setTxn n t).setWalk id { w with req := some n }

/-- Whether an invalidation in progress makes a walk discard what a request of number `r` reads: it was made before, and the
job's translations go (R22). -/
def State.staleWalk (s : State) (job r : Nat) : Bool :=
  match s.ctl.tlbCmd with
  | some (v, _, n) => decide (r < n) && (bits v 1 0 == 1 || job == bits v 21 12)
  | none => false

/-- Read one table entry through the Lens (R18): once the reply to the walk's request for its line is there, the entry, and
whether it lay in a region of another key (R26); until then none, with the request made. A stale reply is discarded. -/
def State.walkRead (s : State) (id pa : Nat) : Option (Word × Nat) × State :=
  match s.xlate.walks.get? id with
  | none => (none, s)
  | some w =>
    match w.req with
    | none => (none, s.askWalk id w pa)
    | some r =>
      match s.txn? r with
      | none => (none, s.askWalk id w pa)
      | some t =>
        if t.phase ≠ .replied then (none, s)
        else
          let w := { w with req := none }
          let s := (s.delTxn r).setWalk id w
          if s.staleWalk w.job r || t.pa / 128 != pa / 128 then (none, s.askWalk id w pa)
          else
            let v := if t.status.good then wordOfBytes ((t.data.drop (pa % 128)).take 8) else 0
            (some (v, if t.status = .keyMismatch then 1 else 0), s)

/-- Walk on from a level (R16), `n` levels to go: the table is at `base`. Pointers come from, and go to, the cluster's
pointer cache (R19). With it comes the number of reads that met a region of another key (R26). -/
def State.walkFrom (s : State) (id : Nat) (w : Walk) : Nat → Nat → WalkEnd × Nat × State
  | 0, _ => (.fail 0x24 4 0, 0, s)
  | n + 1, base =>
    let level := 4 - n
    let pa := base + levelIndex level w.va * 8
    let cached := (s.cluster w.cluster).ptr.find? (fun p => p.job == w.job && p.level == level && p.index == pageOf level w.va)
    match (match cached with | some p => (some (p.entry, 0), s) | none => s.walkRead id pa) with
    | (none, s) => (.wait, 0, s)
    | (some (e, m), s) =>
      if !e.getLsbD 0 then (.fail 0x22 level e, m, s)
      else if !e.getLsbD 1 then
        if badPointer level e then (.fail 0x24 level e, m, s)
        else
          let c := s.cluster w.cluster
          let s := if cached.isSome then s else
            s.setCluster w.cluster { c with ptr := (⟨w.job, level, pageOf level w.va, e⟩ :: c.ptr).take 512 }
          let (r, k, s) := State.walkFrom s id w n (bits e 51 8 * 256)
          (r, m + k, s)
      else if s.badLeaf level w.va e then (.fail 0x24 level e, m, s)
      else (s.leafEnd w.job level w.va pa w.acc e, m, s)

/-- A walk from the root (R14, R23), as far as the pointers that its cluster holds and the reply to its request take it. -/
def State.walk (s : State) (id : Nat) (w : Walk) : WalkEnd × Nat × State :=
  let root := s.reg (jobReg w.job 0)
  if !root.getLsbD 0 then (.fail 0x22 7 0, 0, s)
  else s.walkFrom id w 5 (bits root 51 12 * 4096)

/-- Whether the walker's port lets an update of a leaf be sent and performed in this step (R36, R40). -/
def State.leafClear (s : State) (cluster pa : Nat) : Bool := s.portsClear (dieOfCluster cluster) pa 8

/-- Set bits of a leaf by an atomic OR of the walker, with its crossing notice (R18, R60). -/
def State.leafOr (s : State) (cluster job pa : Nat) (bit : Word) : State :=
  let (_, _, s) := s.dieAtomic pa 5 0x08 bit 0 0 [] (walkOrigin cluster job)
  s.closeLine pa

/-- The bit A of a leaf, and the bit D. -/
def leafA : Word := 0x80
def leafD : Word := 0x40

/-- Install a translation in the cluster's TLB, and in the TLBs of cores of the cluster (R19). -/
def State.tlbInstall (s : State) (cluster : Nat) (cores : List Nat) (e : TlbEntry) : State :=
  let put (l : List TlbEntry) (n : Nat) : List TlbEntry :=
    (e :: l.filter (fun x => !(x.job == e.job && x.level == e.level && x.page == e.page))).take n
  let c := s.cluster cluster
  let s := s.setCluster cluster { c with tlb := put c.tlb 8192 }
  cores.foldl (fun s n => s.setCore n { s.core n with tlb := put (s.core n).tlb 256 }) s

/-- The translation a core holds for an address, in its own TLB or its cluster's. -/
def State.tlbFind (s : State) (core job va : Nat) : Option TlbEntry :=
  let hit (e : TlbEntry) : Bool := e.job == job && e.page == pageOf e.level va
  match (s.core core).tlb.find? hit with
  | some e => some e
  | none => (s.cluster (clusterOf core)).tlb.find? hit

/-- The physical address of a leaf of a level for an address. -/
def leafAddr (level va : Nat) (e : Word) : Nat := bits e 47 12 * 65536 + va % 2 ^ levelShift level

/-- A translation: a PA with the leaf, a fault, or a miss that a walk must serve. -/
inductive Xlat where
  | ok (pa : Nat) (leaf : Word)
  | fault (cause : BitVec 8) (level : Nat) (entry : Word)
  | miss
  deriving DecidableEq, Repr

/-- Translate an address for a core (R17, R19, R23); `fails` are the walks that failed for the instruction. -/
def State.translate (s : State) (core job va : Nat) (acc : BitVec 3) (fails : List WalkFail) : Xlat :=
  if !(s.reg (jobReg job 0)).getLsbD 0 then .fault 0x22 7 0
  else
    match s.tlbFind core job va with
    | some e =>
      if !permitted e.leaf acc then .fault 0x23 e.level e.leaf
      else if windowOf va = .peer ∧ !s.hasRoute va then .fault 0x27 e.level e.leaf
      else .ok (leafAddr e.level va e.leaf) e.leaf
    | none =>
      match fails.find? (fun f => f.page == va / 65536) with
      | some f => .fault f.cause f.level f.entry
      | none => .miss

/-- Queue a miss of an access of a core, or attach it to a walk of the same job and page (R20): `join` adds the one that waits.
A full miss queue takes none, and the core stops issuing translated accesses until an entry frees. `slot`: that of the wave
whose access it is. -/
def State.queueMiss (s : State) (core slot job va : Nat) (acc : BitVec 3) (join : Walk → Walk) : State :=
  let cl := clusterOf core
  let same (w : Walk) : Bool := w.cluster == cl && w.job == job && w.va / 65536 == va / 65536
  match s.xlate.walks.first? (fun _ w => same w) with
  | some (k, w) => s.setWalk k (join w)
  | none =>
    if 1088 ≤ (s.xlate.walks.filter (fun e => e.2.cluster == cl)).length then
      s.setCore core { s.core core with noMiss := true }
    else
      let (n, s) := s.newId
      s.setWalk n (join ⟨cl, job, va, acc, [], [], core, slot, none⟩)

/-- A stream of a wave waits for a walk. -/
def Walk.addUser (uid : Nat) (w : Walk) : Walk :=
  if w.users.contains uid then w else { w with users := w.users ++ [uid] }
/-- Another waits for it. -/
def Walk.addAsker (a : Asker) (w : Walk) : Walk :=
  if w.askers.contains a then w else { w with askers := w.askers ++ [a] }

/-- A miss of a wave; `lane`: it is the lane stream that waits. -/
def State.addMiss (s : State) (core slot job va : Nat) (acc : BitVec 3) (wave : Nat) (lane : Bool) : State :=
  s.queueMiss core slot job va acc (Walk.addUser (wave * 2 + (if lane then 1 else 0)))

/-- Whether a write through the translation of an address may go on: D is set, or its update can be performed now (R18). -/
def State.dirtyClear (s : State) (core job va : Nat) : Bool :=
  match s.tlbFind core job va with
  | none => true
  | some e => e.leaf.getLsbD 6 || s.leafClear (clusterOf core) e.leafPA

/-- The first write through a translation whose cached D is 0 sets D in the leaf, before the write (R18). -/
def State.markDirty (s : State) (core job va : Nat) : State :=
  match s.tlbFind core job va with
  | none => s
  | some e =>
    if e.leaf.getLsbD 6 then s
    else
      let cl := clusterOf core
      let s := s.leafOr cl job e.leafPA leafD
      let upd (l : List TlbEntry) : List TlbEntry :=
        l.map (fun x => if x.leafPA = e.leafPA ∧ x.job = job then { x with leaf := x.leaf ||| leafD } else x)
      let c := s.cluster cl
      let s := s.setCluster cl { c with tlb := upd c.tlb }
      s.setCore core { s.core core with tlb := upd (s.core core).tlb }

/-! ### Fault records (R26, R31, R32) -/

/-- A record to write: address, cause, level and entry of one page. -/
structure PageFault where
  va    : Nat
  cause : BitVec 8
  level : Nat
  entry : Word
  deriving DecidableEq, Repr

/-- Who a record is about (R32). -/
structure RecordOf where
  die    : Nat
  core   : Nat
  slot   : Nat
  job    : Nat
  agent  : BitVec 3
  acc    : BitVec 2
  absent : Bool := false
  deriving DecidableEq, Repr

/-- The effective ring size of a job (R23). -/
def ringSize (v : Word) : Nat :=
  let n := v.toNat % 2 ^ 32
  if 128 ≤ n ∧ n ≤ 1048576 ∧ n &&& (n - 1) = 0 then n else 128

/-- Whether a job's fault ring has room (R32). -/
def State.ringRoom (s : State) (job : Nat) : Nat :=
  let used := ((s.reg (jobReg job 0x28)).toNat + 2 ^ 32 - (s.reg (jobReg job 0x20)).toNat) % 2 ^ 32
  ringSize (s.reg (jobReg job 0x18)) - used

/-- Where the record after `i` more goes (R32). -/
def State.ringPlace (s : State) (job i : Nat) : Nat :=
  bits (s.reg (jobReg job 0x10)) 51 12 * 4096 +
    ((s.reg (jobReg job 0x28)).toNat + i) % ringSize (s.reg (jobReg job 0x18)) * 32

/-- How many of `n` records a die can write to a job's ring now: as far as there is room, no record of the job is held, and
the ports take them (R32, R36). -/
def State.ringTakes (s : State) (die job n : Nat) : Nat :=
  if s.xlate.held.any (fun r => r.job == job) then 0
  else ((List.range (min n (s.ringRoom job))).takeWhile (fun i => s.portsClear die (s.ringPlace job i) 32)).length

/-- Write a record's words into its job's ring (R32). -/
def State.ringWrite (s : State) (die job : Nat) (ws : List Word) : State :=
  let tail := (s.reg (jobReg job 0x28)).toNat
  let at_ := s.ringPlace job 0
  let (_, s) := s.dieWrite at_ (bytesOfWords ws) (allBytes 32) 0 [] { src := die, job := job, orig := 0 }
  let s := s.closeLine at_
  (s.setReg (jobReg job 0x28) (BitVec.ofNat 64 ((tail + 1) % 2 ^ 32))).raiseFault

/-- Records that wait in a die's overflow buffer. -/
def State.heldCount (s : State) (die : Nat) : Nat := (s.xlate.held.filter (fun r => r.die == die)).length

/-- Whether `n` records of a job can be taken now: in the ring as far as it takes them, the rest in the die's buffer of 64
(R32). -/
def State.canRecord (s : State) (die job n : Nat) : Bool :=
  decide (s.heldCount die + n ≤ 64 + s.ringTakes die job n)

/-- Write one record, or hold it (R32). -/
def State.putRecord (s : State) (die job : Nat) (ws : List Word) : State :=
  if s.ringTakes die job 1 = 0 then
    { s with xlate := { s.xlate with held := s.xlate.held ++ [⟨die, job, ws⟩] } }
  else s.ringWrite die job ws

/-- The words of a record (Table 12). -/
def recordWords (r : RecordOf) (f : PageFault) (seq : BitVec 16) (group : Nat) (clk : Word) : List Word :=
  [BitVec.ofNat 64 (f.va % 2 ^ 57),
   BitVec.ofNat 64 (seq.toNat * 2 ^ 48 + f.cause.toNat * 2 ^ 40 + r.job % 1024 * 2 ^ 30 + r.acc.toNat * 2 ^ 28 +
     r.agent.toNat * 2 ^ 25 + (if r.absent then 2 ^ 24 else 0) + group % 256 * 2 ^ 16 + f.level % 8 * 2 ^ 13),
   BitVec.ofNat 64 (r.core % 256 * 2 ^ 40 + r.slot % 128 * 2 ^ 32 + clk.toNat % 2 ^ 32),
   f.entry]

/-- Write the records of one trap or engine fault, with consecutive SEQ values; the SEQ of the first (R31, R32). -/
def State.recordGroup (s : State) (fs : List (RecordOf × PageFault)) : BitVec 16 × State :=
  let first := s.xlate.seq
  let n := fs.length
  (first, fs.foldl (fun s f =>
    let q := s.xlate.seq
    let s := { s with xlate := { s.xlate with seq := q + 1 } }
    s.putRecord f.1.die f.1.job (recordWords f.1 f.2 q n s.clk)) s)

/-- The same where one access of one agent is the subject of all. -/
def State.record (s : State) (r : RecordOf) (fs : List PageFault) : BitVec 16 × State :=
  s.recordGroup (fs.map (fun f => (r, f)))

/-- One record for each distinct pair of 64 KiB page and cause, in order of the first that has it (R31). -/
def distinctFaults : List PageFault → List PageFault
  | [] => []
  | f :: fs =>
    f :: (distinctFaults fs).filter (fun g => !(g.va / 65536 == f.va / 65536 && g.cause == f.cause))

/-- The records of a walker's reads that met a region of another key (R26): they name the wave whose access started the
walk. -/
def State.walkRecords (s : State) (core slot job va n : Nat) : State :=
  let r : RecordOf := { die := dieOf core, core := core, slot := slot, job := job, agent := 5, acc := 0 }
  if n = 0 then s else (s.record r (List.replicate n ⟨va, 0x26, 7, 0⟩)).2

/-- The failed walks whose result an asker has still to take. -/
def State.failsOf (s : State) (a : Asker) : List WalkFail :=
  (s.xlate.failed.filter (fun e => e.1 == a)).map (fun e => e.2)
/-- An asker has taken the results of its failed walks. -/
def State.forget (s : State) (a : Asker) : State :=
  { s with xlate := { s.xlate with failed := s.xlate.failed.filter (fun e => e.1 != a) } }

/-- Translate for an engine, the operand fetcher, the task unit or another that is no stream of a wave (R20, R21): they
translate a page when they reach it. A miss waits as a wave's does; so does a write whose update of D waits for its port.
`write`: a write follows, so D is set first (R18). -/
def State.xlateNow (s : State) (core slot job va : Nat) (acc : BitVec 3) (write : Bool) (by_ : Asker) : Xlat × State :=
  if (s.core core).noMiss then (.miss, s)
  else
    match s.translate core job va acc (s.failsOf by_) with
    | .miss => (.miss, s.queueMiss core slot job va acc (Walk.addAsker by_))
    | .ok pa e =>
      if write && !s.dirtyClear core job va then (.miss, s)
      else (.ok pa e, if write then s.markDirty core job va else s)
    | x => (x, s)

/-- The record that a check of windows asks for (R7, R8, R30, R31): ADDRWINDOW and WINDOWPRIV are translation causes, decided
with no table entry. DEDUCED (log 95). -/
def windowFault (cause : BitVec 8) (va : Nat) : Option PageFault :=
  if cause = 0x20 ∨ cause = 0x21 then some ⟨va, cause, 7, 0⟩ else none

end Sys2Proof.Machine
end

