-- ==== Sys2Proof/Machine/Fetch.lean ====
section
/-!
DEFINITION. Fetching (R239): the word at an SPC, the lane block directory and the words of a block, through the core's
instruction caches; and a wave as it starts (R165, R186).
-/
namespace Sys2Proof.Machine

/-! ### A wave at launch (R165, R186, R69, R91, R342) -/

/-- The launch mask: lanes 0 to `n` − 1. -/
def firstLanes (n : Nat) : Mask := BitVec.ofNat 128 (2 ^ n - 1)

/-- The reset value of FMT (R223). -/
def fmtReset : BitVec 16 := 0x4800

/-- Trap registers before the first trap (R199, R202). -/
def TrapRegs.none : TrapRegs := ⟨false, 0, 0, 0, 0, 0, [], 0, [], [], Option.none⟩

/-- A wave as it starts at `entry` with the argument `arg`, `vgrp` register groups and a launch mask (R186). -/
def Wave.launch (i : WaveId) (vgrp : Nat) (mask : Mask) (entry arg : Word) : Wave where
  ident := i
  vcount := vgrp * 8
  scl := Sparse.set [] 1 arg
  vec := []
  pred := []
  frags := [(0, ⟨mask, entry, fmtReset, [], none, .run⟩)]
  groups := []
  stack := []
  trap := TrapRegs.none
  lane := ⟨[], [], 0, 0⟩
  work := ⟨[], [], [], [], [], 0x0001000001000000, 65536, [], 0, []⟩
  cv := ⟨0, 0, false, 1, 256, 0, 0, 0, 0⟩
  mat := ⟨0, 0, 0, 0, false, false, 0, []⟩
  spec := []
  hist := 0
  sched := ⟨0, 0, 0, false, false, [], false, none, 0, none, [], [], [], [], [], false, none⟩

/-! ### Reads that a wave waits for in place -/

/-- Who reads: a wave's scalar stream. -/
structure Reader where
  core : Nat
  slot : Nat
  w    : Wave
  deriving DecidableEq, Repr

/-- How such a read ends: with bytes, with a wait, or with a trap. -/
inductive Got (α : Type) where
  | ok (a : α)
  | wait
  | trap (t : Trap)
  deriving DecidableEq, Repr

/-- The record that a wave's access writes (R31). -/
def Reader.recordOf (r : Reader) (agent : BitVec 3) (acc : BitVec 2) : RecordOf :=
  { die := dieOf r.core, core := r.core, slot := r.slot, job := r.w.ident.job, agent := agent, acc := acc }

/-- Translate for the scalar stream of a wave (R17 to R20, R31): a fault writes its record and traps, unless no record
can be taken (R32) or a BRM of the wave is unresolved (R177, R179). -/
def State.waveXlate (s : State) (r : Reader) (va : Nat) (acc : BitVec 3) (agent : BitVec 3 := 1)
    (lane : Bool := false) : Got (Nat × Word) × State :=
  if (s.core r.core).noMiss then (.wait, s)
  else
  match s.translate r.core r.w.ident.job va acc (if lane then r.w.sched.lfails else r.w.sched.fails) with
  | .ok pa leaf =>
    if (acc = 1 ∨ acc = 2) ∧ !s.dirtyClear r.core r.w.ident.job va then (.wait, s) else (.ok (pa, leaf), s)
  | .miss => (.wait, s.addMiss r.core r.slot r.w.ident.job va acc r.w.ident.uid lane)
  | .fault cause level entry =>
    if (if lane then r.w.canResolve else !r.w.spec.isEmpty) || !s.canRecord (dieOf r.core) r.w.ident.job 1 then (.wait, s)
    else
      let (seq, s) := s.record (r.recordOf agent (acc.setWidth 2)) [⟨va, cause, level, entry⟩]
      (.trap { cause := cause, tval := BitVec.ofNat 64 va, h2 := seq.setWidth 64 }, s)

/-- The trap of an access of the scalar stream that fails a check, with its record where the cause is a translation cause (R30,
R31, R296); none: it waits for room for the record (R32), or for the resolution of a BRM of the wave (R177, R179). -/
def State.accessTrap (s : State) (r : Reader) (va : Nat) (cause : BitVec 8) (acc : BitVec 2) : Option Trap × State :=
  let t : Trap := { cause := cause, tval := BitVec.ofNat 64 va }
  if !r.w.spec.isEmpty then (none, s)
  else
    match windowFault cause va with
    | none => (some t, s)
    | some f =>
      if !s.canRecord (dieOf r.core) r.w.ident.job 1 then (none, s)
      else
        let (seq, s) := s.record (r.recordOf 1 acc) [f]
        (some { t with h2 := seq.setWidth 64 }, s)

/-- The status that a read of `n` bytes will have. -/
def State.readStatus (s : State) (pa n : Nat) (key : BitVec 10) : Status :=
  match s.liveStatus pa key with
  | .ok => eccStatus (s.errors []) pa n
  | st => st

/-- Read `n` bytes that lie in one page for the scalar stream of a wave (R239), from the port of its die: an uncorrectable
error or a retired region traps (R43), a foreign key reads zeros and writes a record (R26), a region that is not live reads
zeros. -/
def State.waveRead (s : State) (r : Reader) (va n : Nat) (acc : BitVec 3) : Got (List Byte) × State :=
  match s.waveXlate r va acc with
  | (.wait, s) => (.wait, s)
  | (.trap t, s) => (.trap t, s)
  | (.ok (pa, leaf), s) =>
    let key : BitVec 10 := BitVec.ofNat 10 (bits leaf 60 51)
    let lost := (s.readStatus pa n key).cause.isSome
    if !s.portsClear (dieOf r.core) pa n || (lost && !r.w.spec.isEmpty) ||
        (s.readStatus pa n key == .keyMismatch && !s.canRecord (dieOf r.core) r.w.ident.job 1) then (.wait, s)
    else
      let (st, bs, s) := s.dieRead pa n key []
        { src := dieOf r.core, job := r.w.ident.job, orig := 0, uids := [r.w.ident.uid] }
      if lost then (.trap { cause := 0x07, tval := BitVec.ofNat 64 va }, s)
      else if st = .keyMismatch then (.ok bs, (s.record (r.recordOf 5 (acc.setWidth 2)) [⟨va, 0x26, 7, 0⟩]).2)
      else (.ok bs, s)

/-- The words that a core's scalar instruction cache, or its lane instruction cache, holds (R239). -/
def Core.codes (c : Core) (lane : Bool) : List CodeWord := if lane then c.lcache else c.icache

/-- The code word that an instruction cache holds for an access (R239). -/
def Core.code? (c : Core) (lane : Bool) (at_ : Nat) (key : BitVec 10) (job : Nat) : Option Word32 :=
  ((c.codes lane).find? (fun e => e.at_ == at_ && e.key == key && e.job == job)).map (·.word)

/-- A fetched word enters its cache, of 64 KiB or of 96 KiB (R239). -/
def Core.keepCode (c : Core) (lane : Bool) (w : CodeWord) : Core :=
  if lane then { c with lcache := (w :: c.lcache).take 24576 } else { c with icache := (w :: c.icache).take 16384 }

/-- Fetch one 32-bit code word of the scalar stream or of a lane block (R239): from the core's instruction cache if it
holds the word. A word that a store has changed since it was fetched is the old one or the new one; what no store has
changed stays the word that was fetched. -/
def State.fetchWord (s : State) (r : Reader) (va : Nat) (lane : Bool := false) : Got Word32 × State :=
  if windowOf va ≠ .global then
    (match s.accessTrap r va 0x20 3 with
     | (some t, s) => (.trap t, s)
     | (none, s) => (.wait, s))
  else
    match s.waveXlate r va 3 with
    | (.wait, s) => (.wait, s)
    | (.trap t, s) => (.trap t, s)
    | (.ok (pa, leaf), s) =>
      let key : BitVec 10 := BitVec.ofNat 10 (bits leaf 60 51)
      match (s.core r.core).code? lane (pa / 4) key r.w.ident.job with
      | some held =>
        let now : Word32 :=
          if (s.readStatus pa 4 key).good then BitVec.ofNat 32 (natOfBytes (s.mem.read pa 4)) else held
        if held = now then (.ok held, s)
        else
          let (v, s) := s.draw
          (.ok (if v.getLsbD 0 then now else held), s)
      | none =>
        match s.waveRead r va 4 3 with
        | (.wait, s) => (.wait, s)
        | (.trap t, s) => (.trap t, s)
        | (.ok bs, s) =>
          let w : Word32 := BitVec.ofNat 32 (natOfBytes bs)
          (.ok w, s.setCore r.core ((s.core r.core).keepCode lane ⟨pa / 4, key, r.w.ident.job, w⟩))

/-- The instruction at a scalar PC (R239, R240): an SX form takes the next word as its literal; what is no instruction
traps as ILLEGAL (R245). -/
def State.fetchInstr (s : State) (r : Reader) (spc : Word) : Got Instr × State :=
  let va := spc.toNat
  match s.fetchWord r va with
  | (.wait, s) => (.wait, s)
  | (.trap t, s) => (.trap t, s)
  | (.ok w, s) =>
    let bad (v : Word) : Got Instr := .trap { cause := 0x01, tval := v }
    match decodeScalar w 0 with
    | .error .reservedOpcode => (bad (w.setWidth 64), s)
    | .error _ =>
      if hasLiteral w then
        match s.fetchWord r (va + 4) with
        | (.wait, s) => (.wait, s)
        | (.trap t, s) => (.trap t, s)
        | (.ok l, s) => (bad (l ++ w), s)
      else (bad (w.setWidth 64), s)
    | .ok i =>
      if hasLiteral w then
        match s.fetchWord r (va + 4) with
        | (.wait, s) => (.wait, s)
        | (.trap t, s) => (.trap t, s)
        | (.ok l, s) =>
          match decodeScalar w l with
          | .ok i => (.ok i, s)
          | .error _ => (bad (l ++ w), s)
      else (.ok i, s)

end Sys2Proof.Machine
end

