-- ==== Sys2Proof/Machine/Control.lean ====
section
/-!
DEFINITION. Control transfer (R301 to R307), fragments (R165 to R169), ISSUE (R161) and predicted masks (R173 to R180).
-/
namespace Sys2Proof.Machine

/-! ### Targets (R301) -/

/-- The target of an SJ or SB form. -/
def branchTarget {n : Nat} (spc : Word) (off : BitVec n) : Word := spc + (off.signExtend 64) * 4

/-- Whether a target lies in the global window. -/
def inGlobal (t : Word) : Bool := decide (t.toNat < windowEnd.toNat)

/-- The fragment goes to an address, in a wave changed by the instruction. -/
def Ctx.goto (c : Ctx) (s : State) (w : Wave) (t : Word) : State :=
  c.put s { w with frags := w.frags.update c.frag (fun f => { f with spc := t, wait := .run }) }

/-- A transfer to a target, or ADDRWINDOW (R301). -/
def Ctx.jump (c : Ctx) (s : State) (w : Wave) (t : Word) : Result :=
  if inGlobal t then .next (c.goto s w t) else trapOr s c { cause := 0x20, tval := t }

/-- BR: SPC takes the target (R302). -/
def execBr (o : BitVec 24) (s : State) : Result :=
  scalarOp (.br o) s (fun c => c.jump s c.w (branchTarget c.f.spc o))

/-- CALL: s191 of the bank takes SPC + 4, then SPC the target (R302). -/
def execCall (o : BitVec 24) (s : State) : Result :=
  scalarOp (.call o) s (fun c => c.jump s (c.w.putReg c.frag 191 (c.f.spc + 4)) (branchTarget c.f.spc o))

/-- BRC: branch when a condition on a register holds (R303). -/
def execBrc (a : BitVec 8) (k : BitVec 4) (o : BitVec 10) (s : State) : Result :=
  scalarOp (.brc a k o) s (fun c =>
    c.jump s c.w (if brcTaken k (c.get a) then branchTarget c.f.spc o else c.f.spc + 4))

/-- A jump to a register's address (R306): out of the window ADDRWINDOW, unaligned ALIGN. -/
def Ctx.jumpReg (c : Ctx) (s : State) (t : Word) : Result :=
  if inGlobal t && t.extractLsb' 0 2 != 0 then trapOr s c { cause := 0x04, tval := t } else c.jump s c.w t

/-- JMPI (R306). -/
def execJmpi (a : BitVec 8) (s : State) : Result := scalarOp (.jmpi a) s (fun c => c.jumpReg s (c.get a))

/-- RET: to s191 of the bank (R306). -/
def execRet (s : State) : Result := scalarOp .ret s (fun c => c.jumpReg s (c.get 191))

/-! ### Splitting (R166) -/

/-- BRM's effect for the taken lanes `t` (R166): the fragment goes one way, or splits; none if it would need a stack
entry beyond the sixteenth. In supervisor mode a split takes the stack whether or not a slot is free (R304). -/
def Wave.branchMask (w : Wave) (n : Nat) (f : Frag) (t : Mask) (tok : BitVec 4) (target : Word) : Option Wave :=
  let rest := f.emask &&& ~~~t
  let fall := f.spc + 4
  if rest = 0 then some (w.setFrag n { f with spc := target, wait := .run })
  else if t = 0 then some (w.setFrag n { f with spc := fall, wait := .run })
  else
    let taken := decide (popCount rest ≤ popCount t)
    let (big, bpc, small, spc) : Mask × Word × Mask × Word :=
      if taken then (t, target, rest, fall) else (rest, fall, t, target)
    let w' := w.setFrag n { f with emask := big, spc := bpc, wait := .run }
    match (if w.trap.sup then none else (List.range 4).find? (fun k => !w.frags.has k)) with
    | some k =>
      let g := (match w.groups.get? tok.toNat with | some g => g | none => ⟨[], f.fmt⟩)
      some { (w'.inherit n k).setFrag k { f with emask := small, spc := spc, wait := .run, rcv := none } with
        groups := w.groups.set tok.toNat { g with slots := addSlots g.slots [n, k] } }
    | none =>
      if w.stack.length < 16 then
        some { w' with stack := ⟨n, tok, small, spc, f.bank, f.fmt, false, w.trap.sup⟩ :: w.stack }
      else none

/-! ### RCV (R167 to R169) -/

/-- Whether every live fragment waits at an RCV (R169). -/
def Wave.rcvStuck (w : Wave) : Bool := !w.frags.isEmpty && w.frags.all (fun e => e.2.rcv.isSome)

/-- Put a wave back after a change of its fragments: ready groups merge, and RCVDEADLOCK is raised at the lowest slot
if every fragment waits (R169). -/
def State.settle (s : State) (core slot : Nat) (w : Wave) : State :=
  let (s, w) := mergeReady s w
  let s := s.setWave core slot w
  if w.rcvStuck then
    match w.frags with
    | (n, f) :: _ => s.takeTrap core slot n { cause := 0x62, tval := (f.rcv.getD 0).setWidth 64 }
    | [] => s
  else s

/-- The loop of R167 over the stack entries of a fragment and a token, newest first: the fragment, the stack, and
whether it goes off to run a minority. -/
def rcvLoop (owner : Nat) (tok : BitVec 4) : Nat → Frag → List StackEntry → Frag × List StackEntry × Bool
  | 0, f, st => (f, st, false)
  | k + 1, f, st =>
    match st.find? (fun e => e.owner == owner && e.token == tok) with
    | none => (f, st, false)
    | some e =>
      let i := st.findIdx (fun e => e.owner == owner && e.token == tok)
      if e.resume then
        rcvLoop owner tok k { f with emask := f.emask ||| e.emask, bank := e.bank, fmt := e.fmt, spc := e.spc }
          (st.eraseIdx i)
      else
        ({ f with emask := e.emask, spc := e.spc, bank := e.bank, fmt := e.fmt },
          listSet st i { e with emask := f.emask, spc := f.spc, bank := f.bank, resume := true }, true)

/-- RCV (R167, R305). -/
def execRcv (t : BitVec 4) (s : State) : Result :=
  scalarOp (.rcv t) s (fun c =>
    let (f, st, minority) := rcvLoop c.frag t 17 c.f c.w.stack
    let w := { (if st = c.w.stack then c.w else c.w.fenceNow) with stack := st }
    if minority then .next (c.put s (w.setFrag c.frag { f with wait := .run }))
    else
      match w.groups.get? t.toNat with
      | some g =>
        if g.slots.contains c.frag then
          .next (s.settle c.core c.slot (w.setFrag c.frag { f with rcv := some t, wait := .run }))
        else .next (c.put s (w.setFrag c.frag { f with spc := f.spc + 4, wait := .run }))
      | none => .next (c.put s (w.setFrag c.frag { f with spc := f.spc + 4, wait := .run })))

/-! ### The predictor (R174, R175) -/

/-- The lanes of a mask where a predicate, or its complement, holds (R166). -/
def Wave.tested (w : Wave) (neg : BitVec 1) (p : BitVec 4) (m : Mask) : Mask :=
  let v := w.pmask p.toNat
  (if neg = 1 then ~~~v else v) &&& m

/-- The index of a BRM's predictor entry. -/
def predIndex (spc : Word) (hist : BitVec 10) : Nat := (BitVec.ofNat 10 (bits spc 11 2) ^^^ hist).toNat
/-- The tag of a BRM. -/
def predTag (spc : Word) : BitVec 8 := BitVec.ofNat 8 (bits spc 19 12)
/-- The entry at an index; every entry is TAG 0, CONF 0 after reset. -/
def Core.predEntry (c : Core) (i : Nat) : PredEntry := (c.pred.get? i).getD ⟨0, 0, 0, 0⟩

/-- The update of an entry when a BRM resolves (R175). -/
def PredEntry.learn (e : PredEntry) (tag : BitVec 8) (o : BitVec 2 × Mask) : PredEntry :=
  if e.tag = tag then
    if (e.kind, e.mask) = o then { e with conf := min (e.conf + 1) 3 }
    else if 0 < e.conf then { e with conf := e.conf - 1 }
    else { e with kind := o.1, mask := o.2, conf := 1 }
  else if e.conf ≤ 1 then ⟨tag, o.1, 1, o.2⟩
  else { e with conf := e.conf - 1 }

/-- A BRM resolves: its entry is updated. -/
def State.learn (s : State) (core i : Nat) (spc : Word) (o : BitVec 2 × Mask) : State :=
  let c := s.core core
  s.setCore core { c with pred := c.pred.set i ((c.predEntry i).learn (predTag spc) o) }

/-- What a BRM with a pending predicate predicts under its hint (Table 5); none: it waits. -/
def Core.predict (c : Core) (i : Nat) (tag : BitVec 8) (hint : BitVec 2) : Option (BitVec 2 × Mask) :=
  let e := c.predEntry i
  if hint = 3 then none
  else if e.tag = tag ∧ 1 ≤ e.conf then some (e.kind, e.mask)
  else match hint.toNat with
    | 1 => some (0, 0)
    | 2 => some (1, 0)
    | _ => none

/-! ### Predicted paths (R176, R178) -/

/-- The slots that follow the taken and the fall-through path once R166 has acted for lanes `t` on fragment `n`, whose mask
was `m`; a minority that takes the stack has none. -/
def pathSlots (frags : Tab Frag) (n : Nat) (m t : Mask) : Option Nat × Option Nat :=
  let rest := m &&& ~~~t
  if rest = 0 then (some n, none)
  else if t = 0 then (none, some n)
  else
    let free := (List.range 4).find? (fun k => !(frags.has k))
    if popCount rest ≤ popCount t then (some n, free) else (free, some n)

/-- A slot of a predicted path and the slot that goes on for it: the BRMs it lay on the paths of, and its mask. -/
structure Kept where
  ids  : List Nat
  was  : Nat
  now  : Nat
  mask : Mask
  deriving DecidableEq, Repr

/-- A true fragment goes on where the speculative fragment of its path stands. -/
def Frag.follow (f was : Frag) : Frag := { f with spc := was.spc, bank := was.bank, fmt := was.fmt, wait := was.wait }

/-- The sides of a BRM that has acted again: each new slot follows the old slot of its side, which stands at the BRM of
`rest` that it met, or where wave `old` has it. -/
def Wave.keepSides (old : Wave) (rest : List SpecRec) (ids : List Nat) (sides : List (Option Nat × Option Nat)) (w : Wave) :
    List Kept × Wave :=
  sides.foldl (fun (a : List Kept × Wave) p =>
    match p with
    | (some o, some n) =>
      let at_ := (match rest.find? (fun z => z.slot == o && z.deps == ids) with
        | some z => some z.frag
        | none => old.frags.get? o)
      (match at_ with
       | none => a
       | some g =>
         let fs := a.2.frags.update n (fun f => f.follow g)
         (a.1 ++ [⟨ids, o, n, ((fs.get? n).map (·.emask)).getD 0⟩], { a.2 with frags := fs }))
    | _ => a) ([], w)

/-- A BRM predicts in fragment `n` of wave `w`, on the paths `ids`: none if it would split and no slot is free (R175). What
had followed it in wave `old` goes on. -/
def Wave.spread (old : Wave) (y : SpecRec) (rest : List SpecRec) (ids : List Nat) (n : Nat) (w : Wave) :
    Option (List Kept × Wave) :=
  match w.frags.get? n with
  | none => none
  | some f =>
    let t := predicted y.kind y.mask f.emask
    if t ≠ 0 ∧ t ≠ f.emask ∧ w.frags.length = 4 then none
    else
      match w.branchMask n f t y.token (branchTarget f.spc y.off) with
      | none => none
      | some w' =>
        let (nt, nf) := pathSlots w.frags n f.emask t
        let slots (x : Wave) : List Nat := ((x.groups.get? y.token.toNat).map (·.slots)).getD []
        let fresh := (slots w').filter (fun k => !(slots w).contains k)
        let (ks, w'') := old.keepSides rest (ids ++ [y.id]) [(y.taken, nt), (y.fall, nf)] w'
        let y' := { y with slot := n, frag := f, taken := nt, fall := nf, fresh := fresh, deps := ids }
        some (ks, { w'' with spec := w''.spec ++ [y'] })

/-- The unresolved BRMs predict again, oldest first, in a wave whose fragments have changed: one whose path is gone, or that
finds no slot, is discarded. -/
def Wave.respread (old : Wave) : List SpecRec → List Kept → Wave → List Kept × Wave
  | [], ks, w => (ks, w)
  | y :: ys, ks, w =>
    let place := if y.deps.isEmpty then some y.slot
      else (ks.find? (fun k => k.ids == y.deps && k.was == y.slot)).map (·.now)
    match place.bind (fun n => old.spread y ys y.deps n w) with
    | none => Wave.respread old ys ks w
    | some (new, w') => Wave.respread old ys (ks ++ new) w'

/-- The lane work after a change of predicted paths: an instruction of a kept slot stays, for the mask and slot that it has
now. From number `seq` on the count of live fragments is the true one. `heirs`: what follows an instruction now. -/
def keepLanes (q : List LaneItem) (ks : List Kept) (seq more less : Nat) (heirs : LaneItem → List Nat) : List LaneItem :=
  q.filterMap (fun i =>
    let i := { i with heirs := heirs i, nfrag := if seq ≤ i.seq then i.nfrag + more - less else i.nfrag }
    if i.spec.isEmpty then some i
    else (ks.find? (fun k => k.ids == i.spec && k.was == i.frag)).map (fun k => { i with frag := k.now, emask := k.mask }))

/-- The wave with the lane work and the waiting BRMs of `old` that are kept, and HIST from `h` over the classes `l`. -/
def Wave.rejoin (w old : Wave) (ks : List Kept) (seq : Nat) (h : BitVec 10) (l : List (Option Nat × BitVec 2)) : Wave :=
  let slot (n : Nat) : Option Nat := (match old.pathOf n with
    | [] => some n
    | ids => (ks.find? (fun k => k.ids == ids && k.was == n)).map (·.now))
  let heirs (i : LaneItem) : List Nat := (match (w.lane.queue ++ w.lane.rest).find? (fun j => j.seq == i.seq) with
    | some j => j.heirs
    | none => i.heirs.filterMap slot)
  let keep (q : List LaneItem) : List LaneItem := keepLanes q ks seq w.frags.length old.frags.length heirs
  let live (l : List (Option Nat × BitVec 2)) : List (Option Nat × BitVec 2) :=
    l.filter (fun e => e.1.all (fun i => w.spec.any (fun y => y.id == i)))
  let mark (e : Nat × Nat) : Option (Nat × Nat) := (slot e.1).map (fun n => (n, e.2))
  { w with
    sched := { w.sched with brm := old.sched.brm.filterMap mark }
    lane := { old.lane with queue := keep old.lane.queue, rest := keep old.lane.rest }
    hist := histRun w.spec h l
    spec := w.spec.map (fun y => { y with
      hist := histRun w.spec h (l.takeWhile (fun e => e.1 != some y.id)), later := live y.later }) }

/-- A class shifts into HIST: of a BRM that predicts by its number. -/
def Wave.shiftHist (w : Wave) (id : Option Nat) (k : BitVec 2) : Wave :=
  { w with hist := histShift w.hist k, spec := w.spec.map (fun y => { y with later := y.later ++ [(id, k)] }) }

/-- A BRM that knows its predicate, of a fragment on no predicted path (R166). A split takes the lowest slot that is free
without the predictions, which make way for it (R173). -/
def Wave.branchAside (w : Wave) (n : Nat) (f : Frag) (t : Mask) (tok : BitVec 4) (target : Word) : Option Wave :=
  match w.spec with
  | [] => w.branchMask n f t tok target
  | r :: _ =>
    if t = 0 ∨ t = f.emask then w.branchMask n f t tok target
    else
      match w.undoSpec.branchMask n f t tok target with
      | none => none
      | some b =>
        let (ks, b') := w.respread w.spec [] b
        let gone := (w.spec.filter (fun y => !b'.spec.any (fun z => z.id == y.id))).map (fun y => (y.slot, y.index))
        let x := b'.rejoin w ks w.lane.next r.hist ((some r.id, 0) :: r.later)
        some { x with sched := { x.sched with brm := gone ++ x.sched.brm } }

/-! ### BRM (R166, R175 to R177, R304) -/

/-- The predictor index of a fragment's BRM: the one that its lookup formed, while it waits; else from HIST as it stands
(R175). -/
def Wave.brmIndex (w : Wave) (n : Nat) (f : Frag) : Nat :=
  match w.sched.brm.find? (fun e => e.1 == n) with
  | some e => e.2
  | none => predIndex f.spc w.hist

/-- A BRM that knows its predicate: the transfers of R301, then R166. DESIGN CHOICE (log 77): one that traps performs nothing,
and so does not update its predictor entry. -/
def Ctx.brm (c : Ctx) (s : State) (i : Instr) (t : Mask) (tok : BitVec 4) (target : Word) : Result :=
  let o := outcome t c.f.emask
  if t ≠ 0 ∧ !inGlobal target then trapOr s c { cause := 0x20, tval := target }
  else if t ≠ c.f.emask ∧ !inGlobal (c.f.spc + 4) then trapOr s c { cause := 0x20, tval := c.f.spc + 4 }
  else
    match c.w.branchAside c.frag c.f t tok target with
    | none => trapOr s c { cause := 0x61, tval := instrTval i }
    | some w =>
      let s := s.learn c.core (c.w.brmIndex c.frag c.f) c.f.spc o
      let w := w.shiftHist none o.1
      .next (c.put s { w with sched := { w.sched with brm := w.sched.brm.filter (·.1 != c.frag) } })

/-- A BRM that waits for its predicate: counted once (Table 7). -/
def Ctx.brmWait (c : Ctx) (s : State) : Result :=
  if c.w.sched.brm.any (fun e => e.1 == c.frag) then .next s
  else
    let s := (s.bump (pmReg c.core 0)).bump (pmReg c.core 8)
    .next (c.put s { c.w with sched := { c.w.sched with brm := (c.frag, predIndex c.f.spc c.w.hist) :: c.w.sched.brm } })

/-- A BRM that predicts: a checkpoint is taken, and the fragments follow the prediction (R176). -/
def Ctx.brmPredict (c : Ctx) (s : State) (n : BitVec 1) (p tok : BitVec 4) (o : BitVec 10) (k : BitVec 2 × Mask) : Result :=
  let id := if c.w.spec.any (fun r => r.id == 0) then 1 else 0
  let r : SpecRec := ⟨id, c.frag, n, p, tok, o, k.1, k.2, false, c.w.hist, predIndex c.f.spc c.w.hist, c.f, c.w.scl,
    c.w.lane.next, none, none, [], [], []⟩
  match c.w.spread r [] (c.w.pathOf c.frag) c.frag (c.w.shiftHist (some id) r.class_) with
  | none => c.brmWait s
  | some (_, w) => .next (c.put (s.bump (pmReg c.core 0)) w)

/-- BRM (R166, R175, R304). On an unresolved path one whose predicate is ready waits (log 12). -/
def execBrm (n : BitVec 1) (p t : BitVec 4) (h : BitVec 2) (o : BitVec 10) (s : State) : Result :=
  scalarOp (.brm n p t h o) s (fun c =>
    if c.w.predPending p.toNat c.f.emask c.w.lane.next then
      if c.w.trap.sup || decide (2 ≤ c.w.spec.length) || c.w.sched.brm.any (fun e => e.1 == c.frag) then c.brmWait s
      else
        match (s.core c.core).predict (predIndex c.f.spc c.w.hist) (predTag c.f.spc) h with
        | none => c.brmWait s
        | some k => c.brmPredict s n p t o k
    else if !(c.w.pathOf c.frag).isEmpty then .next s
    else c.brm s (.brm n p t h o) (c.w.tested n p c.f.emask) t (branchTarget c.f.spc o))

/-! ### Resolution (R178 to R180) -/

/-- The BRM of a resolved record is known: its number leaves the records and the lane work. -/
def Wave.dropId (w : Wave) (id : Nat) : Wave :=
  let free (q : List LaneItem) : List LaneItem := q.map (fun i => { i with spec := i.spec.erase id })
  { w with
    spec := w.spec.map (fun y => { y with deps := y.deps.erase id })
    lane := { w.lane with queue := free w.lane.queue, rest := free w.lane.rest } }

/-- Resolve the oldest predicted BRM of a wave for its true lanes, `young` being the younger ones (R178): the wave, the
lanes omitted, and the fragments restarted. A path is kept if some fragment followed it, its true fragment has a slot, and
it wrote nothing that the true count of fragments forbids. None: the BRM would need a seventeenth stack entry. -/
def Wave.resolve (w : Wave) (r : SpecRec) (young : List SpecRec) (t : Mask) : Option (Wave × Nat × Nat) :=
  let base := w.undoSpec
  let m := r.frag.emask
  match base.branchMask r.slot r.frag t r.token (branchTarget r.frag.spc r.off) with
  | none => none
  | some b =>
    let (nt, nf) := pathSlots base.frags r.slot m t
    let redo := r.wrote && decide (1 < b.frags.length)
    let (ks, b) := if redo then ([], b) else w.keepSides young [r.id] [(r.taken, nt), (r.fall, nf)] b
    let b := { b with scl := if ks.isEmpty then r.scl else w.scl }
    let fresh := ((nt.toList ++ nf.toList).filter (fun n => !ks.any (fun k => k.now == n))).length
    let old := predicted r.kind r.mask m
    let omitted := (ks.map (fun k =>
      popCount (k.mask &&& ~~~(if some k.was = r.taken then old else m &&& ~~~old)))).foldl (· + ·) 0
    let (ks, b) := w.respread young ks b
    some ((b.rejoin w ks r.seq (histShift r.hist (outcome t m).1) r.later).dropId r.id, omitted, fresh)

/-- The oldest predicted BRM is undone, and the paths that do not depend on it go on. -/
def Wave.undoOldest (w : Wave) (r : SpecRec) (young : List SpecRec) : Wave :=
  let (ks, b) := w.respread young [] w.undoSpec
  b.rejoin w ks r.seq r.hist r.later

/-- A halt that waits for the resolution of the wave's BRMs takes effect (R177, R204): DBGCTL.HALT of its job is set. -/
def State.haltResolved (s : State) (core slot : Nat) : State :=
  match s.wave? core slot with
  | none => s
  | some w =>
    if w.spec.isEmpty && !w.sched.halted && (s.reg (jobReg w.ident.job 0x80)).getLsbD 1 then
      let off := jobReg w.ident.job 0x80
      (((s.setReg off (s.reg off ||| 4)).setWave core slot { w with sched := { w.sched with halted := true } }).park
        w.ident.uid)
    else s

/-- MASK_RESOLUTION: the predicate of the oldest predicted BRM has arrived (R178). The predictor learns, the counters
of Table 7 rise; a BRM that traps, by a transfer out of the window or RCVSTACK, is undone, and traps when its fragment
executes it again with the predicate it now has. -/
def execMaskResolution (core slot : Nat) (s : State) : Result :=
  match s.wave? core slot with
  | none => .next s
  | some w =>
    match w.spec with
    | [] => .next s
    | r :: young =>
      if !w.canResolve then .next s
      else
        let m := r.frag.emask
        let t := w.tested r.neg r.p m
        let hit := decide (t = predicted r.kind r.mask m)
        let counted := s.bump (pmReg core (if hit then 0x10 else 0x18))
        let undo : Result := .next ((counted.settle core slot (w.undoOldest r young)).haltResolved core slot)
        if t ≠ 0 ∧ !inGlobal (branchTarget r.frag.spc r.off) then undo
        else if t ≠ m ∧ !inGlobal (r.frag.spc + 4) then undo
        else
          match w.resolve r young t with
          | none => undo
          | some (w', omitted, fresh) =>
            let s := counted.learn core r.index r.frag.spc (outcome t m)
            let s := if hit then s else (s.bump (pmReg core 0x20) omitted).bump (pmReg core 0x28) fresh
            .next ((s.settle core slot w').haltResolved core slot)

/-! ### ISSUE (R161, R239, R307) -/

/-- LBDIR of a wave's grid (R185). -/
def State.lbdir (s : State) (grid : Nat) : Nat :=
  match s.sched.grids.get? grid with
  | some g => bits (wordAt g.task 2) 56 6 * 64
  | none => 0

/-- Read 32-bit words of a lane block, which needs X (R239). -/
def State.blockWords (s : State) (r : Reader) (va : Nat) : Nat → Got (List Word32) × State
  | 0 => (.ok [], s)
  | n + 1 =>
    match s.fetchWord r va true with
    | (.wait, s) => (.wait, s)
    | (.trap t, s) => (.trap t, s)
    | (.ok w, s) =>
      match State.blockWords s r (va + 4) n with
      | (.wait, s) => (.wait, s)
      | (.trap t, s) => (.trap t, s)
      | (.ok ws, s) => (.ok (w :: ws), s)

/-- Lane words from their three parts. -/
def laneWords : List Word32 → List (BitVec 96)
  | a :: b :: c :: rest => (c ++ b ++ a) :: laneWords rest
  | _ => []

/-- The words of lane block `b` (R239, R281): none if the directory has no such block. -/
def State.laneBlock (s : State) (r : Reader) (b : Nat) : Got (Option (List (BitVec 96))) × State :=
  let dir := s.lbdir r.w.ident.grid
  match s.waveRead r dir 8 0 with
  | (.wait, s) => (.wait, s)
  | (.trap t, s) => (.trap t, s)
  | (.ok hd, s) =>
    if bits (wordOfBytes hd) 16 0 ≤ b then (.ok none, s)
    else
      match s.waveRead r (dir + 64 + 8 * b) 8 0 with
      | (.wait, s) => (.wait, s)
      | (.trap t, s) => (.trap t, s)
      | (.ok e, s) =>
        let e := wordOfBytes e
        match s.blockWords r (bits e 52 0 * 16) ((bits e 63 54 + 1) * 3) with
        | (.wait, s) => (.wait, s)
        | (.trap t, s) => (.trap t, s)
        | (.ok ws, s) => (.ok (some (laneWords ws)), s)

/-- The lane queue holds 64 instructions (R161), the replay window 24 (R176). -/
def laneRoom : Nat := 64
def replayWindow : Nat := 24

/-- The items of a block, with their issue record (R161). -/
def Ctx.issueItems (c : Ctx) (sb : BitVec 8) (b : BitVec 16) (ws : List (BitVec 96)) : List LaneItem :=
  let slots := c.get8 sb
  ws.zipIdx.map (fun e =>
    ⟨e.1, slots, c.f.emask, c.f.fmt, c.w.frags.length, c.frag, b, BitVec.ofNat 10 e.2, none, c.w.pathOf c.frag,
      c.w.work.treesel, c.w.work.trtime, if c.w.cv.mem then some (cvKey c.core c.w) else none, c.w.lane.next + e.2,
      [c.frag]⟩)

/-- ISSUE (R161, R307): the whole block enters the lane queue; a block longer than the queue enters once the queue is
empty and streams in. On a predicted path it enters the replay window (R176). -/
def execIssue (sb : BitVec 8) (b : BitVec 16) (s : State) : Result :=
  scalarOp (.issue sb b) s (fun c =>
    match s.laneBlock ⟨c.core, c.slot, c.w⟩ b.toNat with
    | (.wait, s) => .next s
    | (.trap t, s) => trapOr s c t
    | (.ok none, s) => trapOr s c { cause := 0x01, tval := instrTval (.issue sb b) }
    | (.ok (some ws), s) =>
      let q := c.w.lane.queue
      let n := ws.length
      if !c.w.lane.rest.isEmpty then .next s
      else if !(c.w.pathOf c.frag).isEmpty &&
          decide (replayWindow < (q.filter (fun i => !i.spec.isEmpty)).length + n) then .next s
      else
        let items := c.issueItems sb b ws
        if laneRoom < n then
          if !q.isEmpty then .next s
          else
            .next (c.put s ({ c.w with
              lane := { c.w.lane with queue := items.take laneRoom, rest := items.drop laneRoom, next := c.w.lane.next + n } }.setFrag
                c.frag { c.f with wait := .issuing }))
        else if laneRoom < q.length + n then .next s
        else
          .next (c.complete s { c.w with lane := { c.w.lane with queue := q ++ items, next := c.w.lane.next + n } } 4))

end Sys2Proof.Machine
end

