-- ==== Sys2Proof/Machine/Mgmt.lean ====
section
/-!
DEFINITION. The management window (R23, R62, R116, R118, R120, R132, R180, R183, R188, R219): one read of a register,
one write of a register without effects of its own, the views of R215; and the Light List (R216, R217).
-/
namespace Sys2Proof.Machine

/-- Bits `hi:lo` as a mask. -/
def maskBits (hi lo : Nat) : Word := BitVec.ofNat 64 ((2 ^ (hi - lo + 1) - 1) * 2 ^ lo)
/-- A mask of all bits. -/
def maskAll : Word := BitVec.allOnes 64

/-- The writable bits of a register without effects of its own; none for a register that is read-only, undefined, or
has effects. Offsets are those of the management window. DESIGN CHOICE (log 82): where the rule of a register does not say what
nonzero rsv bits of a write do, LMFIRST and LMCOUNT among them, they are dropped and the rest is taken. -/
def plainMask (off : Nat) : Option Word :=
  if off % 8 ≠ 0 then none
  else if off < 0x100000 then
    match off with
    | 0x000 => some (maskBits 56 16)
    | 0x100 | 0x108 | 0x110 | 0x118 | 0x120 | 0x128 | 0x130 | 0x138 => some maskAll
    | 0x408 => some (maskBits 30 0)
    | 0x410 => some (maskBits 16 0)
    | 0x430 | 0x440 | 0x448 => some maskAll
    | 0x450 => some (maskBits 9 0)
    | 0x510 => some (maskBits 51 12)
    | 0x518 | 0x530 => some (maskBits 31 0)
    | 0x528 => some (maskBits 51 16)
    | _ =>
      if 0x1000 ≤ off ∧ off < 0x1180 ∧ off % 0x20 = 8 then some (maskBits 8 0)
      else if 0x2000 ≤ off ∧ off < 0x2300 ∧ off % 0x40 < 0x30 then some maskAll
      else none
  else if off < 0x140000 then
    match off % 0x100 with
    | 0x00 => some (maskBits 51 12 ||| 1)
    | 0x08 => some (maskBits 9 0)
    | 0x10 => some (maskBits 51 12)
    | 0x18 | 0x20 | 0x40 | 0x68 => some (maskBits 31 0)
    | 0x30 => some (maskBits 5 0)
    | 0x38 => some (maskBits 51 16)
    | 0x48 => some (maskBits 6 0)
    | 0x50 => some (maskBits 10 0)
    | 0x58 => some (maskBits 11 0)
    | 0x60 => some (maskBits 56 2 ||| 1)
    | 0x70 => some maskAll
    | _ => none
  else if 0x200000 ≤ off ∧ off < 0x208000 then some maskAll
  else if 0x240000 ≤ off ∧ off < 0x242000 ∧ off % 0x80 < 0x48 then some maskAll
  else if 0x400000 ≤ off ∧ off < 0x401000 ∧ off % 0x40 < 0x38 then some maskAll
  else if 0x410000 ≤ off ∧ off < 0x414000 ∧ off % 0x40 < 0x30 then some maskAll
  else if 0x420000 ≤ off ∧ off < 0x421000 then
    match off % 0x40 with
    | 0x28 => some maskAll
    | _ => none
  else
    match off with
    | 0x421000 => some (maskBits 51 22)
    | 0x421008 | 0x421030 => some (maskBits 31 0)
    | 0x421010 => some (maskBits 11 0)
    | 0x421018 | 0x421020 | 0x421028 => some maskAll
    | _ => none

/-- A register whose value stands in the file and is only read. -/
def plainRO (off : Nat) : Bool :=
  off % 8 == 0 &&
    ([0x008, 0x140, 0x148, 0x400, 0x418, 0x420, 0x428, 0x438, 0x500, 0x508, 0x520, 0x538].contains off ||
      (decide (0x800 ≤ off) && decide (off < 0x1000)) ||
      (decide (0x1000 ≤ off) && decide (off < 0x1180) && off % 0x20 != 8) ||
      (decide (0x100000 ≤ off) && decide (off < 0x140000) &&
        [0x28, 0x78, 0x80, 0x88].contains (off % 0x100)) ||
      (decide (0x420000 ≤ off) && decide (off < 0x421000) && decide (off % 0x40 ≤ 0x20)))

/-- Whether some memory command is BUSY, for R48: a live-map or key command, a switch or a retrain. -/
def State.mpBusy (s : State) : Bool := s.ctl.mpoint.isSome || !s.ctl.retrain.isEmpty

/-- DEVSTAT.STATE is FATAL or RECOVERY: no wave issues and no engine moves (R219, R220). -/
def State.stopped (s : State) : Bool := bits (s.reg 0x520) 1 0 != 0

/-- A field of the Lightship entry `e` of cluster `c`, word `w` (Table 2 of R120). DESIGN CHOICE (log 98): QUEUED counts the
arrivals that HOLD and RESTORE hold, and reads 0 in OPEN, where those that are still to be performed have passed the point. -/
def State.shipWord (s : State) (c e w : Nat) : Word :=
  match (s.cluster c).ships.get? e with
  | none => 0
  | some x =>
    let q := (s.arrivals.filter (fun a => a.grid == x.grid && a.gang == x.gang)).length
    match w with
    | 0 => BitVec.ofNat 64 (x.state.toNat * 2 ^ 62 + x.job * 2 ^ 52 + x.gang * 2 ^ 44 + x.grid % 2 ^ 32)
    | 1 => BitVec.ofNat 64 (x.image / 65536 * 65536 % 2 ^ 52)
    | 2 => BitVec.ofNat 64 (x.len / 65536 * 2 ^ 32 + (if x.state = 2 then 0 else min q 64))
    | _ => x.divb

/-- Word `w` of the reply-diversion entry `e` of core `n` (Table 1 of R118). -/
def State.rdivWord (s : State) (n e w : Nat) : Word :=
  match (s.core n).rdiv.get? e with
  | none => 0
  | some r =>
    if w = 0 then BitVec.ofNat 64 (r.state.toNat * 2 ^ 62 + r.job * 2 ^ 52 + r.slot * 2 ^ 45 + r.epoch.toNat * 2 ^ 37 + r.due.length % 2 ^ 16)
    else BitVec.ofNat 64 (r.ctx / 1024 * 1024 % 2 ^ 52)

/-- Engine operations in flight on a cluster (CEOCC). -/
def State.engCount (s : State) (cl : Nat) : Nat := (s.engines.filter (fun e => clusterOf e.2.core == cl)).length

/-- Read a management register at an 8-byte offset; an undefined offset reads 0 (R23). Reading has no effect here. -/
def State.mgmtRead (s : State) (off : Nat) : Word :=
  if 0x100 ≤ off ∧ off < 0x140 then 0
  else if off = 0x010 then (if s.ctl.tlbCmd.isSome then 1 else 0)
  else if off = 0x148 then s.reg off ||| (if s.ctl.keyCmd.isSome then 1 else 0)
  else if off = 0x418 then s.reg off ||| (if s.ctl.lmCmd.isSome then 1 else 0)
  else if off = 0x428 then s.reg off ||| (if s.mpBusy then 1 else 0)
  else if off = 0x508 then s.reg off ||| (if s.fw.cmd.isSome then 1 else 0)
  else if 0x2000 ≤ off ∧ off < 0x2300 ∧ off % 0x40 = 0x30 then
    BitVec.ofNat 64 (s.lensUsed ((off - 0x2000) / 0x40))
  else if 0x240000 ≤ off ∧ off < 0x242000 ∧ off % 0x80 = 0x48 then
    BitVec.ofNat 64 (s.engCount ((off - 0x240000) / 0x80))
  else if 0x280000 ≤ off ∧ off < 0x300000 ∧ off % 8 = 0 then
    let o := off - 0x280000
    s.shipWord (o / 0x2000) (o % 0x2000 / 0x20) (o % 0x20 / 8)
  else if 0x300000 ≤ off ∧ off < 0x400000 ∧ off % 8 = 0 then
    let o := off - 0x300000
    s.rdivWord (o / 0x1000) (o % 0x1000 / 0x10) (o % 0x10 / 8)
  else if 0x440000 ≤ off ∧ off < 0x4C0000 ∧ off % 8 = 0 then
    match s.sched.deps.get? ((off - 0x440000) / 8) with
    | some d => BitVec.ofNat 64 (2 ^ 63 + d.q * 2 ^ 32 + d.count.toNat)
    | none => 0
  else if (plainMask off).isSome || plainRO off then s.reg off
  else 0

/-- Write a management register without effects of its own: the writable bits take the value; other offsets ignore it. DESIGN
CHOICE (log 82): a write with a nonzero rsv field to a register whose rule states no effect for it (JOBROOT, JOBKEY, FSBASE,
TVEC, WDPERIOD, QCFG, MPOINT, EYETHR, EYECMD, FWCMD, FABID, DEPBASE; R4) sets the other fields and drops the rsv bits. -/
def State.mgmtPlain (s : State) (off : Nat) (v : Word) : State :=
  match plainMask off with
  | some m => s.setReg off (v &&& m)
  | none => s

/-- The `n` bytes of a register at an offset (R406). -/
def State.mgmtBytes (s : State) (off n : Nat) : List Byte :=
  ((bytesOfWord (s.mgmtRead (off / 8 * 8))).drop (off % 8)).take n

/-- Whether a supervisor wave of a job may read a management offset (R215). -/
def waveMayRead (s : State) (job off : Nat) : Bool :=
  if 0x100000 ≤ off ∧ off < 0x140000 then decide ((off - 0x100000) / 0x100 = job)
  else if 0x420000 ≤ off ∧ off < 0x421000 then
    decide (bits (s.reg (queueReg ((off - 0x420000) / 0x40) 0)) 15 6 = job)
  else if (0x800 ≤ off ∧ off < 0x1000) ∨ (0x430 ≤ off ∧ off < 0x450) then true
  else if 0x2000 ≤ off ∧ off < 0x2300 then true
  else if 0x200000 ≤ off ∧ off < 0x208000 then true
  else if 0x240000 ≤ off ∧ off < 0x242000 then true
  else if 0x400000 ≤ off ∧ off < 0x401000 then true
  else if 0x410000 ≤ off ∧ off < 0x414000 then true
  else if 0x421018 ≤ off ∧ off < 0x421030 then true
  else false

/-! ### The Light List (R216, R217) -/

/-- The version and security version of the image that runs: IMGVER at header offset 0x00C and SVN at 0x010 (Table 12). -/
def State.fwVersion (s : State) : Nat × Nat :=
  match s.fw.running with
  | none => (0, 0)
  | some i =>
    match s.fw.flash[i]? with
    | some (some b) => (natOfBytes ((b.drop 0x0C).take 4), natOfBytes ((b.drop 0x10).take 4))
    | _ => (0, 0)

/-- The payloads of the records of Table 11, by ID. -/
def State.lightRecords (s : State) : List (Nat × List Nat) :=
  let parity := (s.reg 0x428).getLsbD 5
  [(0x0001, [0x58440001 * 2 ^ 32 + Config.stepping.toNat * 2 ^ 24 + 4 * 2 ^ 16 + 12 * 2 ^ 8,
     64 * 2 ^ 48 + 256 * 2 ^ 32 + 96 * 2 ^ 16 + 128,
     s.populated / 2 ^ 30 * 2 ^ 32 + 1024 * 2 ^ 16 + (if parity then 2 ^ 8 else 0),
     s.ownNumber * 2 ^ 48 + 64 * 2 ^ 32 + 1050000]),
   (0x0002, [7]),
   (0x0003, [1024]),
   (0x0004, [Config.uciModules.toNat]),
   (0x0005, [s.fwVersion.1 + s.fwVersion.2 * 2 ^ 32]),
   (0x0010, [0x1F]),
   (0x0020, [512 * 2 ^ 32 + 64]),
   (0x0021, [256 * 2 ^ 32 + 192]),
   (0x0022, [1024 * 2 ^ 32 + 24])]

/-- The words of a chain of records from an offset on: each header names the next (Table 10). -/
def lightWords : Nat → List (Nat × List Nat) → List Word
  | _, [] => []
  | off, (id, ps) :: rest =>
    let len := 8 + 8 * ps.length
    let next := if rest.isEmpty then 0 else off + len
    BitVec.ofNat 64 (id * 2 ^ 48 + 1 * 2 ^ 40 + len * 2 ^ 16 + next) :: ps.map (BitVec.ofNat 64 ·) ++
      lightWords (off + len) rest

/-- Bytes of the Light List window; beyond the last record it reads 0. -/
def State.lightBytes (s : State) (off n : Nat) : List Byte :=
  let all := bytesOfWords (lightWords 0 s.lightRecords)
  (List.range n).map (fun i => (all[off + i]?).getD 0)

end Sys2Proof.Machine
end

