-- ==== Sys2Proof/Machine/Queues.lean ====
section
/-!
DEFINITION. The hardware queues (R183, R184), task records (R185, R187) and dependence counters (R188).
-/
namespace Sys2Proof.Machine

/-! ### Queue registers (Table 1) -/

/-- QCFG fields of a queue. -/
def State.queueJob (s : State) (q : Nat) : Nat := bits (s.reg (queueReg q 0)) 15 6
def State.queuePri (s : State) (q : Nat) : Nat := bits (s.reg (queueReg q 0)) 5 3
def State.queueExt (s : State) (q : Nat) : Bool := (s.reg (queueReg q 0)).getLsbD 2
def State.queueData (s : State) (q : Nat) : Bool := (s.reg (queueReg q 0)).getLsbD 1
def State.queueOn (s : State) (q : Nat) : Bool := (s.reg (queueReg q 0)).getLsbD 0
/-- QHEAD and QTAIL. -/
def State.queueHead (s : State) (q : Nat) : Nat := (s.reg (queueReg q 0x18)).toNat
def State.queueTail (s : State) (q : Nat) : Nat := (s.reg (queueReg q 0x20)).toNat
/-- The entries of the ring: a QSIZE that is no power of two from 64 to 65,536 is taken as 64. -/
def State.queueSize (s : State) (q : Nat) : Nat :=
  let n := (s.reg (queueReg q 0x10)).toNat % 2 ^ 32
  if 64 ≤ n ∧ n ≤ 65536 ∧ n &&& (n - 1) = 0 then n else 64
/-- Entries waiting. -/
def State.queueCount (s : State) (q : Nat) : Nat := (s.queueTail q + 2 ^ 32 - s.queueHead q) % 2 ^ 32
def State.queueFull (s : State) (q : Nat) : Bool := decide (s.queueCount q = s.queueSize q)
/-- The die a queue is homed on. -/
def queueDie (q : Nat) : Nat := q / 16
/-- The address of an entry of the ring. -/
def State.queueSlot (s : State) (q n : Nat) : Nat :=
  bits (s.reg (queueReg q 0x08)) 51 12 * 4096 + n % s.queueSize q * (if s.queueData q then 8 else 64)

/-- Who makes an access of the task unit at a die: a job, or the host (R43, R49). -/
def unitOrigin (die : Nat) (job : Option Nat) : Origin :=
  match job with
  | some j => { src := die, job := j, orig := 0 }
  | none => .host

/-- A write of the task unit's that its port holds: whole atoms, or some bytes of one. -/
def unitTxn (die pa : Nat) (bs : List Byte) (o : Origin) : Txn where
  op := if pa % 64 = 0 ∧ bs.length = 64 then .wr else .wrm
  phase := .made
  users := []
  core := die * 64
  slot := 0
  die := die
  stack := stackOf pa
  job := o.job
  key := 0
  pa := pa / 64 * 64
  va := 0
  cnt := 1
  elems := []
  esz := 0
  data := List.replicate (pa % 64) 0 ++ bs ++ List.replicate (64 - pa % 64 - bs.length) 0
  bmask := BitVec.ofNat 64 (allBytes bs.length * 2 ^ (pa % 64))
  aop := 0
  typ := 0
  acc := 1
  agent := 5
  status := .ok
  pmask := []
  mism := []
  fill := false
  seen := 0
  owner := false
  tag := 0
  own := false
  orig := o.orig

/-- A write of the task unit to one atom of a region of key slot 0: sent and performed in one step where its port lets it, else
a request that the port sends later (R36, R40). -/
def State.unitWrite (s : State) (die pa : Nat) (bs : List Byte) (o : Origin) : State :=
  if s.portsClear die pa bs.length then
    let (_, s) := s.dieWrite pa bs (allBytes bs.length) 0 [] o
    s.closeLines pa bs.length
  else
    let (n, s) := s.newId
    s.sendTxn n (unitTxn die pa bs o)

/-- A read of the task unit from a region of key slot 0, where its port lets it. -/
def State.unitRead (s : State) (pa n : Nat) (o : Origin) : List Byte × State :=
  let (_, bs, s) := s.dieRead pa n 0 [] o
  (bs, s)

/-- Append an entry to a ring (R184), for a job or the host. -/
def State.queueAppend (s : State) (q : Nat) (bs : List Byte) (job : Option Nat) : State :=
  let t := s.queueTail q
  (s.unitWrite (queueDie q) (s.queueSlot q t) bs (unitOrigin (queueDie q) job)).setReg (queueReg q 0x20)
    (BitVec.ofNat 64 ((t + 1) % 2 ^ 32))

/-- The bytes of a ring's entry. -/
def State.entryBytes (s : State) (q : Nat) : Nat := if s.queueData q then 8 else 64
/-- Whether the oldest entry of a ring can be read now (R36, R40). -/
def State.headClear (s : State) (q : Nat) : Bool :=
  s.portsClear (queueDie q) (s.queueSlot q (s.queueHead q)) (s.entryBytes q)

/-- Take the oldest entry of a ring, for a job. -/
def State.queueTake (s : State) (q job : Nat) : List Byte × State :=
  let h := s.queueHead q
  let (bs, s) := s.unitRead (s.queueSlot q h) (s.entryBytes q) (unitOrigin (queueDie q) (some job))
  (bs, s.setReg (queueReg q 0x18) (BitVec.ofNat 64 ((h + 1) % 2 ^ 32)))

/-! ### Task records (R185, R187) -/

/-- Fields of a task record. -/
def taskEntry (t : List Word) : Word := wordAt t 0 &&& maskBits 56 2
def taskGangs (t : List Word) : Nat := bits (wordAt t 1) 63 56 + 1
def taskWaves (t : List Word) : Nat := bits (wordAt t 1) 55 47
def taskCspu (t : List Word) : Nat := bits (wordAt t 1) 46 38
def taskVgrp (t : List Word) : Nat := bits (wordAt t 1) 37 32
def taskHtlen (t : List Word) : Nat := bits (wordAt t 1) 31 19
def taskTail (t : List Word) : Nat := bits (wordAt t 1) 18 12
def taskArg (t : List Word) : Word := wordAt t 4
def taskWinit (t : List Word) : Nat := bits (wordAt t 5) 63 32
def taskWaitc (t : List Word) : Nat := bits (wordAt t 5) 31 16
def taskWen (t : List Word) : Bool := (wordAt t 5).getLsbD 15
def taskBwu (t : List Word) : Nat := bits (wordAt t 5) 14 8
def taskPwu (t : List Word) : Nat := bits (wordAt t 5) 7 0
def taskDonec (t : List Word) : Nat := bits (wordAt t 6) 63 48
def taskDen (t : List Word) : Bool := (wordAt t 6).getLsbD 47
def taskRen (t : List Word) : Bool := (wordAt t 6).getLsbD 46

/-- A rsv field of a record is nonzero. -/
def taskRsv (t : List Word) : Bool :=
  (wordAt t 0 &&& ~~~(maskBits 56 2)) != 0 || bits (wordAt t 1) 11 0 != 0 ||
    (wordAt t 2 &&& ~~~(maskBits 56 6)) != 0 || (wordAt t 3 &&& ~~~(maskBits 56 6)) != 0 ||
    bits (wordAt t 6) 45 0 != 0 || (wordAt t 7 &&& ~~~(maskBits 56 4)) != 0

/-- A malformed record (R187). -/
def taskMalformed (t : List Word) : Bool :=
  taskRsv t ||
    !(decide (1 ≤ taskWaves t) && decide (taskWaves t ≤ 384)) ||
    !(decide (1 ≤ taskCspu t) && decide (taskCspu t ≤ 256)) ||
    !(decide (1 ≤ taskVgrp t) && decide (taskVgrp t ≤ 32)) ||
    decide (4096 < taskHtlen t) ||
    decide (4096 < (taskWaves t + 3) / 4 * taskVgrp t * 8)

/-! ### Dependence counters (R188) -/

/-- The address of the successor of a counter. -/
def State.depSlot (s : State) (c : Nat) : Nat := bits (s.reg 0x421000) 51 22 * 4194304 + c * 64
/-- The die a counter is homed on. -/
def depDie (c : Nat) : Nat := c / 16384

/-- Whether a decrement of a counter can be performed now: if it frees the counter, its successor must be read (R36, R40). -/
def State.depClear (s : State) (c : Nat) : Bool :=
  match s.sched.deps.get? c with
  | none => true
  | some d => decide (1 < d.count.toNat) || !s.queueOn d.q || s.queueFull d.q || s.portsClear (depDie c) (s.depSlot c) 64

/-- A counter frees and its successor is appended to its queue, or discarded and counted if the queue is full or
disabled; `job`: whose decrement it is. -/
def State.depFire (s : State) (c q job : Nat) : State :=
  let s := { s with sched := { s.sched with deps := s.sched.deps.del c } }
  if !s.queueOn q || s.queueFull q then s.bump (queueReg q 0x28)
  else
    let (bs, s) := s.unitRead (s.depSlot c) 64 (unitOrigin (depDie c) (some job))
    s.queueAppend q bs (some job)

/-- Decrement a counter (Table 3): the result code. -/
def State.depDec (s : State) (c job : Nat) : Nat × State :=
  match s.sched.deps.get? c with
  | none => (6, s)
  | some d =>
    if d.count.toNat ≤ 1 then (0, s.depFire c d.q job)
    else (0, { s with sched := { s.sched with deps := s.sched.deps.set c { d with count := d.count - 1 } } })

/-- A host write of 0 to DEPCNT: the counter frees and its successor is discarded. -/
def State.depFree (s : State) (c : Nat) : State := { s with sched := { s.sched with deps := s.sched.deps.del c } }

/-! ### Appending (R184, R188, R322) -/

/-- Append a task record for a job, or for the host: the result code of Table 4, in the order 8, 9, 3, 2, 4, 5, 1. A
record with WEN arms its counter, or is enqueued at once if WINIT is 0. -/
def State.taskAppend (s : State) (q : Nat) (t : List Word) (job : Option Nat) : Nat × State :=
  if job.any (· != s.queueJob q) then (8, s)
  else if s.jobState (s.queueJob q) ≠ 1 then (9, s)
  else if s.queueData q then (3, s)
  else if !s.queueOn q then (2, s)
  else if taskMalformed t then (4, s)
  else if taskWen t && (s.sched.deps.has (taskWaitc t)) then (5, s)
  else if s.queueFull q then (1, s)
  else if taskWen t && decide (0 < taskWinit t) then
    let c := taskWaitc t
    let s := s.unitWrite (depDie c) (s.depSlot c) (bytesOfWords t) (unitOrigin (depDie c) job)
    (0, { s with sched := { s.sched with deps := s.sched.deps.set c ⟨BitVec.ofNat 32 (taskWinit t), q⟩ } })
  else (0, s.queueAppend q (bytesOfWords t) job)

/-- Append an 8-byte entry for a job, or for the host: the result code, in the order 8, 9, 3, 2, 1 (R325). -/
def State.dataAppend (s : State) (q : Nat) (v : Word) (job : Option Nat) : Nat × State :=
  if job.any (· != s.queueJob q) then (8, s)
  else if s.jobState (s.queueJob q) ≠ 1 then (9, s)
  else if !s.queueData q then (3, s)
  else if !s.queueOn q then (2, s)
  else if s.queueFull q then (1, s)
  else (0, s.queueAppend q (bytesOfWord v) job)

/-- QERR counts a refusal: every code but 0, 6 and 7 (R321). -/
def State.queueRefused (s : State) (q code : Nat) : State :=
  if code = 0 ∨ code = 6 ∨ code = 7 then s else s.bump (queueReg q 0x28)

/-- A store to a queue's aperture page (R184): of a job's wave, or of the host. -/
def State.queueStore (s : State) (q off : Nat) (bs : List Byte) (job : Option Nat) : State :=
  let (code, s') : Nat × State :=
    (if off ≠ 0 then (3, s)
     else if s.queueData q then
       (if bs.length = 8 then s.dataAppend q (wordOfBytes bs) job else (3, s))
     else if bs.length = 64 then s.taskAppend q (wordsOfBytes 8 bs) job
     else (3, s))
  s'.queueRefused q code

end Sys2Proof.Machine
end

