-- ==== Sys2Proof/Machine/Access.lean ====
section
/-!
DEFINITION. The accesses of waves: scratch ranges and range locks, the requests an access becomes, the counters LD and
ST, and the landing of replies in registers (R52, R53, R114, R297, R379).
-/
namespace Sys2Proof.Machine

/-! ### Scratch of the own gang (R9) -/

/-- The gang index and the offset of a scratch address. -/
def scratchGang (va : Nat) : Nat := va / 16777216 % 256
def scratchOff (va : Nat) : Nat := va % 16777216

/-- Where `n` bytes of a gang's scratch lie: the cluster and the address in its CSP; none is SCRATCHRANGE (R9). -/
def State.scratchAt (s : State) (grid va n : Nat) : Option (Nat × Nat) :=
  if va / 4294967296 % 1048576 ≠ 0 then none
  else
    match s.gangAlloc grid (scratchGang va) with
    | none => none
    | some (cl, a) => if scratchOff va + n ≤ a.len then some (cl, a.base + scratchOff va) else none

/-- The same for a wave's own gang only. -/
def State.ownScratch (s : State) (w : Wave) (va n : Nat) : Option (Nat × Nat) :=
  if scratchGang va = w.ident.gang then s.scratchAt w.ident.grid va n else none

/-! ### Scratch of the gangs of a grid -/

/-- Whether a gang of a grid has ended. -/
def Gang.ended (g : Gang) : Bool := g.here.isEmpty && g.gone.isEmpty

/-- A Lightship entry of a gang, with its cluster and number. -/
def State.shipOf (s : State) (grid gang : Nat) : Option (Nat × Nat × Ship) :=
  match s.clusters.first? (fun _ c => c.ships.any (fun e => e.2.grid == grid && e.2.gang == gang)) with
  | none => none
  | some (cl, c) =>
    match c.ships.first? (fun _ x => x.grid == grid && x.gang == gang) with
    | none => none
    | some (k, x) => some (cl, k, x)

/-- Where a gang's scratch is (R122, R130). -/
inductive ScratchHome where
  /-- resident: the cluster and the first byte -/
  | here (cl base : Nat)
  /-- absent, or held at its diversion point -/
  | away
  /-- the gang has ended and its allocation is freed -/
  | gone
  deriving DecidableEq, Repr

/-- Where the scratch of gang `g` of a grid is: at its diversion point from the save until it reopens. -/
def State.scratchHome (s : State) (grid gang : Nat) : ScratchHome :=
  match s.sched.grids.get? grid with
  | none => .gone
  | some g =>
    match g.gangs.get? gang with
    | none => .gone
    | some x =>
      if x.resuming || x.image.isSome || (s.shipOf grid gang).isSome then .away
      else
        match s.gangAlloc grid gang with
        | some (cl, a) => .here cl a.base
        | none => if x.ended then .gone else .away

/-- The length of a gang's scratch; none if the grid has no such gang. -/
def State.gangLen (s : State) (grid gang : Nat) : Option Nat :=
  match s.sched.grids.get? grid with
  | none => none
  | some g => (g.gangs.get? gang).map (·.len)

/-- The cluster that an ended gang was on, for LSGONE. -/
def State.gangCluster (s : State) (grid gang : Nat) : Nat :=
  match s.sched.grids.get? grid with
  | some g => ((g.gangs.get? gang).map (·.cluster)).getD 0
  | none => 0

/-- An arrival for a gang that has ended is dropped: LSGONE counts it (R130, R132). -/
def State.countGone (s : State) (grid gang : Nat) : State := s.bump (lsReg (s.gangCluster grid gang) 0x20)

/-! ### Range locks (R113, R114) -/

/-- Whether a lock names a byte of `n` bytes at an address. -/
def Lock.hits (l : Lock) (va n : Nat) : Bool :=
  if windowOf va = .scratch then
    l.gangs.contains (scratchGang va) && decide (l.base < scratchOff va + n) && decide (scratchOff va < l.base + l.len)
  else l.gangs.isEmpty && decide (l.base < va + n) && decide (va < l.base + l.len)

/-- The locks of a gang: those of its engine operations, and the read locks of its tile operations. -/
def State.gangLocks (s : State) (grid gang : Nat) : List Lock :=
  (s.cores.map (fun c => c.2.locks.filter (fun l => l.grid == grid && l.gang == gang))).flatten ++
    (s.waves.map (fun w => if w.2.ident.grid = grid ∧ w.2.ident.gang = gang then
      (w.2.mat.ops.map (·.locks)).flatten else [])).flatten ++
    (s.away.map (fun a => if a.2.ident.grid = grid ∧ a.2.ident.gang = gang then
      (a.2.mat.ops.map (·.locks)).flatten else [])).flatten

/-- RANGELOCK (R114): a user-mode access of the gang's own waves meets a lock. -/
def State.rangeLocked (s : State) (w : Wave) (va n : Nat) (store : Bool) : Bool :=
  !w.trap.sup && (s.gangLocks w.ident.grid w.ident.gang).any (fun l => (l.write || store) && l.hits va n)

/-! ### Counters (R297, R312) -/

/-- Add an access to a wave. -/
def Wave.addOut (w : Wave) (o : Out) : Wave := { w with work := { w.work with outs := w.work.outs ++ [o] } }

/-! ### What a queued lane word does to memory (R134, R380) -/

/-- The opcode of a queued lane word. -/
def LaneItem.opc (i : LaneItem) : Nat := (i.word.extractLsb' 84 12).toNat
/-- ORD of a queued LM word. -/
def LaneItem.ord (i : LaneItem) : Nat := (i.word.extractLsb' 26 2).toNat
/-- A lane acquire (R380). -/
def LaneItem.acquire (i : LaneItem) : Bool :=
  ([0x200, 0x202, 0x204].contains i.opc && i.ord == 1) || (i.opc == 0x240 && (i.ord == 1 || i.ord == 3)) ||
    i.opc == 0x206 || i.opc == 0x281
/-- It may touch a translated window. -/
def LaneItem.far (i : LaneItem) : Bool := [0x200, 0x201, 0x202, 0x203, 0x240].contains i.opc
/-- It may touch scratch. -/
def LaneItem.near (i : LaneItem) : Bool := [0x200, 0x201, 0x204, 0x205, 0x206, 0x207, 0x240, 0x242].contains i.opc
/-- A memory or tree instruction. -/
def LaneItem.memory (i : LaneItem) : Bool := decide (0x200 ≤ i.opc) && decide (i.opc < 0x300)

/-- The lane instructions that have not begun. -/
def Wave.laneAll (w : Wave) : List LaneItem := w.lane.queue ++ w.lane.rest

/-- The vector registers a queued lane word reads or writes. -/
def LaneItem.vecRegs (i : LaneItem) : List Nat :=
  match decodeLane i.word with
  | .ok x => laneRegs x
  | .error _ => []

/-- The vector registers a queued lane word writes. -/
def LaneItem.vecDst (i : LaneItem) : List Nat :=
  match decodeLane i.word with
  | .ok x =>
    (match laneInfo x with
     | some (r, w) => if r.dst == .vec || (r.dst == .vecOrScalar && !w.sd) then
         (if is64 w.typ then [w.dst.toNat, w.dst.toNat + 1] else [w.dst.toNat]) else []
     | none => [])
  | .error _ => []

/-- The address of a lane (R375). -/
def LCtx.laneEa (c : LCtx) (w : LaneWord) (l : Nat) : Word :=
  c.slotVal (w.sa.toNat - 256) + c.intOpnd w.sb l * BitVec.ofNat 64 (2 ^ w.scl.toNat) + w.off.signExtend 64

/-- The leaf of an address and its level as the page tables in memory stand, from a table with `n` levels to go (R16). -/
def State.peekWalk (s : State) (job va : Nat) : Nat → Nat → Option (Word × Nat)
  | 0, _ => none
  | n + 1, base =>
    let level := 4 - n
    let e := wordOfBytes (s.mem.read (base + levelIndex level va * 8) 8)
    if !e.getLsbD 0 then none
    else if !e.getLsbD 1 then
      if badPointer level e then none else State.peekWalk s job va n (bits e 51 8 * 256)
    else if s.badLeaf level va e then none
    else some (e, level)

/-- Which byte an address of a translated window names: 0 this device's memory, 1 the host's, else a peer's, and the PA; as a
core's translations have it, or the page tables. An address with no translation names none. -/
def State.byteOf (s : State) (core job va : Nat) : Option (Nat × Nat) :=
  let root := s.reg (jobReg job 0)
  let leaf := (match s.tlbFind core job va with
    | some e => some (e.leaf, e.level)
    | none => if root.getLsbD 0 then s.peekWalk job va 5 (bits root 51 12 * 4096) else none)
  let space := (match windowOf va with
    | .global => 0
    | .peer => if peerOf va = s.ownNumber then 0 else 2 + peerOf va
    | _ => 1)
  leaf.map (fun p => (space, leafAddr p.2 va p.1))

/-- Whether two accesses of a core, of ranges that each lie in one page or in scratch, touch a common byte (R139). -/
def State.touch (s : State) (core job a n b m : Nat) : Bool :=
  if windowOf a = .scratch ∨ windowOf b = .scratch then decide (a < b + m) && decide (b < a + n)
  else
    match s.byteOf core job a, s.byteOf core job b with
    | some x, some y => x.1 == y.1 && decide (x.2 < y.2 + m) && decide (y.2 < x.2 + n)
    | _, _ => false

/-- Whether a queued lane access of a wave, after the lane instructions `pre`, can touch a byte of some ranges: by its lanes'
addresses, or in any case while something on its way may still change the register that they come from. -/
def State.itemTouches (s : State) (core : Nat) (w : Wave) (ranges : List (Nat × Nat)) (pre : List LaneItem) (i : LaneItem) :
    Bool :=
  match decodeLane i.word with
  | .error _ => true
  | .ok x =>
    match laneInfo x with
    | none => true
    | some (_, f) =>
      let r := f.sb.toNat
      let moving := decide (r < 256) &&
        (pre.any (fun j => j.vecDst.contains r) ||
          w.work.outs.any (fun o => match o.dest with | .vector v => decide (v ≤ r) && decide (r < v + o.nvec) | _ => false) ||
          w.mat.ops.any (fun o => decide (o.cbase ≤ r) && decide (r < o.cbase + o.regs)))
      let c : LCtx := ⟨0, 0, w, i⟩
      let size := if i.opc = 0x242 then 16 else typWidth f.typ / 8
      moving || (lanesOf c.mask).any (fun l => ranges.any (fun p =>
        s.touch core w.ident.job (c.laneEa f l).toNat size p.1 p.2))

/-- Whether a lane access that comes before the next instruction of fragment `n` and has not begun can touch some bytes
(R139). -/
def State.lanesTouch (s : State) (core : Nat) (w : Wave) (n va len : Nat) : Bool :=
  (w.laneAll.zipIdx).any (fun p => (p.1.near || p.1.far) && p.1.heirs.contains n &&
    s.itemTouches core w [(va, len)] (w.laneAll.take p.2) p.1)

/-- A lane acquire that comes before the next instruction of fragment `n` has not completed (R139, R380). -/
def Wave.acquiring (w : Wave) (n : Nat) : Bool :=
  w.laneAll.any (fun i => i.acquire && i.heirs.contains n) || w.work.outs.any (fun o => o.acq && o.heirs.contains n)

/-- Every earlier access of the wave has been performed (R298, R313). -/
def Wave.quiet (w : Wave) : Bool := w.work.outs.isEmpty && !w.laneAll.any (·.memory)

/-! ### Hand-off lines (R77, R78) -/

/-- A waiting access could take its lines. -/
def LineWait.ready (c : Cluster) (x : LineWait) : Bool := x.lines.all (fun l => c.full.contains l == x.full)
/-- Whether two entries are of one access. -/
def LineWait.same (x y : LineWait) : Bool := x.kind == y.kind && x.id == y.id && x.seq == y.seq
/-- Whether an access goes first at its lines: no access that reached a line of them earlier could take it now. -/
def Cluster.goesFirst (c : Cluster) (x : LineWait) : Bool :=
  (c.linew.takeWhile (fun y => !(y.same x))).all (fun y => !(y.ready c && y.lines.any x.lines.contains))
/-- An access joins those that wait, or has taken its lines. -/
def State.joinLines (s : State) (cl : Nat) (x : LineWait) : State :=
  let c := s.cluster cl
  if c.linew.any (fun y => y.same x && y.lines == x.lines) then s
  else s.setCluster cl { c with linew := c.linew.filter (fun y => !(y.same x)) ++ [x] }
def State.leaveLines (s : State) (cl : Nat) (x : LineWait) : State :=
  let c := s.cluster cl
  if c.linew.any (·.same x) then s.setCluster cl { c with linew := c.linew.filter (fun y => !(y.same x)) } else s

/-- Whether an access still waits: a trap, a halt or an end has not ended its wait (R79), nor has its destination left the
cluster or its port been disarmed. -/
def State.stillWaits (s : State) (cl : Nat) (x : LineWait) : Bool :=
  match x.kind with
  | 0 => (match s.findWave x.id with
    | some (core, _, w) => clusterOf core == cl && !w.sched.halted && (match w.lane.queue with
      | i :: _ => i.seq == x.seq
      | [] => false)
    | none => false)
  | 1 => (match s.engines.get? x.id with
    | some o => (!o.aborted || s.arrivals.any (fun a => !a.isWave && a.sender == x.id)) &&
      (s.cluster cl).allocs.any (fun a => a.grid == o.ident.grid && a.gang == x.seq &&
        x.lines.all (fun l => decide (a.base / 128 ≤ l) && decide (l < (a.base + a.len) / 128)))
    | none => false)
  | _ => (match ((s.cluster cl).inq.get? x.id).getD [], (s.cluster cl).arms.get? x.id with
    | h :: _, some a => a.grid == h.grid
    | _, _ => false)

/-- Waits that have ended leave the clusters' lists. -/
def State.sweepLines (s : State) : State :=
  { s with clusters := s.clusters.mapAll (fun k c => { c with linew := c.linew.filter (s.stillWaits k) }) }

/-! ### Requests -/

/-- Change one request's place in the table by a function over all. -/
def State.mapTxns (s : State) (f : Nat → Txn → Txn) : State := { s with net := { s.net with txns := s.net.txns.mapAll f } }

/-- Fills in flight of a line of a core are not installed: a store or atomic of the core to the line has been made
after them (R53, R138). -/
def State.noFill (s : State) (core line : Nat) : State :=
  s.mapTxns (fun _ t => if t.core = core ∧ t.op = .rd ∧ t.pa / 128 = line then { t with fill := false } else t)

/-- A request as a wave makes it. -/
def mkTxn (core slot : Nat) (job : Nat) (op : PacketOp) (pa va key : Nat) (u : User) : Txn where
  op := op
  phase := .made
  users := [u]
  core := core
  slot := slot
  die := dieOf core
  stack := stackOf pa
  job := job
  key := BitVec.ofNat 10 key
  pa := pa
  va := va
  cnt := 1
  elems := u.elems
  esz := 0
  data := []
  bmask := 0
  aop := 0
  typ := u.typ
  acc := 0
  agent := 5
  status := .ok
  pmask := []
  mism := []
  fill := false
  seen := 1
  owner := false
  tag := 0
  own := false
  orig := 0

/-- Whether a line request can be shared (R52): made by the same core for the same line, key and job, still to be
installed. -/
def Txn.shares (t : Txn) (core line : Nat) (key : BitVec 10) (job : Nat) : Bool :=
  t.core == core && t.op == .rd && t.fill && t.pa / 128 == line && t.key == key && t.job == job &&
    !t.users.isEmpty && (match t.phase with | .made | .intake _ | .entry _ => true | _ => false)

/-- A miss of the L1 asks the Lens for the line (R52), or shares the core's request for it. -/
def State.askLine (s : State) (core slot job key line va : Nat) (u : User) : State :=
  match s.net.txns.first? (fun _ t => t.shares core line (BitVec.ofNat 10 key) job) with
  | some (k, t) => s.setTxn k { t with users := t.users ++ [u] }
  | none =>
    let (n, s) := s.newId
    s.setTxn n { mkTxn core slot job .rd (line * 128) va key u with die := stackOf (line * 128) / 3, cnt := 2, fill := true }

/-- The byte enables of an atom that elements touch, and its bytes: a later element's bytes stand. -/
def atomBytes (atom : Nat) (es : List Elem) : Nat × List Byte :=
  let put (bs : List Byte) (e : Elem) : List Byte :=
    let o := e.pa - atom * 64
    bs.take o ++ bytesOfNat e.size e.data.toNat ++ bs.drop (o + e.size)
  (es.foldl (fun m e => m ||| (allBytes e.size * 2 ^ (e.pa - atom * 64))) 0, es.foldl put (List.replicate 64 0))

/-- The elements by atom, in order of the first element that touches it. -/
def byAtom (es : List Elem) : List (Nat × List Elem) :=
  (es.map (fun e => e.pa / 64)).eraseDups.map (fun a => (a, es.filter (fun e => e.pa / 64 == a)))
/-- The elements by line. -/
def byLine (es : List Elem) : List (Nat × List Elem) :=
  (es.map (fun e => e.pa / 128)).eraseDups.map (fun a => (a, es.filter (fun e => e.pa / 128 == a)))

/-- A store passes the L1 (R53), and becomes one WR or WRM for each atom. -/
def State.askStore (s : State) (core slot job key : Nat) (u : User) (atom : Nat) (es : List Elem) : State :=
  let k : BitVec 10 := BitVec.ofNat 10 key
  let s := es.foldl (fun s e => s.l1Store core e.pa k job (bytesOfNat e.size e.data.toNat)) s
  let s := s.noFill core (atom / 2)
  let (mask, bs) := atomBytes atom es
  let (n, s) := s.newId
  let va := (match es with | e :: _ => e.va | [] => 0)
  s.setTxn n { mkTxn core slot job (if mask = allBytes 64 then .wr else .wrm) (atom * 64) va key { u with elems := es } with
    die := stackOf (atom * 64) / 3, data := bs, bmask := BitVec.ofNat 64 mask, acc := 1, elems := es }

/-- Send a request that passes no slice, in program order at its lines (R138, R382). -/
def State.sendOrHold (s : State) (n : Nat) (t : Txn) : State :=
  if s.mustWait n t then s.setTxn n { t with phase := .waiting } else s.sendTxn n t

/-- An atomic to the global window: its line leaves the L1, then the ATM goes (R53). -/
def State.askAtomic (s : State) (core slot job key aop : Nat) (u : User) (e : Elem) : State :=
  let s := (s.l1Drop core e.pa).noFill core (e.pa / 128)
  let (n, s) := s.newId
  s.sendOrHold n { mkTxn core slot job .atm e.pa e.va key { u with elems := [e] } with
    aop := BitVec.ofNat 8 aop, acc := 2, elems := [e] }

/-- An access of the peer or host window: it goes to the fabric or the host link. Whether its peer is this device is
decided now, as it is translated (R405). -/
def State.askRemote (s : State) (core slot job key aop : Nat) (op : PacketOp) (acc : BitVec 2) (u : User) (e : Elem) : State :=
  let (n, s) := s.newId
  s.setTxn n { mkTxn core slot job op e.pa e.va key { u with elems := [e] } with
    phase := .remote, aop := BitVec.ofNat 8 aop, acc := acc, elems := [e],
    own := decide (windowOf e.va = .peer ∧ peerOf e.va = s.ownNumber) }

/-! ### Landing (R297, R379) -/

/-- A destination that is a register of the wave. -/
def Dest.isReg (d : Dest) : Bool := match d with | .scalar _ _ | .vector _ => true | _ => false

/-- Extend a loaded element to a register of a type (R295, R375). -/
def extendElem (t : BitVec 5) (size : Nat) (v : Word) : Word :=
  let n := size * 8
  let x := v.toNat % 2 ^ n
  if typSigned t && decide (2 ^ (n - 1) ≤ x) then BitVec.ofInt 64 (Int.ofNat x - 2 ^ n) else BitVec.ofNat 64 x

/-- Write elements to the destination of an access. -/
def Wave.landElems (w : Wave) (d : Dest) (t : BitVec 5) (vals : List (Elem × Word)) : Wave :=
  match d with
  | .none => w
  | .record va => { w with sched := { w.sched with recs := w.sched.recs.set va (vals.map (fun p => p.2)) } }
  | .scalar r n => match vals with
    | (e, v) :: _ => w.landReg n r (extendElem t e.size v)
    | [] => w
  | .vector r =>
    let m := maskOf (vals.map (fun p => p.1.lane))
    w.putLanes t r m (fun l => match vals.find? (fun p => p.1.lane == l) with
      | some (e, v) => extendElem t e.size v
      | none => 0)

/-- The lowest lane of a mask. -/
def lowLane (m : Mask) : Nat := ((lanesOf m).head?).getD 128

/-- Note a failed reply of an access (R297, R379): the failures of one access make one trap. -/
def Wave.noteFailure (w : Wave) (o : Out) (cause : BitVec 8) (failed : List Elem) : Wave :=
  if failed.isEmpty then w
  else
    let m := if o.scl || o.red then 0 else maskOf (failed.map (·.lane))
    let tval : Word := if o.scl || o.red then o.tval else
      (match failed.find? (fun e => e.lane == lowLane m) with | some e => BitVec.ofNat 64 e.va | none => 0)
    let d : Deferred := ⟨cause, tval, 0, if o.scl then o.dest else .none, !o.scl, m, o.lpc, o.id, o.store⟩
    let old := w.work.deferred
    let new := (match old.find? (fun x => x.out == o.id && o.id != 0) with
      | some x =>
        let y := if lowLane x.mask ≤ lowLane m then { x with mask := x.mask ||| m } else { d with mask := x.mask ||| m }
        old.map (fun z => if z.out = o.id then y else z)
      | none => old ++ [d])
    { w with work := { w.work with deferred := new } }

/-- One request of an access has been answered: the last ends the access, and the fragment that waited for it goes on
(R298). -/
def Wave.answered (w : Wave) (out : Nat) : Wave :=
  match w.work.outs.find? (fun o => o.id == out) with
  | none => w
  | some o =>
    if 1 < o.left then
      { w with work := { w.work with outs := w.work.outs.map (fun x => if x.id = out then { x with left := x.left - 1 } else x) } }
    else
      let w := { w with work := { w.work with outs := w.work.outs.filter (fun x => x.id != out) } }
      { w with frags := w.frags.mapAll (fun _ f => match f.wait with
          | .landing o n => if o = out then { f with wait := .run, spc := f.spc + BitVec.ofNat 64 n } else f
          | _ => f) }

/-- A reply reaches a resident wave: its elements land, failures are noted, the access counts down. -/
def State.land (s : State) (u : User) (vals : List (Elem × Word)) (cause : BitVec 8) (failed : List Elem) : State :=
  match s.findWave u.uid with
  | none => s
  | some (core, slot, w) =>
    match w.work.outs.find? (fun o => o.id == u.out) with
    | none => s
    | some o =>
      let w := ((w.landElems u.dest u.typ vals).noteFailure o cause failed).answered u.out
      let s := (s.setWave core slot w).outFalls (0, u.out)
      if o.clear && decide (o.left ≤ 1) then s.emptyL1 core else s

/-- The elements of a user with what a reply's bytes at `base` give them. -/
def readElems (base : Nat) (bs : List Byte) (es : List Elem) : List (Elem × Word) :=
  es.map (fun e => (e, BitVec.ofNat 64 (natOfBytes ((bs.drop (e.pa - base)).take e.size))))

end Sys2Proof.Machine
end

