-- ==== Sys2Proof/Machine/Image.lean ====
section
/-!
DEFINITION. Context images of evicted waves (R118, R124, R210) and the images of absent gangs (R121): where their parts
lie, and the one read and one write that reach them.
-/
namespace Sys2Proof.Machine

/-- The key slot of a job (R23). -/
def State.jobKey (s : State) (job : Nat) : BitVec 10 := BitVec.ofNat 10 (bits (s.reg (jobReg job 0x08)) 9 0)

/-- The size of a context image and of a Lightship image, in bytes (R210, R121). -/
def ctxSize (groups : Nat) : Nat := 0x5000 + groups * 0x1000
def shipSize (len : Nat) : Nat := (len + len / 1024 + 128 + 65535) / 65536 * 65536

/-- The pages of 64 KiB of some bytes of an image that lie in a region of another key. -/
def State.foreignPages (s : State) (job pa n : Nat) : Nat :=
  ((List.range ((pa + n - 1) / 65536 - pa / 65536 + 1)).filter (fun i =>
    s.liveStatus ((pa / 65536 + i) * 65536) (s.jobKey job) == .keyMismatch)).length

/-- Whether accesses of the `n` bytes of an image at a PA can be performed in one step: the die's ports let them, and there is
room for the records of those that meet another key (R26, R32): as many as four accesses to each page, and 64 at most (log 81). -/
def State.imageClear (s : State) (die job pa n : Nat) : Bool :=
  s.rangeClear die pa n &&
    (let k := s.foreignPages job pa n
     k == 0 || s.canRecord die job (min 64 (4 * k)))

/-- The same for some ranges of an image: offsets and lengths. -/
def State.partsClear (s : State) (die job base : Nat) (rs : List (Nat × Nat)) : Bool :=
  rs.all (fun r => s.imageClear die job (base + r.1) r.2)

/-- An access of an image met a region of another key (R26): the record names no wave. Its VA is a free value: the diversion
unit has none (log 81). -/
def State.imgMismatch (s : State) (die job : Nat) (acc : BitVec 2) (st : Status) : State :=
  if st ≠ .keyMismatch then s
  else
    let (v, s) := s.draw
    (s.record { die := die, core := 0, slot := 0, job := job, agent := 5, acc := acc } [⟨v.toNat, 0x26, 7, 0⟩]).2

/-- The parts of `n` bytes at a PA that lie in one line each, and the packets that write them (R37): a WR of whole atoms, else
one WRM for each atom. -/
def lineParts (pa n : Nat) : List (Nat × Nat) :=
  (linesOf pa n).map (fun l => (max pa (l * 128), min (pa + n) (l * 128 + 128) - max pa (l * 128)))
def writeParts (pa n : Nat) : List (Nat × Nat) :=
  ((lineParts pa n).map (fun p =>
    if p.1 % 64 = 0 ∧ p.2 % 64 = 0 then [p]
    else (List.range ((p.1 + p.2 - 1) / 64 - p.1 / 64 + 1)).map (fun i =>
      let a := (p.1 / 64 + i) * 64
      (max p.1 a, min (p.1 + p.2) (a + 64) - max p.1 a)))).flatten

/-- Whether the accesses of some bytes meet nothing but plain memory: the region is live under the key, and no atom holds an
error. -/
def State.plainRange (s : State) (pa n : Nat) (key : BitVec 10) : Bool :=
  s.liveStatus pa key == .ok && s.ctl.flaws.all (fun e => decide (e.atom < pa / 64) || decide ((pa + n - 1) / 64 < e.atom))

/-- The worse of two statuses of the reads of one access. -/
def Status.join (a b : Status) : Status := if a.good then b else a

/-- Read bytes of one region by one RD for each line (R37, R43): the status of the first that fails, and the bytes. Over plain
memory they make one read. -/
def State.rangeRead (s : State) (pa n : Nat) (key : BitVec 10) (o : Origin) : Status × List Byte × State :=
  if s.plainRange pa n key then s.dieRead pa n key [] o
  else
    (lineParts pa n).foldl (fun x p =>
      let (st, bs, s) := x.2.2.dieRead p.1 p.2 key [] o
      (x.1.join st, x.2.1 ++ bs, s)) (.ok, [], s)

/-- Write bytes of one region by their packets (R37, R43, R44). -/
def State.rangeWrite (s : State) (pa : Nat) (bs : List Byte) (key : BitVec 10) (o : Origin) : State :=
  if s.plainRange pa bs.length key then (s.dieWrite pa bs (allBytes bs.length) key [] o).2
  else
    (writeParts pa bs.length).foldl (fun s p =>
      (s.dieWrite p.1 ((bs.drop (p.1 - pa)).take p.2) (allBytes p.2) key [] o).2) s

/-- Read bytes of an image, under the job's key (R120). -/
def State.imgRead (s : State) (die job pa n : Nat) (orig : Nat := 3) : List Byte × State :=
  let (st, bs, s) := s.rangeRead pa n (s.jobKey job) { src := die, job := job, orig := orig }
  (bs, s.imgMismatch die job 0 st)

/-- Write bytes of an image, under the job's key; they bypass the Lens, whose open entries for the lines close (R60,
R120). -/
def State.imgWrite (s : State) (die job pa : Nat) (bs : List Byte) (orig : Nat := 3) : State :=
  if bs.isEmpty then s
  else
    let st := s.liveStatus pa (s.jobKey job)
    let s := s.rangeWrite pa bs (s.jobKey job) { src := die, job := job, orig := orig }
    (s.closeLines pa bs.length).imgMismatch die job 1 st

/-- Write bytes of an image in parts that end at multiples of 64 KiB. -/
def State.imgSave (s : State) (die job pa orig : Nat) : Nat → List Byte → State
  | 0, _ => s
  | fuel + 1, bs =>
    if bs.isEmpty then s
    else
      let n := 65536 - pa % 65536
      (s.imgWrite die job pa (bs.take n) orig).imgSave die job (pa + n) orig fuel (bs.drop n)

/-- Read bytes of an image in such parts: whether some of them were lost (R43), the bytes, and the state. -/
def State.imgLoad (s : State) (die job pa orig : Nat) : Nat → Nat → Bool × List Byte × State
  | 0, _ => (false, [], s)
  | fuel + 1, n =>
    if n = 0 then (false, [], s)
    else
      let k := min n (65536 - pa % 65536)
      let (st, bs, s) := s.rangeRead pa k (s.jobKey job) { src := die, job := job, orig := orig }
      let (bad, rest, s) := s.imgLoad die job (pa + k) orig fuel (n - k)
      (bad || st == .poison || st == .retired, bs ++ rest, s.imgMismatch die job 0 st)

/-! ### Context images (R210) -/

/-- The matrix batch state word (Table 5 of R345), and the state that a word gives. -/
def MatState.word (m : MatState) : Word :=
  BitVec.ofNat 64 (m.next.toNat * 2 ^ 48 + m.faultb.toNat * 2 ^ 32 + m.seq.toNat * 2 ^ 16 + m.ndisc.toNat * 2 ^ 10 +
    (if m.fk then 2 ^ 9 else 0) + (if m.fv then 2 ^ 8 else 0) + m.forig.toNat)
def MatState.ofWord (w : Word) (ops : List TileOp) : MatState where
  next := w.extractLsb' 48 16
  faultb := w.extractLsb' 32 16
  seq := w.extractLsb' 16 16
  ndisc := w.extractLsb' 10 6
  fk := w.getLsbD 9
  fv := w.getLsbD 8
  forig := w.extractLsb' 0 8
  ops := ops

/-- The offset of a scalar register in a context image; none for s0 and the h registers. -/
def ctxScalar (r : BitVec 8) (frag : Nat) : Option Nat :=
  if r.toNat = 0 then none
  else if r.toNat < 176 then some (0x400 + r.toNat * 8)
  else if r.toNat < 192 then some (0x0A00 + frag * 128 + (r.toNat - 176) * 8)
  else some (0x140 + (r.toNat - 192) * 8)

/-- The offset of a lane of a vector register. -/
def ctxVector (r l : Nat) : Nat := 0x5000 + r * 512 + l * 4

/-- Whether some ranges of the context image of a wave, if it is evicted, can be reached now. -/
def State.awayClear (s : State) (uid : Nat) (rs : List (Nat × Nat)) : Bool :=
  match s.away.get? uid with
  | some a => s.partsClear (dieOf a.core) a.ident.job a.image rs
  | none => true

/-- The list of pending faults of a context image (R124). -/
def ctxFaultList : Nat × Nat := (0x0D00, 0x240)

/-- Write a scalar register of an evicted wave's image. -/
def State.imgScalar (s : State) (a : Away) (r : BitVec 8) (frag : Nat) (v : Word) : State :=
  match ctxScalar r frag with
  | some o => s.imgWrite (dieOf a.core) a.ident.job (a.image + o) (bytesOfWord v)
  | none => s

/-- Write a lane of a vector register of an evicted wave's image, and the pair's for a 64-bit type. -/
def State.imgLane (s : State) (a : Away) (t : BitVec 5) (r l : Nat) (v : Word) : State :=
  let s := s.imgWrite (dieOf a.core) a.ident.job (a.image + ctxVector r l) (bytesOfNat 4 v.toNat)
  if is64 t then s.imgWrite (dieOf a.core) a.ident.job (a.image + ctxVector (r + 1) l) (bytesOfNat 4 (v.toNat / 2 ^ 32))
  else s

/-- One reply has landed in a register image; the cluster counts it (R118, R132). -/
def State.diverted (s : State) (a : Away) (key : Nat × Nat) : State :=
  (s.bump (lsReg (clusterOf a.core) 0x10)).outFalls key

/-- A fault of an absent wave goes onto the list of its image: 32 entries, then LOST (R124). -/
def State.absentFault (s : State) (a : Away) (f : AbsentFault) : State :=
  let die := dieOf a.core
  let (bs, s) := s.imgRead die a.ident.job (a.image + 0x0D00) 8
  let h := wordOfBytes bs
  let n := bits h 5 0
  if n < 32 then
    let s := s.imgWrite die a.ident.job (a.image + 0x0D40 + n * 16) (bytesOfWords [f.word0, f.tval])
    s.imgWrite die a.ident.job (a.image + 0x0D00) (bytesOfWord (setBits h 0 6 (n + 1)))
  else s.imgWrite die a.ident.job (a.image + 0x0D00) (bytesOfWord (setBits h 32 32 (bits h 63 32 + 1)))

/-- Word 0 of an absent fault (R124). -/
def absentWord (seq : BitVec 16) (cause : BitVec 8) (agent : BitVec 3) (group : Nat) : Word :=
  BitVec.ofNat 64 (seq.toNat * 2 ^ 48 + cause.toNat * 2 ^ 40 + agent.toNat * 2 ^ 37 + group % 256 * 2 ^ 29)

/-- Some bytes whose values no rule gives. -/
def State.freeBytes (s : State) (n : Nat) : List Byte × State :=
  ((List.range n).map (fun i => (Config.freeValue (s.free + i)).setWidth 8), { s with free := s.free + n })

/-- Bytes of unspecified value, of a job (R5): each is, as a free value says, the byte that stands in its place, or some byte of
the memory that is live under the job's key; so none carries data of another job or of a destroyed key (log 46). `old` are the
bytes that stand there and are the job's. -/
def State.jobBytes (s : State) (job : Nat) (old : List Byte) : List Byte × State :=
  let key := s.jobKey job
  let pick (p : Byte × Nat) : Byte :=
    let v := (Config.freeValue (s.free + p.2)).toNat
    let at_ := v / 2 % 2 ^ 40
    if v % 2 = 0 ∨ key = 0 ∨ s.liveStatus at_ key ≠ .ok then p.1 else (s.mem.read at_ 1).headD 0
  (old.zipIdx.map pick, { s with free := s.free + old.length })

/-- The bytes that memory holds at a place, where it is live under a job's key; else zeros. -/
def State.ownBytes (s : State) (job pa n : Nat) : List Byte :=
  if s.liveStatus pa (s.jobKey job) = .ok then s.mem.read pa n else List.replicate n 0

/-- Read a range of a gang's scratch: an absent gang's bytes lie in its image once its allocation is freed; those of an
ended gang are unspecified values of its job (log 17). -/
def State.gangRead (s : State) (grid gang off n : Nat) : List Byte × State :=
  match s.gangAlloc grid gang with
  | some (cl, a) => (s.cspRead cl (a.base + off) n, s)
  | none =>
    match s.sched.grids.get? grid with
    | none => s.freeBytes n
    | some g =>
      match (g.gangs.get? gang).bind (fun x => x.image.map (fun p => (x.cluster, p))) with
      | some (cl, p) => s.imgRead (dieOfCluster cl) g.job (p + off) n
      | none => s.jobBytes g.job (List.replicate n 0)

/-- Whether a read of a gang's scratch can be made now (R36, R40): where it lies in an image, the ports must let it. -/
def State.gangClear (s : State) (grid gang off n : Nat) : Bool :=
  match s.gangAlloc grid gang, s.sched.grids.get? grid with
  | none, some g =>
    (match (g.gangs.get? gang).bind (fun x => x.image.map (fun p => (x.cluster, p))) with
     | some (cl, p) => s.imageClear (dieOfCluster cl) g.job (p + off) n
     | none => true)
  | _, _ => true

end Sys2Proof.Machine
end

