-- ==== Sys2Proof/Machine/ScalarMem.lean ====
section
/-!
DEFINITION. Scalar memory instructions: SLD, SST, SLDS, SSTS and SATOM (R293 to R300, R406).
-/
namespace Sys2Proof.Machine

/-- The effective address (R293). -/
def Ctx.ea (c : Ctx) (a : BitVec 8) (lit : Word32) : Word := c.get a + lit.signExtend 64

/-- The size in bytes of an access (R295). -/
def mSize (m : BitVec 8) : Nat := match (mTyp m).toNat with | 0 | 4 => 1 | 1 | 5 => 2 | 2 | 6 => 4 | _ => 8
/-- The element type of Table 9 that a modifier's TYP stands for. -/
def mLaneTyp (m : BitVec 8) : BitVec 5 :=
  match (mTyp m).toNat with
  | 0 => 0x05 | 1 => 0x06 | 2 => 0x07 | 3 => 0x08 | 4 => 0x01 | 5 => 0x02 | 6 => 0x03 | _ => 0x04

/-- ORD of a load is .acq; of a store, .rel; of an atomic, either. -/
def mAcq (m : BitVec 8) : Bool := mOrd m == 1 || mOrd m == 3
def mRel (m : BitVec 8) : Bool := mOrd m == 2 || mOrd m == 3
/-- The memory agents (R133): a wave, with the die of its access; an engine operation, or the operand fetches of an MMA, by a
number of its own, with its issuer and die; the walker of a cluster; the host; a peer device. -/
inductive Agent where
  | wave (i : WaveId) (die : Nat)
  | engine (op : Nat) (i : WaveId) (die : Nat)
  | walker (cluster : Nat)
  | host
  | peer (n : Nat)
  deriving DecidableEq, Repr

/-- The wave that an agent is or that issued it; the die it belongs to. -/
def Agent.wave? : Agent → Option WaveId
  | .wave i _ | .engine _ i _ => some i
  | _ => none
def Agent.die? : Agent → Option Nat
  | .wave _ d | .engine _ _ d => some d
  | .walker cl => some (dieOfCluster cl)
  | _ => none
/-- An engine operation. -/
def Agent.isEngine : Agent → Bool
  | .engine _ _ _ => true
  | _ => false

/-- Whether two names are of one agent: a wave is one agent on whichever die its accesses issue. -/
def Agent.same (a b : Agent) : Bool :=
  match a, b with
  | .wave i _, .wave j _ => i == j
  | .engine m _ _, .engine n _ _ => m == n
  | _, _ => a == b

/-- scope_includes (R136, Table 1): whether scope `sc` of agent `a` includes agent `b`. -/
def scopeIncludes (sc : Nat) (a b : Agent) : Bool :=
  match sc with
  | 0 => a.same b || (a.isEngine != b.isEngine && a.wave?.isSome && a.wave? == b.wave?)
  | 1 => (match a.wave?, b.wave? with | some i, some j => i.grid == j.grid && i.gang == j.gang | _, _ => false)
  | 2 => a.die?.isSome && a.die? == b.die?
  | 3 => b.die?.isSome
  | 4 => true
  | _ => false

/-- The scope is gang or wider. DESIGN CHOICE (log 73): the model lets each of these scopes act as the widest one, so two
accesses whose scopes do not include each other synchronise where R145 leaves a race; `scopeIncludes` is Table 1 of R136. -/
def mWide (m : BitVec 8) : Bool := decide (1 ≤ mScp m)

/-- Whether a scalar access of `n` bytes at `ea` waits before it begins: for a lane acquire of the fragment (R380), lane
accesses of earlier blocks that may touch the same bytes (R138, R139), a release's earlier accesses (R298), a full counter
(R297). -/
def Ctx.accessWaits (c : Ctx) (s : State) (ea : Word) (n : Nat) (store : Bool) (rel wide : Bool) : Bool :=
  c.w.fenced || c.w.acquiring c.frag || s.lanesTouch c.core c.w c.frag ea.toNat n ||
    (rel && wide && !c.w.quiet) || (if store then decide (63 ≤ c.w.stCount) else decide (63 ≤ c.w.ldCount))

/-- A fault of an access's checks that writes no record (R296). -/
def accessFault (cause : BitVec 8) (ea : Word) : Trap := { cause := cause, tval := ea }

/-- A scalar access fails its checks (R296): its trap is taken, a translation cause with its record (R31). -/
def Ctx.failAccess (c : Ctx) (s : State) (cause : BitVec 8) (ea : Word) (acc : BitVec 2) : Result :=
  match s.accessTrap ⟨c.core, c.slot, c.w⟩ ea.toNat cause acc with
  | (some t, s) => .next (s.trapAt c t)
  | (none, s) => .next s

/-- An acquire at gang or wider empties the core's L1 (R54). -/
def State.acquireL1 (s : State) (core : Nat) (acq wide : Bool) : State := if acq && wide then s.emptyL1 core else s

/-- The access of an instruction with its number, as the wave tracks it. -/
def Ctx.mkOut (c : Ctx) (id : Nat) (store : Bool) (d : Dest) (ext clear : Bool) (ea : Word) : Out :=
  ⟨id, store, d, 0, 1, ext, true, ea, 0, false, c.frag, clear, false, none,
    [c.frag]⟩

/-- The wave after an access is sent: tracked, and the thread goes on, or waits at an acquire until its reply has landed
(R298). -/
def Ctx.sent (c : Ctx) (s : State) (o : Out) (acq : Bool) (len : Nat) : State :=
  let w := (c.kept s).w.addOut o
  if acq then c.put s (w.setFrag c.frag { c.f with wait := .landing o.id len }) else c.complete s w len

/-- A load that is answered at once with a value: the destination is written and the thread goes on. -/
def Ctx.loaded (c : Ctx) (s : State) (d m : BitVec 8) (v : Word) (len : Nat) : Result :=
  .next (c.finish (s.acquireL1 c.core (mAcq m) (mWide m)) d (extendElem (mLaneTyp m) (mSize m) v) len)

/-- A load of the global, peer or host window (R294, R52). DESIGN CHOICE (log 74): of the values that R145 allows a read
that races, it returns the one that the L1 or memory holds as the steps have interleaved. -/
def Ctx.loadFar (c : Ctx) (s : State) (d m : BitVec 8) (ea : Word) (len : Nat) : Result :=
  let va := ea.toNat
  let n := mSize m
  match s.waveXlate ⟨c.core, c.slot, c.w⟩ va 0 with
  | (.wait, s) => .next s
  | (.trap t, s) => trapOr s c t
  | (.ok (pa, leaf), s) =>
    if s.rangeLocked c.w va n false then trapOr s c (accessFault 0x43 ea)
    else
      let s := s.acquireL1 c.core (mAcq m) (mWide m)
      let key := bits leaf 60 51
      let job := c.w.ident.job
      let cv := if mOrd m = 2 ∧ c.w.cv.mem then some (cvKey c.core c.w) else none
      let el : Elem := ⟨0, va, pa, n, 0, 0⟩
      let (id, s) := s.newId
      let u : User := ⟨c.uid, id, [el], .scalar d c.frag, mLaneTyp m, cv, c.slot⟩
      let global := decide (windowOf va = .global)
      match (if global then s.l1Find c.core (pa / 128) (BitVec.ofNat 10 key) job else none) with
      | some l => c.loaded s d m (BitVec.ofNat 64 (natOfBytes (lineBytes l.data (pa % 128) n))) len
      | none =>
        let s := c.sent s (c.mkOut id false (.scalar d c.frag) (!global) (mAcq m && mWide m) ea) (mAcq m) len
        .next (if global then s.askLine c.core c.slot job key (pa / 128) va u
          else s.askRemote c.core c.slot job key 0 .rd 0 u el)

/-- The window checks of SLD and SST on an untranslated window (R8, R294): the cause, if one is raised. -/
def windowCause (w : Window) (sup inside : Bool) : Option (BitVec 8) :=
  if !inside then some 0x20
  else match w with
    | .queues | .mgmt => if sup then none else some 0x21
    | _ => none

/-- Bytes of the management window (R406). -/
def State.mgmtRange (s : State) (off n : Nat) : List Byte :=
  (List.range n).map (fun i => ((s.mgmtBytes (off + i) 1).head?).getD 0)

/-- Whether a wave may read every management register that an access touches (R215). -/
def State.mgmtReadable (s : State) (job off n : Nat) : Bool :=
  waveMayRead s job (off / 8 * 8) && waveMayRead s job ((off + n - 1) / 8 * 8)

/-- SLD (R293 to R298). -/
def Ctx.load (c : Ctx) (s : State) (d m : BitVec 8) (ea : Word) (len : Nat) : Result :=
  let va := ea.toNat
  let n := mSize m
  let inside := inWindow va n
  if c.accessWaits s ea n false false false then .next s
  else
    match windowOf va with
    | .global | .peer | .host =>
      if !inside then c.failAccess s 0x20 ea 0
      else if va % n ≠ 0 then trapOr s c (accessFault 0x04 ea)
      else c.loadFar s d m ea len
    | .light =>
      if !inside then c.failAccess s 0x20 ea 0
      else c.loaded s d m (BitVec.ofNat 64 (natOfBytes (s.lightBytes (va % 2 ^ 52) n))) len
    | .queues =>
      match windowCause .queues c.w.trap.sup inside with
      | some k => c.failAccess s k ea 0
      | none => c.loaded s d m 0 len
    | .mgmt =>
      match windowCause .mgmt c.w.trap.sup inside with
      | some k => c.failAccess s k ea 0
      | none =>
        if s.mgmtReadable c.w.ident.job (va % 2 ^ 52) n then
          c.loaded s d m (BitVec.ofNat 64 (natOfBytes (s.mgmtRange (va % 2 ^ 52) n))) len
        else c.failAccess s 0x21 ea 0
    | _ => c.failAccess s 0x20 ea 0

/-- A store to the global, peer or host window (R53, R294). -/
def Ctx.storeFar (c : Ctx) (s : State) (d m : BitVec 8) (ea : Word) (len : Nat) : Result :=
  let va := ea.toNat
  let n := mSize m
  match s.waveXlate ⟨c.core, c.slot, c.w⟩ va 1 with
  | (.wait, s) => .next s
  | (.trap t, s) => trapOr s c t
  | (.ok (pa, leaf), s) =>
    if s.rangeLocked c.w va n true then trapOr s c (accessFault 0x43 ea)
    else
      let s := s.markDirty c.core c.w.ident.job va
      let key := bits leaf 60 51
      let el : Elem := ⟨0, va, pa, n, c.get d, 0⟩
      let (id, s) := s.newId
      let u : User := ⟨c.uid, id, [el], .none, mLaneTyp m, none, c.slot⟩
      let global := decide (windowOf va = .global)
      let s := c.sent s (c.mkOut id true .none (!global) false ea) false len
      .next (if global then s.askStore c.core c.slot c.w.ident.job key u (pa / 64) [el]
        else s.askRemote c.core c.slot c.w.ident.job key 0 .wr 1 u el)

/-- SST (R293 to R298, R184, R406). -/
def Ctx.store (c : Ctx) (s : State) (d m : BitVec 8) (ea : Word) (len : Nat) : Result :=
  let va := ea.toNat
  let n := mSize m
  let inside := inWindow va n
  let off := va % 2 ^ 52
  if c.accessWaits s ea n true (mRel m) (mWide m) then .next s
  else
    match windowOf va with
    | .global | .peer | .host =>
      if !inside then c.failAccess s 0x20 ea 1
      else if va % n ≠ 0 then trapOr s c (accessFault 0x04 ea)
      else c.storeFar s d m ea len
    | .light => c.failAccess s (if inside then 0x21 else 0x20) ea 1
    | .queues =>
      match windowCause .queues c.w.trap.sup inside with
      | some k => c.failAccess s k ea 1
      | none =>
        let t := s.queueStore (off / 4096) (off % 4096) (bytesOfNat n (c.get d).toNat) (some c.w.ident.job)
        .next ((c.kept t).skip t len)
    | .mgmt =>
      match windowCause .mgmt c.w.trap.sup inside with
      | some k => c.failAccess s k ea 1
      | none =>
        if n ≠ 8 ∨ off % 8 ≠ 0 then c.failAccess s 0x20 ea 1
        else if off = jobReg c.w.ident.job 0x20 then .next (c.skip (s.mgmtPlain off (c.get d)) len)
        else c.failAccess s 0x21 ea 1
    | _ => c.failAccess s 0x20 ea 1

/-- The checks of a scratch access (R296, R299): the place, or a cause. -/
def Ctx.scratchPlace (c : Ctx) (s : State) (ea : Word) (n : Nat) (store : Bool) : Except (BitVec 8) (Nat × Nat) :=
  let va := ea.toNat
  if windowOf va ≠ .scratch then
    .error (if store && windowOf va == .light && inWindow va n then 0x21
      else if (windowOf va == .queues || windowOf va == .mgmt) && inWindow va n && !c.w.trap.sup then 0x21 else 0x20)
  else if !inWindow va n then .error 0x20
  else if va % n ≠ 0 then .error 0x31
  else
    match s.ownScratch c.w va n with
    | none => .error 0x30
    | some p => if s.rangeLocked c.w va n store then .error 0x43 else .ok p

/-- SLDS (R299): performed at the line. -/
def Ctx.loadScratch (c : Ctx) (s : State) (d m : BitVec 8) (ea : Word) (len : Nat) : Result :=
  let n := mSize m
  if c.accessWaits s ea n false false false then .next s
  else
    match c.scratchPlace s ea n false with
    | .error k => c.failAccess s k ea 0
    | .ok (cl, a) => c.loaded s d m (BitVec.ofNat 64 (natOfBytes (s.cspRead cl a n))) len

/-- SSTS (R299): performed at the line. -/
def Ctx.storeScratch (c : Ctx) (s : State) (d m : BitVec 8) (ea : Word) (len : Nat) : Result :=
  let n := mSize m
  if c.accessWaits s ea n true (mRel m) (mWide m) then .next s
  else
    match c.scratchPlace s ea n true with
    | .error k => c.failAccess s k ea 1
    | .ok (cl, a) => .next (c.skip (s.cspWrite cl a (bytesOfNat n (c.get d).toNat)) len)

/-- An atomic to the global, peer or host window (R300, R53). -/
def Ctx.atomFar (c : Ctx) (s : State) (d m : BitVec 8) (aop : Nat) (x k ea : Word) : Result :=
  let va := ea.toNat
  let n := mSize m
  match s.waveXlate ⟨c.core, c.slot, c.w⟩ va 2 with
  | (.wait, s) => .next s
  | (.trap t, s) => trapOr s c t
  | (.ok (pa, leaf), s) =>
    if s.rangeLocked c.w va n true then trapOr s c (accessFault 0x43 ea)
    else
      let s := (s.acquireL1 c.core (mAcq m) (mWide m)).markDirty c.core c.w.ident.job va
      let key := bits leaf 60 51
      let el : Elem := ⟨0, va, pa, n, x, k⟩
      let (id, s) := s.newId
      let u : User := ⟨c.uid, id, [el], .scalar d c.frag, mLaneTyp m, none, c.slot⟩
      let global := decide (windowOf va = .global)
      let s := c.sent s (c.mkOut id false (.scalar d c.frag) (!global) (mAcq m && mWide m) ea) (mAcq m) 8
      .next (if global then s.askAtomic c.core c.slot c.w.ident.job key aop u el
        else s.askRemote c.core c.slot c.w.ident.job key aop .atm 2 u el)

/-- SATOM (R300): at memory, at a peer or the host, or at a scratch line. -/
def Ctx.atom (c : Ctx) (s : State) (d a m : BitVec 8) (lit : Word32) : Result :=
  let ea := c.get a
  let va := ea.toNat
  let n := mSize m
  let aop := (lit.extractLsb' 0 8).toNat
  let x := c.get (lit.extractLsb' 16 8)
  let k := if aop = 8 then c.get (lit.extractLsb' 8 8) else 0
  let inside := inWindow va n
  if c.accessWaits s ea n false (mRel m) (mWide m) then .next s
  else
    match windowOf va with
    | .global | .peer | .host =>
      if !inside then c.failAccess s 0x20 ea 2
      else if va % n ≠ 0 then trapOr s c (accessFault 0x04 ea)
      else c.atomFar s d m aop x k ea
    | .scratch =>
      match c.scratchPlace s ea n true with
      | .error k => c.failAccess s k ea 2
      | .ok (cl, p) =>
        let t := mLaneTyp m
        let old := BitVec.ofNat 64 (natOfBytes (s.cspRead cl p n))
        let s := if aopWrites aop t old k then s.cspWrite cl p (bytesOfNat n (aopNew aop t old x k).toNat) else s
        c.loaded s d m old 8
    | .light => c.failAccess s (if inside then 0x21 else 0x20) ea 2
    | .queues | .mgmt => c.failAccess s (if inside && !c.w.trap.sup then 0x21 else 0x20) ea 2
    | _ => c.failAccess s 0x20 ea 2

/-- SLD: scalar load (R293, R294). -/
def execSld (d a m : BitVec 8) (s : State) : Result :=
  scalarOp (.sld d a m) s (fun c => c.load s d m (c.ea a 0) 4)

/-- SLD with a literal offset. -/
def execSldSx (d a m : BitVec 8) (lit : Word32) (s : State) : Result :=
  scalarOp (.sldSx d a m lit) s (fun c => c.load s d m (c.ea a lit) 8)

/-- SST: scalar store (R293, R294). -/
def execSst (d a m : BitVec 8) (s : State) : Result :=
  scalarOp (.sst d a m) s (fun c => c.store s d m (c.ea a 0) 4)

/-- SST with a literal offset. -/
def execSstSx (d a m : BitVec 8) (lit : Word32) (s : State) : Result :=
  scalarOp (.sstSx d a m lit) s (fun c => c.store s d m (c.ea a lit) 8)

/-- SLDS: scalar load from scratch (R299). -/
def execSlds (d a m : BitVec 8) (s : State) : Result :=
  scalarOp (.slds d a m) s (fun c => c.loadScratch s d m (c.ea a 0) 4)

/-- SLDS with a literal offset. -/
def execSldsSx (d a m : BitVec 8) (lit : Word32) (s : State) : Result :=
  scalarOp (.sldsSx d a m lit) s (fun c => c.loadScratch s d m (c.ea a lit) 8)

/-- SSTS: scalar store to scratch (R299). -/
def execSsts (d a m : BitVec 8) (s : State) : Result :=
  scalarOp (.ssts d a m) s (fun c => c.storeScratch s d m (c.ea a 0) 4)

/-- SSTS with a literal offset. -/
def execSstsSx (d a m : BitVec 8) (lit : Word32) (s : State) : Result :=
  scalarOp (.sstsSx d a m lit) s (fun c => c.storeScratch s d m (c.ea a lit) 8)

/-- SATOM: scalar atomic (R300). -/
def execSatom (d a m : BitVec 8) (lit : Word32) (s : State) : Result :=
  scalarOp (.satom d a m lit) s (fun c => c.atom s d a m lit)

end Sys2Proof.Machine
end

