-- ==== Sys2Proof/Machine/Reduce.lean ====
section
/-!
DEFINITION. The drain of a wave's reduction buffer (R148, R238, R327, R387, R388).
-/
namespace Sys2Proof.Machine

/-- Drop the oldest reduction entry of a wave. -/
def Wave.dropRed (w : Wave) : Wave := { w with work := { w.work with red := w.work.red.drop 1 } }

/-- The operation of an entry. -/
def RedEntry.op (e : RedEntry) : Nat := (e.aop.extractLsb' 0 4).toNat

/-- An addition of a wave's buffer is on its way to memory. -/
def Wave.redOut (w : Wave) : Bool := w.work.outs.any (·.red)

/-- Whether a core's drain unit performs the entries of another wave, which come first (R238). -/
def State.drainBusy (s : State) (core uid : Nat) : Bool :=
  s.drains.any (fun d => d.core == core) ||
    s.waves.any (fun e => e.1 / Config.slots == core && e.2.ident.uid != uid && e.2.sched.draining && !e.2.sched.halted)

/-- The drain unit turns to a wave, or leaves it. -/
def Wave.drains (w : Wave) (b : Bool) : Wave := { w with sched := { w.sched with draining := b } }

/-- Perform the reduction entries of a wave as atomics in ascending ORDER, `n` at most (R238): a scratch entry at its line, a
global one by an ATM, each once the one before it has been performed. A translation fault keeps its entry and those after it
(R388). `lane`: the drain is forced by a VRED. -/
def State.sendRed (s : State) (core slot : Nat) (lane : Bool) : Nat → Got Unit × State
  | 0 => (.ok (), s)
  | n + 1 =>
    match s.wave? core slot with
    | none => (.ok (), s)
    | some w =>
      match w.work.red with
      | [] => (.ok (), if w.sched.draining then s.setWave core slot (w.drains false) else s)
      | e :: _ =>
        let va := e.va.toNat
        let size := aopSize e.typ
        if w.redOut || s.drainBusy core w.ident.uid then (.wait, s)
        else
          let w := w.drains true
          let s := s.setWave core slot w
          if windowOf va = .scratch then
            match s.ownScratch w va size with
            | none => State.sendRed (s.setWave core slot w.dropRed) core slot lane n
            | some (cl, a) =>
              let old := BitVec.ofNat 64 (natOfBytes (s.cspRead cl a size))
              let s := s.cspWrite cl a (bytesOfNat size (aopNew e.op e.typ old e.value 0).toNat)
              State.sendRed (s.setWave core slot w.dropRed) core slot lane n
          else
            match s.waveXlate ⟨core, slot, w⟩ va 2 0 lane with
            | (.wait, s) => (.wait, s)
            | (.trap t, s) => (.trap t, s.updWaveAt core slot (·.drains false))
            | (.ok (pa, leaf), s) =>
              let s := s.markDirty core w.ident.job va
              let (id, s) := s.newId
              let el : Elem := ⟨0, va, pa, size, e.value, 0⟩
              let u : User := ⟨w.ident.uid, id, [el], .none, e.typ, none, slot⟩
              let o : Out := ⟨id, true, .none, 0, 1, false, false, e.va, 0, false, 0, false, true, none, []⟩
              let s := s.updWaveAt core slot (fun w => w.dropRed.addOut o)
              State.sendRed (s.askAtomic core slot w.ident.job (bits leaf 60 51) e.op u el) core slot lane n

/-- A flush point (R148): the entries drain, and it waits until every addition has been performed. -/
def State.flushRed (s : State) (core slot : Nat) : Got Unit × State :=
  match s.sendRed core slot false 129 with
  | (.ok (), s) =>
    match s.wave? core slot with
    | some w => if w.redOut then (.wait, s) else (.ok (), s)
    | none => (.ok (), s)
  | r => r

/-! ### Entries of waves that have ended (R168, R214) -/

/-- The image bytes of an absent gang's scratch that an access names (R122): the cluster of its diversion unit, the job and the
PA. -/
def State.scratchImage (s : State) (grid va n : Nat) : Option (Nat × Nat × Nat) :=
  match s.sched.grids.get? grid with
  | none => none
  | some g =>
    match g.gangs.get? (scratchGang va) with
    | none => none
    | some x => if x.len < scratchOff va + n then none else x.image.map (fun p => (x.cluster, g.job, p + scratchOff va))

/-- Perform the oldest entry of an ended wave: whether it is done, or waits for a walk, a port, room for a record, or the end
of a save. An entry for scratch of a gang that is absent by now is performed on the image (R122); one whose scratch is gone, or
whose address faults, is dropped; a fault writes its record (R31). -/
def State.drainOne (s : State) (d : Drain) (e : RedEntry) : Bool × State :=
  let va := e.va.toNat
  let size := aopSize e.typ
  let new (bs : List Byte) : List Byte :=
    bytesOfNat size (aopNew e.op e.typ (BitVec.ofNat 64 (natOfBytes bs)) e.value 0).toNat
  if windowOf va = .scratch then
    match s.scratchAt d.ident.grid va size, s.scratchHome d.ident.grid (scratchGang va) with
    | some (cl, a), _ => (true, s.cspWrite cl a (new (s.cspRead cl a size)))
    | none, .away =>
      match s.scratchImage d.ident.grid va size with
      | none => (false, s)
      | some (cl, job, pa) =>
        if !s.imageClear (dieOfCluster cl) job pa size then (false, s)
        else
          let (bs, s) := s.imgRead (dieOfCluster cl) job pa size
          (true, s.imgWrite (dieOfCluster cl) job pa (new bs))
    | none, _ => (true, s)
  else
    let r : RecordOf := { die := dieOf d.core, core := d.core, slot := d.slot, job := d.ident.job, agent := 0, acc := 2 }
    if !s.canRecord r.die r.job 1 then (false, s)
    else
      match s.xlateNow d.core d.slot d.ident.job va 2 true (.drain d.ident.uid) with
      | (.miss, t) => (false, t)
      | (.fault k l x, t) => (true, ((t.forget (.drain d.ident.uid)).record r [⟨va, k, l, x⟩]).2)
      | (.ok pa leaf, t) =>
        if !t.portsClear r.die pa size then (false, t)
        else
          let o : Origin := { src := r.die, job := r.job, orig := 0 }
          let (st, _, t) := t.dieAtomic pa e.op e.typ e.value 0 (BitVec.ofNat 10 (bits leaf 60 51)) [] o
          let t := t.closeLine pa
          (true, if st = .keyMismatch then (t.record { r with agent := 5 } [⟨va, 0x26, 7, 0⟩]).2 else t)

/-- An entry of each ended wave whose turn it is on its core is performed in a clock (log 92). -/
def State.tickDrains (s : State) : State :=
  s.drains.foldl (fun s d =>
    match d.entries with
    | [] => s
    | e :: rest =>
      let keep (s : State) (d : Drain) : State := { s with drains := s.drains ++ [d] }
      if s.drains.any (fun x => x.core == d.core) then keep s d
      else
        match s.drainOne d e with
        | (false, s) => keep s d
        | (true, s) => if rest.isEmpty then s else keep s { d with entries := rest })
    { s with drains := [] }

/-- The executing instruction's context, read again after the state changed. -/
def Ctx.again (c : Ctx) (s : State) : Ctx := (s.ctx).getD c

/-- A VRED of an earlier ISSUE has not executed (R327). -/
def Wave.redAhead (w : Wave) : Bool := w.laneAll.any (fun i => i.opc == 0x241)

/-- Run `k` after a flush point: until then the instruction waits, or traps (R327, R388). -/
def Ctx.afterFlush (c : Ctx) (s : State) (k : Ctx → State → Result) : Result :=
  if c.w.redAhead then .next s
  else
    match s.flushRed c.core c.slot with
    | (.ok (), s) => k (c.again s) s
    | (.wait, s) => .next s
    | (.trap t, s) => trapOr s (c.again s) t

/-- FLUSHRED (R327). -/
def execFlushred (s : State) : Result :=
  scalarOp .flushred s (fun c => c.afterFlush s (fun c s => .next (c.skip s 4)))

end Sys2Proof.Machine
end

