-- ==== Sys2Proof/Machine/Barrier.lean ====
section
/-!
DEFINITION. Barrier objects (R80 to R86): one function for each operation of Table 4 on the 32 bytes, the completion
step, and the waking of waiters.
-/
namespace Sys2Proof.Machine

/-- A barrier object (Table 3); `rsv` holds whether every reserved field is 0. -/
structure Bar where
  phase  : Nat
  expa   : Nat
  arr    : Nat
  expb   : Nat
  landed : Nat
  wcnt   : Nat
  inv    : Bool
  ext    : Bool
  v      : Bool
  rsv    : Bool
  deriving DecidableEq, Repr

/-- The object that 32 bytes hold. -/
def Bar.ofBytes (bs : List Byte) : Bar :=
  let ws := wordsOfBytes 4 bs
  let w0 := wordAt ws 0
  let w1 := wordAt ws 1
  let w2 := wordAt ws 2
  let w3 := wordAt ws 3
  ⟨bits w0 63 32, bits w0 31 16, bits w0 15 0, bits w1 47 0, bits w2 47 0, bits w3 31 23, w3.getLsbD 3, w3.getLsbD 2,
    w3.getLsbD 0, bits w1 63 48 == 0 && bits w2 63 48 == 0 && bits w3 63 32 == 0 && bits w3 22 4 == 0 && !w3.getLsbD 1⟩

/-- The 32 bytes of an object, its reserved fields 0. DESIGN CHOICE (log 75): a BARWAIT that would raise WCNT past its 9 bits
leaves it modulo 512; R84 does not say. -/
def Bar.bytes (b : Bar) : List Byte :=
  bytesOfWords [BitVec.ofNat 64 (b.phase * 2 ^ 32 + b.expa * 2 ^ 16 + b.arr), BitVec.ofNat 64 b.expb,
    BitVec.ofNat 64 b.landed,
    BitVec.ofNat 64 (b.wcnt % 512 * 2 ^ 23 + (if b.inv then 8 else 0) + (if b.ext then 4 else 0) + (if b.v then 1 else 0))]

/-- Well formed (R81). -/
def Bar.good (b : Bar) : Bool := b.v && b.rsv && b.expa != 0

/-- The completion step (R82). -/
def Bar.complete (b : Bar) : Bar :=
  if b.inv || b.expa == 0 then b
  else if b.expa ≤ b.arr ∧ b.expb ≤ b.landed then
    { b with
      phase := (b.phase + b.arr / b.expa) % 2 ^ 32
      arr := b.arr % b.expa
      landed := b.landed - b.expb
      expb := 0 }
  else b

/-- Whether phase `n` has completed (R84). -/
def Bar.passed (b : Bar) (n : Nat) : Bool :=
  let d := (b.phase + 2 ^ 32 - n % 2 ^ 32) % 2 ^ 32
  decide (1 ≤ d) && decide (d ≤ 2 ^ 31)

/-- What BARWAIT and BARPH return (R84, R314). -/
def Bar.result (b : Bar) : Word := BitVec.ofNat 64 ((if b.inv then 2 ^ 32 else 0) + b.phase)

/-- BARINIT: busy, a bad operand, or the new object (Table 4). -/
def Bar.init (b : Bar) (a n : Nat) (ext : Bool) : Except (BitVec 8) Bar :=
  if 0 < b.wcnt ∨ (!b.inv ∧ b.landed < b.expb) then .error 0x32
  else if a = 0 ∨ 2 ^ 48 ≤ n then .error 0x33
  else .ok (Bar.complete ⟨0, a, 0, n, 0, 0, false, ext, true, true⟩)

/-- An operation other than BARINIT meets an object that is not well formed; on one that is invalidated it changes nothing:
none (R81, R83). -/
def Bar.guard (b : Bar) (f : Bar → Except (BitVec 8) Bar) : Except (BitVec 8) (Option Bar) :=
  if b.inv then .ok none else if !b.good then .error 0x33 else (f b).map some

/-- BARARR (Table 4). -/
def Bar.arrive (b : Bar) (n : Nat) : Except (BitVec 8) (Option Bar) :=
  b.guard (fun b => if 65535 < b.arr + n then .error 0x33 else .ok { b with arr := b.arr + n }.complete)

/-- BAREXP (Table 4). -/
def Bar.expect (b : Bar) (n : Nat) : Except (BitVec 8) (Option Bar) :=
  b.guard (fun b => if 2 ^ 48 ≤ b.expb + n then .error 0x33 else .ok { b with expb := b.expb + n }.complete)

/-- A landing (Table 4); none: it is dropped. -/
def Bar.land (b : Bar) (n : Nat) : Option Bar :=
  if b.inv || !b.good then none else some { b with landed := min (b.landed + n) (2 ^ 48 - 1) }.complete

/-- BARINV (R83). -/
def Bar.invalidate (b : Bar) : Except (BitVec 8) Bar :=
  if !b.inv && !b.good then .error 0x33 else .ok { b with inv := true, arr := 0, expb := 0, landed := 0, wcnt := 0 }

/-! ### Objects in scratch -/

/-- The object at an address of a cluster's scratch. -/
def State.bar (s : State) (cl a : Nat) : Bar := Bar.ofBytes (s.cspRead cl a 32)

/-- Engine operations in flight that have landed at an object (R316). -/
def State.landedOps (s : State) (grid gang off : Nat) : List Nat :=
  (s.engines.filter (fun e => e.2.ident.grid == grid && e.2.landed.contains (gang, off))).map (fun e => e.1)

/-- Wake each waiter of an object whose phase has completed, or every waiter if it is invalidated (R82, R83): WCNT falls,
and the waiter takes the result as the object `b` leaves it. -/
def State.wakeBar (s : State) (cl a grid gang off : Nat) (b : Bar) : State :=
  let ops := s.landedOps grid gang off
  let wakes (f : Frag) : Bool := (match f.wait with
    | .barrier ea n _ _ => decide (scratchOff ea = off) && (b.inv || b.passed n.toNat)
    | _ => false)
  let mine (w : Wave) : Bool := w.ident.grid == grid && w.ident.gang == gang
  let woken := (s.waves.map (fun w => if mine w.2 then (w.2.frags.filter (fun f => wakes f.2)).length else 0)).foldl (· + ·) 0
  let wake (f : Frag) : Frag := (match f.wait with
    | .barrier _ _ d wide => if wakes f then { f with wait := .barrierDone d b.result ops wide } else f
    | _ => f)
  if woken = 0 then s
  else
    let s := s.cspWrite cl a { b with wcnt := b.wcnt - woken }.bytes
    { s with waves := s.waves.mapAll (fun _ w => if mine w then { w with frags := w.frags.mapAll (fun _ f => wake f) } else w) }

/-- Put an object back, and wake waiters (R82, R83). -/
def State.putBar (s : State) (cl a grid gang off : Nat) (b : Bar) : State :=
  (s.cspWrite cl a b.bytes).wakeBar cl a grid gang off b

/-- An operation leaves the object as it was, and the completion step runs, waking each waiter whose phase has completed, by
whatever store it was (R82, R85). -/
def State.runBar (s : State) (cl a grid gang off : Nat) (b : Bar) : State :=
  if b.inv then s
  else if b.complete = b then s.wakeBar cl a grid gang off b
  else s.putBar cl a grid gang off b.complete

/-- A landing at an object (R82): whether it was taken, and the state. -/
def State.landAt (s : State) (cl a grid gang off n : Nat) : Bool × State :=
  match (s.bar cl a).land n with
  | none => (false, s)
  | some b => (true, s.putBar cl a grid gang off b)

end Sys2Proof.Machine
end

