-- ==== Sys2Proof/Machine/Sync.lean ====
section
/-!
DEFINITION. WAIT, FENCE and the barrier instructions (R312 to R316), with the events that end their waits.
-/
namespace Sys2Proof.Machine

/-! ### Blocking waits and convoy membership (R64, R206) -/

/-- A user-mode blocking wait begins: the wave's membership is parked (R64). -/
def State.parkWait (s : State) (w : Wave) : State := if w.trap.sup then s else s.park w.ident.uid

/-- The fragment waits, and the wave parks if the wait is a blocking point. -/
def Ctx.block (c : Ctx) (s : State) (w : Wave) (wt : Wait) (blocking : Bool) : State :=
  let s := c.put s (w.setFrag c.frag { c.f with wait := wt })
  if blocking then s.parkWait w else s

/-! ### WAIT (R312) -/

/-- CP: engine operations in flight; TL: tile operations. -/
def State.cpCount (s : State) (uid : Nat) : Nat := (s.engines.filter (fun e => e.2.uid == uid)).length
def Wave.tlCount (w : Wave) : Nat := w.mat.ops.length

/-- Whether the counters lie within four limits. -/
def State.within (s : State) (w : Wave) (ld st cp tl : BitVec 6) : Bool :=
  decide (min 63 w.ldCount ≤ ld.toNat) && decide (min 63 w.stCount ≤ st.toNat) &&
    decide (min 63 (s.cpCount w.ident.uid) ≤ cp.toNat) && decide (min 63 w.tlCount ≤ tl.toNat)

/-- A deferred trap as a trap. -/
def Deferred.trap (d : Deferred) : Trap :=
  { cause := d.cause, tval := d.tval, h2 := d.h2, mask := d.mask, lpc := if d.lane then some d.lpc else none, taken := some d }

/-- The oldest deferred trap of the wave (R111, R297, R379), as its EXIT takes it. -/
def Wave.oldestTrap (w : Wave) : Option Trap := w.work.deferred.head?.map (·.trap)

/-- Whether a WAIT with limits `ld` and `st` covers the access that a deferred trap comes from (R297, R379): with the failed
accesses of its class still to be answered, it would wait (log 76). A COPYFAULT is due at any WAIT (R111). -/
def Wave.covers (w : Wave) (ld st : Nat) (d : Deferred) : Bool :=
  let failed (b : Bool) : Nat := (w.work.deferred.filter (fun x => x.out != 0 && x.store == b)).length
  d.out == 0 || (if d.store then decide (st < w.stCount + failed true) else decide (ld < w.ldCount + failed false))

/-- The oldest deferred trap that is due at a WAIT (R312). -/
def Wave.dueTrap (w : Wave) (ld st : BitVec 6) : Option Trap :=
  (w.work.deferred.find? (w.covers ld.toNat st.toNat)).map (·.trap)

/-- WAIT: takes a due trap, completes within its limits, or waits; it blocks while LD exceeds its limit (R206). -/
def execWait (l t c k : BitVec 6) (s : State) : Result :=
  scalarOp (.wait l t c k) s (fun x =>
    if x.w.laneAll.any (·.memory) then .next s
    else
      match x.w.dueTrap l t with
      | some tr => trapOr s x tr
      | none =>
        if s.within x.w l t c k then .next (x.endBlock (x.skip s 4))
        else .next (x.block s x.w (.counters l t c k) (decide (l.toNat < x.w.ldCount))))

/-- The wave, fragment and place of an event that concerns a waiting fragment of a wave that may go on. -/
def State.waiter (s : State) (core slot frag : Nat) : Option Ctx :=
  match s.wave? core slot with
  | none => none
  | some w =>
    match w.frags.get? frag with
    | none => none
    | some f =>
      if w.sched.halted || (w.trap.sup && frag != w.trap.slot) then none
      else some ⟨core, slot, frag, w, f⟩

/-- WAIT_COMPLETE: a waiting WAIT takes a trap that has become due, or completes once its counters lie within their
limits (R312); its wave leaves the parked state when LD no longer holds it. -/
def execWaitComplete (core slot frag : Nat) (s : State) : Result :=
  match s.waiter core slot frag with
  | none => .next s
  | some x =>
    match x.f.wait with
    | .counters l t c k =>
      match x.w.dueTrap l t with
      | some tr => trapOr s x tr
      | none =>
        if s.within x.w l t c k then .next (x.endBlock (x.skip s 4))
        else if x.w.ldCount ≤ l.toNat then .next (s.unpark x.uid)
        else .next s
    | _ => .next s

/-! ### FENCE (R313) -/

/-- FENCE: the thread waits until the earlier accesses its kind covers have landed or been performed; an acquire at gang
or wider then empties the L1. -/
def execFence (o : BitVec 2) (sc : BitVec 3) (s : State) : Result :=
  scalarOp (.fence o sc) s (fun c =>
    let acq := o == 1 || o == 3
    let rel := o == 2 || o == 3
    if c.w.laneAll.any (·.memory) || (acq && decide (0 < c.w.ldCount)) || (rel && !c.w.quiet) then .next s
    else .next (c.skip (s.acquireL1 c.core acq (decide (1 ≤ sc))) 4))

/-! ### Barrier instructions (R314 to R316) -/

/-- Where a barrier instruction's object lies. -/
inductive BarPlace where
  /-- the checks of R314 fail with a cause -/
  | bad (cause : BitVec 8)
  /-- resident scratch -/
  | here (cl a : Nat)
  /-- a gang of the grid that is absent (R122) -/
  | away (gang : Nat)
  /-- a gang of the grid that has ended (R130) -/
  | gone
  deriving DecidableEq, Repr

/-- The checks 1 to 3 of R314; `own`: only the wave's own gang may be named (R81). -/
def State.barPlace (s : State) (w : Wave) (ea : Word) (own : Bool) : BarPlace :=
  let va := ea.toNat
  if windowOf va ≠ .scratch then .bad 0x20
  else if va % 32 ≠ 0 then .bad 0x31
  else if va / 4294967296 % 1048576 ≠ 0 ∨ (own ∧ scratchGang va ≠ w.ident.gang) then .bad 0x30
  else
    match s.gangLen w.ident.grid (scratchGang va) with
    | none => .bad 0x30
    | some n =>
      if n < scratchOff va + 32 then .bad 0x30
      else
        match s.scratchHome w.ident.grid (scratchGang va) with
        | .here cl base => .here cl (base + scratchOff va)
        | .away => .away (scratchGang va)
        | .gone => .gone

/-- A barrier instruction waits, as a release at gang or wider, until every earlier access has been performed, and for
lane acquires of its fragment; at scope wave for earlier accesses to the object's bytes (R315, R380). -/
def Ctx.barWaits (c : Ctx) (s : State) (ea : Word) (release : Bool) : Bool :=
  c.w.acquiring c.frag || s.lanesTouch c.core c.w c.frag ea.toNat 32 || (release && !c.w.quiet)

/-- Arrivals that wait at a gang's diversion point. -/
def State.arrivalCount (s : State) (grid gang : Nat) : Nat :=
  (s.arrivals.filter (fun a => a.grid == grid && a.gang == gang)).length

/-- Whether a gang's diversion point has room for an arrival: in HOLD and RESTORE 64 queue there (R123). -/
def State.roomAt (s : State) (grid gang : Nat) : Bool :=
  (match s.shipOf grid gang with | some (_, _, h) => h.state == 2 | none => false) || decide (s.arrivalCount grid gang < 64)

/-- An operation on an object: performed at the barrier unit, or sent to the diversion unit of an absent gang (R122, R123). -/
def Ctx.barOp (c : Ctx) (s : State) (ea : Word) (own : Bool) (f : Bar → Except (BitVec 8) (Option Bar)) (away : ArrivalOp)
    (len : Nat) : Result :=
  match s.barPlace c.w ea own with
  | .bad k => trapOr s c (accessFault k ea)
  | .gone => .next (c.skip (s.countGone c.w.ident.grid (scratchGang ea.toNat)) len)
  | .here cl a =>
    match f (s.bar cl a) with
    | .error k => trapOr s c (accessFault k ea)
    | .ok none => .next (c.skip s len)
    | .ok (some b) =>
      let s := s.putBar cl a c.w.ident.grid (scratchGang ea.toNat) (scratchOff ea.toNat) b
      .next ((c.again s).skip s len)
  | .away g =>
    if !s.roomAt c.w.ident.grid g then .next s
    else
      let s := { s with arrivals := s.arrivals ++ [⟨c.w.ident.grid, g, c.uid * 4 + c.frag, true, away⟩] }
      .next (c.put s (c.w.setFrag c.frag { c.f with wait := .diverted ea.toNat }))

/-- BARINIT (Table 4). -/
def execBarinit (d a : BitVec 8) (e : BitVec 1) (s : State) : Result :=
  scalarOp (.barinit d a e) s (fun c =>
    let v := c.get d
    let ea := c.get a
    let x := e == 1
    if c.barWaits s ea false then .next s
    else
      c.barOp s ea false (fun b => (b.init (bits v 63 48) (bits v 47 0) x).map some)
        (.barinit (scratchOff ea.toNat) (BitVec.ofNat 64 (bits v 63 48)) (BitVec.ofNat 64 (bits v 47 0)) x) 4)

/-- BARARR: a flush point, then a release, then arrivals (Table 4, R315). -/
def execBararr (d a : BitVec 8) (sc : BitVec 3) (s : State) : Result :=
  scalarOp (.bararr d a sc) s (fun c =>
    let ea := c.get a
    let n := c.get d
    match s.barPlace c.w ea false with
    | .bad k => trapOr s c (accessFault k ea)
    | _ =>
      c.afterFlush s (fun c s =>
        if c.barWaits s ea (decide (1 ≤ sc)) then .next s
        else c.barOp s ea false (fun b => b.arrive n.toNat) (.bararr (scratchOff ea.toNat) n) 4))

/-- BAREXP (Table 4). -/
def execBarexp (d a : BitVec 8) (sc : BitVec 3) (s : State) : Result :=
  scalarOp (.barexp d a sc) s (fun c =>
    if c.barWaits s (c.get a) (decide (1 ≤ sc)) then .next s
    else c.barOp s (c.get a) true (fun b => b.expect (c.get d).toNat) (.bararr 0 0) 4)

/-- BARINV (R83). -/
def execBarinv (a : BitVec 8) (sc : BitVec 3) (s : State) : Result :=
  scalarOp (.barinv a sc) s (fun c =>
    if c.barWaits s (c.get a) (decide (1 ≤ sc)) then .next s
    else c.barOp s (c.get a) true (fun b => b.invalidate.map some) (.bararr 0 0) 4)

/-- BARPH: PHASE and INV, without change (R314). -/
def execBarph (d a : BitVec 8) (s : State) : Result :=
  scalarOp (.barph d a) s (fun c =>
    let ea := c.get a
    if c.barWaits s ea false then .next s
    else
      match s.barPlace c.w ea true with
      | .here cl p =>
        let b := s.bar cl p
        if !b.inv && !b.good then trapOr s c (accessFault 0x33 ea) else .next (c.finish s d b.result 4)
      | .bad k => trapOr s c (accessFault k ea)
      | _ => .next s)

/-- BARWAIT (R84, R316): returns at once, registers and blocks, or waits for operations that have landed there; the
completion step follows (R85). -/
def execBarwait (d a m : BitVec 8) (lit : Word32) (s : State) : Result :=
  scalarOp (.barwait d a m lit) s (fun c =>
    let ea := c.get a
    let n := (c.get (lit.extractLsb' 0 8)).setWidth 32
    let wide := decide (1 ≤ m.extractLsb' 0 3)
    let grid := c.w.ident.grid
    let gang := c.w.ident.gang
    let off := scratchOff ea.toNat
    if c.barWaits s ea false then .next s
    else
      match s.barPlace c.w ea true with
      | .here cl p =>
        let b := s.bar cl p
        if !b.inv && !b.good then trapOr s c (accessFault 0x33 ea)
        else if b.inv || b.passed n.toNat then
          let ops := s.landedOps grid gang off
          let s := s.runBar cl p grid gang off b
          let c := c.again s
          if ops.isEmpty then .next (c.endBlock (c.finish (s.acquireL1 c.core true wide) d b.result 8))
          else .next (c.block s c.w (.barrierDone d b.result ops wide) false)
        else
          let b := { b with wcnt := b.wcnt + 1 }
          let s := s.cspWrite cl p b.bytes
          .next ((c.block s c.w (.barrier ea.toNat n d wide) true).runBar cl p grid gang off b)
      | .bad k => trapOr s c (accessFault k ea)
      | _ => .next s)

/-- BARWAIT_RETURN: a woken BARWAIT returns once the operations that had landed at the object have completed; its wave
leaves the parked state (R316, R67). -/
def execBarwaitReturn (core slot frag : Nat) (s : State) : Result :=
  match s.waiter core slot frag with
  | none => .next s
  | some c =>
    match c.f.wait with
    | .barrierDone d r ops wide =>
      if ops.any (s.engines.has ·) then .next s
      else .next (c.endBlock (c.finish (s.acquireL1 core true wide) d r 8))
    | _ => .next s

end Sys2Proof.Machine
end

