-- ==== Sys2Proof/Machine/Convoy.lean ====
section
/-!
DEFINITION. The convoys (R63 to R72): CVJOIN, CVLEAVE, CVSTEP, and the events that release a held CVSTEP or end a
membership for want of patience.
-/
namespace Sys2Proof.Machine

/-- The number of convoy `id` of a core's die. -/
def convoyKey (core id : Nat) : Nat := dieOf core * 512 + id

/-- What CVSLIP and CVPAT read (Table 4 of R69): the convoy's values while the wave is a member, else those it offers. -/
def State.cvLimits (s : State) (core : Nat) (w : Wave) : BitVec 16 × BitVec 32 :=
  match (if w.cv.mem then s.convoys.get? (cvKey core w) else none) with
  | some c => (c.slip, c.pat)
  | none => (w.cv.slip, w.cv.pat)

/-- The range test of CVJOIN (Table 3, code 5 to 1): the code for a position `p`, on exact integers (R63). -/
def Convoy.outside (c : Convoy) (p : Nat) : Bool :=
  if c.mem.isEmpty then decide (p + c.slip.toNat ≤ c.hwm.toNat)
  else !(decide (c.lead < p + c.slip.toNat) && decide (p ≤ c.lead))

/-- The code of a CVJOIN to convoy `id` (R65). -/
def State.joinCode (s : State) (core : Nat) (w : Wave) (id : Word) : Nat :=
  if 512 ≤ id.toNat then 5
  else if w.cv.mem then 4
  else
    match s.convoys.get? (convoyKey core id.toNat) with
    | none => 0
    | some c =>
      if c.grid ≠ w.ident.grid then 3
      else if 64 ≤ c.mem.length then 2
      else if c.outside w.cv.pos.toNat then 1
      else 0

/-- The lowest member index that is free. -/
def Convoy.freeIndex (c : Convoy) : Nat := ((List.range 64).find? (fun i => !c.mem.has i)).getD 63

/-- The convoy a CVJOIN enters: bound already, or bound by it (R63). -/
def State.joined (s : State) (core : Nat) (w : Wave) (id : Nat) : Convoy :=
  (s.convoys.get? (convoyKey core id)).getD ⟨w.ident.grid, w.cv.slip, w.cv.pat, 0, []⟩

/-- An earlier convoy instruction of the wave is still at the convoy unit: a later one waits for it (R317). -/
def Ctx.cvBusy (c : Ctx) : Bool := !c.w.cvFrags.isEmpty

/-- CVJOIN (R65, R317). -/
def execCvjoin (d a : BitVec 8) (s : State) : Result :=
  scalarOp (.cvjoin d a) s (fun c =>
    let id := c.get a
    let code := s.joinCode c.core c.w id
    if c.cvBusy then .next s
    else if code ≠ 0 then .next (c.finish s d (BitVec.ofNat 64 code) 4)
    else
      let k := s.joined c.core c.w id.toNat
      let i := k.freeIndex
      let p := c.w.cv.pos
      let k' := { k with hwm := (if k.hwm.toNat < p.toNat then p else k.hwm),
                         mem := k.mem.set i ⟨c.uid, p, false, [], 0⟩ }
      let s := { s with convoys := s.convoys.set (convoyKey c.core id.toNat) k' }
      let cv : CvRegs := { c.w.cv with
        id := id.toNat, self := i, mem := true, held := 0, cause := 0, state := 1 }
      let c := { c with w := { c.w with cv := cv } }
      .next (c.finish s d 0 4))

/-- CVLEAVE (R68). -/
def execCvleave (s : State) : Result :=
  scalarOp .cvleave s (fun c =>
    if c.cvBusy then .next s
    else if !c.w.cv.mem then .next (c.skip s 4)
    else .next (c.complete (s.dropMember c.uid) (c.w.leaveConvoy 1 3) 4))

/-- A member's CVSTEP advances (R66). -/
def State.stepMember (s : State) (k : Nat) (c : Convoy) (i : Nat) (m : Member) : State :=
  let p := m.pos + 1
  { s with convoys := s.convoys.set k { c with
      hwm := (if c.hwm.toNat < p.toNat then p else c.hwm)
      mem := c.mem.set i { m with pos := p, idle := 0 } } }

/-- The convoy that a wave is a member of, with its index and entry. -/
def State.membership (s : State) (uid : Nat) : Option (Nat × Convoy × Nat × Member) :=
  match s.convoys.first? (fun _ c => (c.memberOf uid).isSome) with
  | none => none
  | some (k, c) =>
    match c.memberOf uid with
    | none => none
    | some (i, m) => some (k, c, i, m)

/-- CVSTEP (R66). -/
def execCvstep (s : State) : Result :=
  scalarOp .cvstep s (fun x =>
    if x.cvBusy then .next s
    else if !x.w.cv.mem then .next (x.skip s 4)
    else if x.w.cv.pos = BitVec.allOnes 64 then .next (x.skip s 4)
    else
      match s.membership x.uid with
      | none => .next (x.skip s 4)
      | some (k, c, i, m) =>
        if c.mustHold m.pos then .next (x.put s (x.w.setFrag x.frag { x.f with wait := .cvstep }))
        else .next (x.complete (s.stepMember k c i m) { x.w with cv := { x.w.cv with pos := m.pos + 1 } } 4))

/-- The CVSTEP of a wave that waits at the convoy unit is looked at again: it advances once CVPOS − MIN falls below SLIP
(R66, R71), whatever handler runs meanwhile in another fragment; without a membership it completes unchanged. A halt leaves it
pending (Table 5 of R70). A wave has one such CVSTEP at most (R317); of several the lowest fragment's goes. -/
def State.stepAgain (s : State) (core slot : Nat) : State :=
  match s.wave? core slot with
  | none => s
  | some w =>
    match w.frags.find? (fun e => e.2.wait == .cvstep) with
    | none => s
    | some (n, f) =>
      let x : Ctx := ⟨core, slot, n, w, f⟩
      if w.sched.halted then s
      else if !w.cv.mem || w.cv.pos == BitVec.allOnes 64 then x.skip s 4
      else
        match s.membership x.uid with
        | none => x.skip s 4
        | some (k, c, i, m) =>
          if c.mustHold m.pos then s
          else x.complete (s.stepMember k c i m) { w with cv := { w.cv with pos := m.pos + 1 } } 4

/-- CVSTEP_RELEASE: a held CVSTEP advances once it need not wait (R66). A clock's own end looks at every held member as
well (`State.tick`). -/
def execCvstepRelease (core slot : Nat) (s : State) : Result := .next (s.stepAgain core slot)

/-- The members of a convoy that are ejected for want of patience, in ascending index (R67, R71). -/
def State.impatient (s : State) (c : Convoy) : List Nat :=
  if c.mem.any (fun e => s.heldMember c e.2) then
    (c.mem.filter (fun e => !e.2.parked && decide (c.pat.toNat ≤ e.2.idle) && c.min? == some e.2.pos.toNat)).map (fun e => e.1)
  else []

/-- CONVOY_PATIENCE_EJECTION: a member that is not parked, whose IDLE is at least PAT and which stands at MIN while
some member is held, is ejected (R67). A clock's own end ejects such members as well (`State.tick`). -/
def execConvoyPatienceEjection (convoy idx : Nat) (s : State) : Result :=
  match s.convoys.get? convoy with
  | none => .next s
  | some c =>
    match c.mem.get? idx with
    | none => .next s
    | some m =>
      if (s.impatient c).contains idx then .next (s.eject m.uid 2)
      else .next s

end Sys2Proof.Machine
end

