-- ==== Sys2Proof/Machine/Clock.lean ====
section
/-!
DEFINITION. What passes with a clock: CLK, convoy counts (R63, R69), the counts of R207, the watchdogs (R211, R212),
the turns of the die schedulers (R190), the bandwidth window (R192) and the clocks of tree sessions (R94). One step is
one clock (log 3).
-/
namespace Sys2Proof.Machine

/-- A wave with a held CVSTEP: HELD counts, saturating (Table 4 of R69). -/
def Wave.tickHeld (w : Wave) : Wave :=
  if w.cv.mem && !w.sched.halted && !w.cvFrags.isEmpty then
    { w with cv := { w.cv with held := if w.cv.held = BitVec.allOnes 32 then w.cv.held else w.cv.held + 1 } }
  else w

/-- The counts of R207 of a wave whose grid is chosen for eviction. -/
def Wave.tickOver (w : Wave) : Wave :=
  if !w.cvFrags.isEmpty then w
  else { w with sched := { w.sched with overRun := w.sched.overRun + 1, overTrap := w.sched.overTrap.map (· + 1) } }

/-- The fragments that may issue (R171): in a handler its own. -/
def Wave.ready (w : Wave) : List Nat :=
  (w.frags.filter (fun e => e.2.wait == .run && e.2.rcv.isNone && (!w.trap.sup || e.1 == w.trap.slot))).map (fun e => e.1)

/-- A request is held: at its port (R36) or in its slice's intake (R57); one that has joined an entry, while the entry's own
read is. -/
def State.isHeld (s : State) (t : Txn) : Bool :=
  match t.phase with
  | .held _ | .intake _ => true
  | .entry k => (s.txn? k).any (fun x => match x.phase with | .held _ => true | _ => false)
  | _ => false

/-- A requester stalls: a request of some access `f` of the wave is held (R36, R57). -/
def State.stalls (s : State) (w : Wave) (f : Out → Bool) : Bool :=
  w.work.outs.any (fun o => f o &&
    s.net.txns.any (fun e => s.isHeld e.2 && e.2.users.any (fun u => u.uid == w.ident.uid && u.out == o.id)))

/-- The fragments that may issue now: those no access of which has a request held (R36, R57). -/
def State.issuable (s : State) (w : Wave) : List Nat :=
  w.ready.filter (fun n => !s.stalls w (fun o => o.scl && o.frag == n))

/-- The lane stream stalls for a request that is held (R36, R57). -/
def State.laneStalls (s : State) (w : Wave) : Bool := s.stalls w (fun o => !o.scl && !o.red)

/-- The wave waits in this clock (R212): its scalar threads wait or stall, and so does its lane stream. -/
def State.waits (s : State) (w : Wave) : Bool :=
  !w.sched.halted && ((s.issuable w).isEmpty || w.sched.stallS) &&
    (w.lane.queue.isEmpty || w.sched.stallL || s.laneStalls w)

/-- A wait that is external (R211). -/
def State.external (s : State) (w : Wave) : Bool :=
  w.frags.any (fun e => match e.2.wait with
    | .barrier ea _ _ _ => (match s.ownScratch w ea 32 with | some (cl, a) => (s.bar cl a).ext | none => false)
    | .queue q _ => s.queueExt q
    | .counters ld _ _ _ => decide (ld.toNat < w.ldCount) && w.work.outs.any (fun o => !o.store && !o.red && o.ext)
    | _ => false)

/-- The period in force of a job's watchdog, 0 if disabled (Table 3 of R204). -/
def State.wdPeriod (s : State) (job : Nat) : Nat :=
  let v := (s.reg (jobReg job 0x68)).toNat % 2 ^ 32
  if v = 0 then 0 else max v 65536

/-- The count of a grid's watchdog after a clock (R212). -/
def State.tickGrid (s : State) (n : Nat) (g : Grid) : Grid :=
  let mine := s.waves.filter (fun e => e.2.ident.grid == n)
  let away := g.gangs.any (fun e => !e.2.gone.isEmpty)
  let quiet := !mine.isEmpty && !away && !g.moved && mine.all (fun e => s.waits e.2 && !s.external e.2)
  { g with wd := if quiet then g.wd + 1 else 0, moved := false }

/-- Slices whose intake holds a request (LNHOLD, R62). -/
def State.heldSlices (s : State) : List Nat :=
  (s.net.txns.filterMap (fun e => match e.2.phase with | .intake _ => some e.2.stack | _ => none)).eraseDups

/-- Clusters at whose diversion points some arrival is held (LSHOLD, R132): an entry in HOLD or RESTORE. -/
def State.holdingClusters (s : State) : List Nat :=
  (s.clusters.filter (fun c => c.2.ships.any (fun h => (h.2.state == 1 || h.2.state == 3) &&
    s.arrivals.any (fun a => a.grid == h.2.grid && a.gang == h.2.gang)))).map (fun c => c.1)

/-- Copy slots of a core in use (R108). -/
def State.slotsUsed (s : State) (core : Nat) : Nat := (s.engines.filter (fun e => e.2.core == core)).length

/-- Clusters some core of which stalls for lack of a copy slot (CESTALL, R116): a fragment stands at an engine instruction
that found none free, and none is. -/
def State.slotlessClusters (s : State) : List Nat :=
  (s.waves.filterMap (fun e =>
    if !e.2.sched.noSlot.isEmpty && !e.2.sched.halted && decide (256 ≤ s.slotsUsed (e.1 / Config.slots)) then
      some (clusterOf (e.1 / Config.slots))
    else none)).eraseDups

/-- The patience ejections of a clock (R67): each member in turn, against the convoy as the one before has left it. -/
def State.tickPatience (s : State) : State :=
  s.convoys.foldl (fun s e => e.2.mem.foldl (fun s x =>
    match s.convoys.get? e.1 with
    | some c => if (s.impatient c).contains x.1 then s.eject x.2.uid 2 else s
    | none => s) s) s

/-- Every held member is looked at again (R71, step 7), in ascending index of each convoy, against the convoy as the one
before has left it; then the CVSTEPs whose membership has ended complete. -/
def State.tickSteps (s : State) : State :=
  let again (s : State) (uid : Nat) : State :=
    (match s.findWave uid with | some (core, slot, _) => s.stepAgain core slot | none => s)
  let s := s.convoys.foldl (fun s e => e.2.mem.foldl (fun s x => again s x.2.uid) s) s
  s.waves.foldl (fun s e => if e.2.cv.mem then s else again s e.2.ident.uid) s

/-- A grid of this number is chosen for eviction. -/
def State.gridChosen (s : State) (n : Nat) : Bool := (s.sched.grids.get? n).any (·.chosen)

/-- The requests that the engines and the fetchers wait for. -/
def State.awaited (s : State) : List Nat :=
  let ids (f : Option Flight) : List Nat := (f.map (fun f => f.reqs.map (·.id))).getD []
  s.xlate.walks.filterMap (fun e => e.2.req) ++
  (s.engines.map (fun e => ids e.2.flight)).flatten ++
  ((s.waves.map (fun e => e.2.mat) ++ s.away.map (fun e => e.2.mat)).map (fun m => (m.ops.map (fun o => ids o.flight)).flatten)).flatten

/-- Whether one that waited for a walk is still there to take its result. -/
def State.asks (s : State) : Asker → Bool
  | .engine id => s.engines.has id
  | .tiles uid => s.waves.any (fun e => e.2.ident.uid == uid && !e.2.mat.ops.isEmpty) ||
      s.away.any (fun e => e.2.ident.uid == uid && !e.2.mat.ops.isEmpty)
  | .task grid => s.sched.grids.has grid
  | .save uid => s.waves.any (fun e => e.2.ident.uid == uid)
  | .drain uid => s.drains.any (fun d => d.ident.uid == uid)

/-- Replies and failed walks for those that have ended leave with nobody to take them. -/
def State.sweepReplies (s : State) : State :=
  let ids := s.awaited
  { s with
    net := { s.net with txns := s.net.txns.keep (fun id t => !(t.owner && t.phase == .replied && !ids.contains id)) }
    xlate := { s.xlate with failed := s.xlate.failed.filter (fun e => s.asks e.1) } }

/-- A clock passes; of what the convoys do in it, the patience ejections and the second look at held members come last
(R71). -/
def State.tick (s : State) : State :=
  let s := s.sweepLines.sweepReplies
  let s := s.heldSlices.foldl (fun s n => s.bump (lensReg n 0x28)) s
  let s := s.holdingClusters.foldl (fun s n => s.bump (lsReg n 0x18)) s
  let s := s.slotlessClusters.foldl (fun s n => s.bump (ceReg n 0x40)) s
  let s := s.tickDrains
  let clk := s.clk + 1
  let grids := s.sched.grids.mapAll (fun n g => s.tickGrid n g)
  let due := if clk.toNat % 64 = 0 then [0, 1, 2, 3] else s.sched.due
  let window := s.sched.window || clk.toNat % 4096 == 0
  State.tickSteps <| State.tickPatience { s with
    clk := clk
    waves := s.waves.mapAll (fun _ w =>
      let w := w.tickHeld
      if s.gridChosen w.ident.grid then w.tickOver else w)
    convoys := s.convoys.mapAll (fun _ c => c.tick)
    tree := { s.tree with gens := s.tree.gens.map (fun g => { g with clocks := g.clocks + 1 }) }
    sched := { s.sched with grids := grids, due := due, window := window } }

end Sys2Proof.Machine
end

