-- ==== Sys2Proof/Machine/Elementary.lean ====
section
/-!
DEFINITION. The exact values that the error bounds of R355 are measured from: 2^x, the base-2 logarithm, the sine and the
cosine, in fixed point, close enough to decide which FP32 values lie within a bound.
-/
namespace Sys2Proof.Machine

/-- Fraction bits of the fixed-point numbers here. -/
def fxBits : Nat := 320
/-- One. -/
def fxOne : Int := 2 ^ fxBits
/-- What every value here may lie off its exact value. -/
def fxSlack : Int := 2 ^ (fxBits - 240)
/-- The product. -/
def fxMul (a b : Int) : Int := a * b / fxOne
/-- A fixed-point number times 2^n as an exact value. -/
def fxVal (x n : Int) : FVal := .fin (decide (x < 0)) x.natAbs (n - Int.ofNat fxBits)
/-- The finite value m × 2^e over 2^k, rounded down. -/
def fxOf (neg : Bool) (m : Nat) (e : Int) (k : Nat) : Int :=
  let q := e + Int.ofNat fxBits - Int.ofNat k
  if 0 ≤ q then signed neg m * 2 ^ q.toNat else signed neg m / 2 ^ q.natAbs

/-- A sum a(0) + a(1) × (a(2) + …) of `n` nested steps, from the innermost. -/
def nested (step : Nat → Int → Int) : Nat → Int → Int
  | 0, x => x
  | n + 1, x => nested step n (step (n + 1) x)

/-- The exponential of 0 to 1. -/
def fxExp (t : Int) : Int := nested (fun k x => fxOne + fxMul t x / k) 100 fxOne
/-- The natural logarithm of p / q, from 1 to 2, by the series of the inverse hyperbolic tangent. -/
def fxLn (p q : Nat) : Int :=
  let z : Int := (Int.ofNat p - Int.ofNat q) * fxOne / (Int.ofNat p + Int.ofNat q)
  let z2 := fxMul z z
  2 * fxMul z (nested (fun k x => fxOne / (2 * Int.ofNat k - 1) + fxMul z2 x) 110 0)
/-- The natural logarithm of 2. -/
def fxLn2 : Int := fxLn 2 1
/-- The sine and the cosine of t, at most 1/16 in magnitude. -/
def fxSinCos (t : Int) : Int × Int :=
  let t2 := fxMul t t
  (fxMul t (nested (fun k x => fxOne - fxMul t2 x / (2 * Int.ofNat k * (2 * Int.ofNat k + 1))) 40 fxOne),
   nested (fun k x => fxOne - fxMul t2 x / ((2 * Int.ofNat k - 1) * (2 * Int.ofNat k))) 40 fxOne)
/-- The sine and the cosine of twice an angle, `n` times. -/
def fxDouble : Nat → Int × Int → Int × Int
  | 0, x => x
  | n + 1, (s, c) => fxDouble n (2 * fxMul s c, fxMul c c - fxMul s s)

/-- 2^f for f from 0 to 1. -/
def fxExp2 (f : Int) : Int := fxExp (fxMul f fxLn2)
/-- log2 of m / 2^k, from 1 to 2. -/
def fxLog2 (m k : Nat) : Int := fxLn m (2 ^ k) * fxOne / fxLn2
/-- The sine and the cosine of a value of at most 2^16 in magnitude. -/
def fxTurn (neg : Bool) (m : Nat) (e : Int) : Int × Int := fxDouble 20 (fxSinCos (fxOf neg m e 20))

/-- FP32 bits held from `lo` to `hi`: bits beyond a bound become those of the value within that is nearest to it. -/
def within32 (lo hi : FVal) (x : Word32) : Word32 :=
  let v := fdecode f32 x.toNat
  if v.isNaN || v.lt lo then BitVec.ofNat 32 (fround f32 2 false lo)
  else if hi.lt v then BitVec.ofNat 32 (fround f32 3 false hi)
  else x

/-- FP32 bits held to at most `d` from the fixed-point `y`, all times 2^n. -/
def near32 (y d n : Int) (x : Word32) : Word32 := within32 (fxVal (y - d - fxSlack) n) (fxVal (y + d + fxSlack) n) x

end Sys2Proof.Machine
end

