-- ==== Sys2Proof/Machine/Sched.lean ====
section
/-!
DEFINITION. The die schedulers: what fits where (R73, R186, R190, R191), admission and launch, the choice of grids for
eviction (R193), and completion (R189).
-/
namespace Sys2Proof.Machine

/-! ### Room (R73, R186, R196) -/

/-- What a gang needs: its scratch, and the register groups of each wave by rank. -/
structure Need where
  gang  : Nat
  len   : Nat
  ranks : List (Nat × Nat)
  deriving DecidableEq, Repr

/-- The needs of a task. -/
def taskNeeds (t : List Word) : List Need :=
  (List.range (taskGangs t)).map (fun g =>
    ⟨g, taskCspu t * 65536, (List.range (taskWaves t)).map (fun r => (r, taskVgrp t))⟩)

/-- Register groups of an absent wave. -/
def State.awayGroups (s : State) (i : WaveId) : Nat := ((s.away.get? i.uid).map (·.groups)).getD 0

/-- The needs of an evicted grid: its gangs that have not ended. -/
def State.gridNeeds (s : State) (n : Nat) (g : Grid) : List Need :=
  (g.gangs.filter (fun e => !e.2.gone.isEmpty)).map (fun e =>
    ⟨e.1, e.2.len, e.2.gone.map (fun r => (r, s.awayGroups ⟨g.job, n, e.1, r⟩))⟩)

/-- The core of a rank on a cluster, and its quarter (R186). -/
def rankCore (cl r : Nat) : Nat := cl * 4 + r % 4
def rankQuarter (r : Nat) : Nat := r / 4 % 4

/-- What is in use: scratch bytes by cluster, slots by core × 4 + quarter, register groups by core. -/
structure Room where
  csp    : Tab Nat
  slots  : Tab Nat
  groups : Tab Nat
  deriving DecidableEq, Repr

/-- Add to an entry of a table of counts. -/
def Tab.add (t : Tab Nat) (k n : Nat) : Tab Nat := t.set k ((t.get? k).getD 0 + n)
/-- A count. -/
def Tab.count (t : Tab Nat) (k : Nat) : Nat := (t.get? k).getD 0

/-- A wave of rank `r` with `n` groups takes room on a core. -/
def Room.addWave (m : Room) (core quarter n : Nat) : Room :=
  { m with slots := m.slots.add (core * 4 + quarter) 1, groups := m.groups.add core n }

/-- The room in use on the device, but for some grids: allocations, resident waves, and the gangs in resume, which hold
their new places. -/
def State.room (s : State) (out : List Nat) : Room :=
  let m : Room := ⟨[], [], []⟩
  let m := s.clusters.foldl (fun (m : Room) c => c.2.allocs.foldl (fun (m : Room) a =>
    if out.contains a.grid then m else { m with csp := m.csp.add c.1 a.len }) m) m
  let m := s.waves.foldl (fun (m : Room) e =>
    if out.contains e.2.ident.grid then m
    else m.addWave (e.1 / Config.slots) (e.1 % Config.slots / 24) (e.2.vcount / 8)) m
  s.sched.grids.foldl (fun (m : Room) e =>
    if out.contains e.1 then m
    else e.2.gangs.foldl (fun (m : Room) g =>
      if !g.2.resuming then m
      else
        let m := if (s.gangAlloc e.1 g.1).isSome then m else { m with csp := m.csp.add g.2.cluster g.2.len }
        g.2.gone.foldl (fun (m : Room) r =>
          m.addWave (rankCore g.2.cluster r) (rankQuarter r) (s.awayGroups ⟨e.2.job, e.1, g.1, r⟩)) m) m) m

/-- Place a gang on a cluster, if it has room: 16 MiB of scratch, 24 slots in each quarter, 512 groups in each core. -/
def Room.place (m : Room) (cl : Nat) (n : Need) : Option Room :=
  let m' := { m with csp := m.csp.add cl n.len }
  let m' := n.ranks.foldl (fun (m : Room) r => m.addWave (rankCore cl r.1) (rankQuarter r.1) r.2) m'
  if m'.csp.count cl ≤ 16777216 &&
      (List.range 4).all (fun k => decide (m'.groups.count (cl * 4 + k) ≤ 512) &&
        (List.range 4).all (fun q => decide (m'.slots.count ((cl * 4 + k) * 4 + q) ≤ 24)))
  then some m' else none

/-- Place gangs, each on the first cluster with room from the first cluster of a die on, wrapping (R191). -/
def Room.placeAll (m : Room) (die : Nat) : List Need → Option (List (Nat × Nat))
  | [] => some []
  | n :: ns =>
    match (List.range 64).find? (fun i => (m.place ((die * 16 + i) % 64) n).isSome) with
    | none => none
    | some i =>
      let cl := (die * 16 + i) % 64
      match m.place cl n with
      | none => none
      | some m' => (Room.placeAll m' die ns).map (fun l => (n.gang, cl) :: l)

/-! ### Candidates and what fits (R190, R191) -/

/-- A candidate for admission: the head of a queue, or an evicted grid. -/
structure Cand where
  job   : Nat
  pri   : Nat
  die   : Nat
  task  : List Word
  needs : List Need
  /-- the queue, or the grid -/
  queue : Option Nat
  grid  : Nat
  deriving DecidableEq, Repr

/-- Gangs of a grid that have not ended. -/
def Grid.liveGangs (g : Grid) : List Gang := (g.gangs.filter (fun e => !e.2.ended)).map (fun e => e.2)

/-- The grids that count as admitted, but for some. -/
def State.admitted (s : State) (out : List Nat) : List (Nat × Grid) :=
  s.sched.grids.filter (fun e => e.2.waiting.isNone && !e.2.liveGangs.isEmpty && !out.contains e.1)

/-- The sum of a field of the task record over the gangs of grids. -/
def sumGangs (gs : List (Nat × Grid)) (f : List Word → Nat) : Nat :=
  gs.foldl (fun a e => a + e.2.liveGangs.length * f e.2.task) 0

/-- How a candidate meets the conditions of R191. -/
structure Fit where
  place : Option (List (Nat × Nat))
  clu   : Bool
  bw    : Bool
  pow   : Bool
  deriving DecidableEq, Repr

/-- The candidate fits. -/
def Fit.ok (f : Fit) : Bool := f.place.isSome && f.clu && f.bw && f.pow

/-- Test a candidate with some grids absent. DESIGN CHOICE (log 100): where its gangs cannot all be placed, the clusters that
the job would occupy are those that it holds already. -/
def State.fit (s : State) (c : Cand) (out : List Nat) : Fit :=
  let place := (s.room out).placeAll c.die c.needs
  let all := s.admitted out
  let mine := all.filter (fun e => e.2.job == c.job)
  let n := c.needs.length
  let held := (mine.map (fun e => e.2.liveGangs.map (·.cluster))).flatten
  let clus := (held ++ (place.getD []).map (fun p => p.2)).eraseDups
  let bud (o hi : Nat) : Nat := bits (s.reg (jobReg c.job o)) hi 0
  { place := place
    clu := decide (clus.length ≤ bud 0x48 6)
    bw := decide (sumGangs mine taskBwu + n * taskBwu c.task ≤ bud 0x50 10)
    pow := decide (sumGangs mine taskPwu + n * taskPwu c.task ≤ bud 0x58 11) &&
      decide (sumGangs all taskPwu + n * taskPwu c.task ≤ bits (s.reg 0x421010) 11 0) }

/-- Test a candidate on an empty device, under the current budgets. -/
def State.fitEmpty (s : State) (c : Cand) : Bool :=
  (s.fit c (s.sched.grids.map (fun e => e.1))).ok &&
    ((Room.mk [] [] []).placeAll c.die c.needs).isSome

/-- Its gangs cannot all be placed on an empty device (R190). -/
def Cand.unfit (c : Cand) : Bool :=
  ((Room.mk [] [] []).placeAll c.die c.needs).isNone || (c.queue.isSome && taskMalformed c.task)

/-- The number under which a candidate's skipped turns are counted. -/
def Cand.skipKey (c : Cand) : Nat := match c.queue with | some q => q | none => 64 + c.grid

/-- The head of a queue as a candidate. -/
def State.headCand (s : State) (q : Nat) : Option Cand :=
  if s.queueOn q && !s.queueData q && decide (0 < s.queueCount q) && decide (s.jobState (s.queueJob q) = 1) then
    let t := wordsOfBytes 8 (s.unitRead (s.queueSlot q (s.queueHead q)) 64 (unitOrigin (queueDie q) (some (s.queueJob q)))).1
    some ⟨s.queueJob q, s.queuePri q, queueDie q, t, taskNeeds t, some q, 0⟩
  else none

/-- Whether the heads of a die's task queues can all be read now (R36, R40). -/
def State.headsClear (s : State) (die : Nat) : Bool :=
  (List.range 16).all (fun i =>
    let q := die * 16 + i
    !s.queueOn q || s.queueData q || s.queueCount q == 0 || s.headClear q)

/-- Whether the saves of a grid's gangs are complete, so that it can resume. -/
def State.saved (s : State) (n : Nat) (g : Grid) : Bool :=
  g.gangs.all (fun e => e.2.gone.isEmpty ||
    (e.2.image.isSome && (match s.shipOf n e.1 with | none => true | some (_, _, x) => x.state == 2)))

/-- The evicted grids of a die that wait for resume, in the order in which they entered the list (R193). -/
def State.resumeCands (s : State) (die : Nat) : List Cand :=
  let l := s.sched.grids.filter (fun e => e.2.die == die && e.2.waiting.isSome && decide (s.jobState e.2.job = 1) &&
    s.saved e.1 e.2)
  let l := sortBy (fun a b => decide (a.2.waiting.getD 0 ≤ b.2.waiting.getD 0)) l
  l.map (fun e => ⟨e.2.job, e.2.pri, die, e.2.task, s.gridNeeds e.1 e.2, none, e.1⟩)

/-- The heads of a die's queues of one PRI, in round-robin order from the queue after the last that a turn took (R190). -/
def State.headsOf (s : State) (die pri : Nat) : List Cand :=
  let last := (s.sched.rr.get? (die * 8 + pri)).getD 15
  ((List.range 16).filterMap (fun i => s.headCand (die * 16 + (last + 1 + i) % 16))).filter (fun c => c.pri == pri)

/-- The PRI values in descending order. -/
def priOrder : List Nat := [7, 6, 5, 4, 3, 2, 1, 0]

/-- The candidates of a die in the order of a turn: descending PRI, evicted grids before queued tasks (R190). -/
def State.dieCands (s : State) (die : Nat) : List Cand :=
  (priOrder.map (fun p => (s.resumeCands die).filter (fun c => c.pri == p) ++ s.headsOf die p)).flatten

/-- The heads that another die may steal, in the same order (R190). -/
def State.dieHeads (s : State) (die : Nat) : List Cand := (priOrder.map (s.headsOf die)).flatten

/-- The queues and resume list of a die are empty (R190). -/
def State.dieEmpty (s : State) (die : Nat) : Bool :=
  (List.range 16).all (fun i => !(s.queueOn (die * 16 + i) && !s.queueData (die * 16 + i) &&
    decide (0 < s.queueCount (die * 16 + i)))) &&
  s.sched.grids.all (fun e => !(e.2.die == die && e.2.waiting.isSome))

/-! ### Save areas (R120, R121, R193, R210) -/

/-- Ranges of a job's save area in use: first byte and length. -/
def State.savedRanges (s : State) (job : Nat) : List (Nat × Nat) :=
  (s.away.filter (fun e => e.2.ident.job == job)).map (fun e => (e.2.image, ctxSize e.2.groups)) ++
  ((s.sched.grids.filter (fun e => e.2.job == job)).map (fun e => e.2.gangs.filterMap (fun g =>
    g.2.image.map (fun a => (a, shipSize g.2.len))))).flatten

/-- The first free range of a length and alignment in a save area (log 14). -/
def firstFree (base size : Nat) (used : List (Nat × Nat)) (n al : Nat) : Option Nat :=
  let up (a : Nat) : Nat := (a + al - 1) / al * al
  let starts := sortBy (fun a b => decide (a ≤ b)) (up base :: used.map (fun u => up (u.1 + u.2)))
  starts.find? (fun a => decide (base ≤ a) && decide (a + n ≤ base + size) &&
    used.all (fun u => decide (a + n ≤ u.1) || decide (u.1 + u.2 ≤ a)))

/-- A free range of a job's save area. -/
def State.saveRoom (s : State) (job : Nat) (used : List (Nat × Nat)) (n al : Nat) : Option Nat :=
  firstFree (bits (s.reg (jobReg job 0x38)) 51 16 * 65536) (bits (s.reg (jobReg job 0x40)) 31 0 * 65536) used n al

/-- Whether images of some sizes all find room. -/
def State.saveAll (s : State) (job : Nat) : List (Nat × Nat) → List (Nat × Nat) → Bool
  | _, [] => true
  | used, (n, al) :: rest =>
    match s.saveRoom job used n al with
    | none => false
    | some a => State.saveAll s job ((a, n) :: used) rest

/-- The images that the eviction of a grid still has to make. -/
def State.imagesOf (s : State) (n : Nat) (g : Grid) : List (Nat × Nat) :=
  (g.gangs.filterMap (fun e => if e.2.here.isEmpty && e.2.gone.isEmpty || e.2.image.isSome then none
    else some (shipSize e.2.len, 65536))) ++
  (s.waves.filterMap (fun e => if e.2.ident.grid = n then some (ctxSize (e.2.vcount / 8), 1024) else none))

/-- The gangs of the chosen grids and of `g` that will need an entry on a cluster. -/
def State.shipsWanted (s : State) (n : Nat) (cl : Nat) : Nat :=
  (s.sched.grids.map (fun e => if e.2.chosen ∨ e.1 = n then
    (e.2.gangs.filter (fun x => x.2.cluster == cl && !x.2.here.isEmpty)).length else 0)).foldl (· + ·) 0

/-- A grid may be chosen for eviction (R193): it is resident, its save area holds its images, R120 holds, and none of
its gangs is in resume. -/
def State.choosable (s : State) (n : Nat) (g : Grid) : Bool :=
  !g.chosen && g.waiting.isNone && !g.liveGangs.isEmpty && !(g.gangs.any (fun e => e.2.resuming)) &&
    (let pending := (s.sched.grids.filter (fun e => e.2.chosen && e.2.job == g.job)).map (fun e => s.imagesOf e.1 e.2)
     s.saveAll g.job (s.savedRanges g.job) (pending.flatten ++ s.imagesOf n g)) &&
    g.gangs.all (fun e => e.2.ended ||
      decide ((s.cluster e.2.cluster).ships.length + s.shipsWanted n e.2.cluster ≤ 256))

/-- Choose a grid for eviction (R193, R207). -/
def State.choose (s : State) (n : Nat) : State :=
  let s := s.updGrid n (fun g => { g with chosen := true })
  { s with waves := s.waves.mapAll (fun _ w =>
      if w.ident.grid = n then { w with sched := { w.sched with overRun := 0, overTrap := none } } else w) }

/-! ### Launch (R186, R190, R191) -/

/-- A new allocation on a cluster: its bytes read zero and its lines are empty (R73). Its place has no effect that a
program can see: it lies above the others. -/
def State.allocate (s : State) (cl grid gang len : Nat) : State :=
  let c := s.cluster cl
  let base := c.allocs.foldl (fun a x => max a (x.base + x.len)) 0
  s.setCluster cl { c with
    csp := Memory.zero c.csp base len
    full := c.full.filter (fun l => decide (l < base / 128) || decide ((base + len) / 128 ≤ l))
    allocs := c.allocs ++ [⟨grid, gang, base, len⟩] }

/-- The lowest free slot of a quarter of a core. -/
def State.freeSlot (s : State) (core quarter : Nat) : Option Nat :=
  ((List.range 24).map (· + quarter * 24)).find? (fun n => (s.wave? core n).isNone)

/-- The debugger halts waves of the job (Table 3 of R204). -/
def State.jobHalted (s : State) (job : Nat) : Bool := (s.reg (jobReg job 0x80)).getLsbD 1

/-- A wave takes its slot; its start is an acquire (R142, R54). -/
def State.seat (s : State) (cl : Nat) (w : Wave) : State :=
  let core := rankCore cl w.ident.rank
  match s.freeSlot core (rankQuarter w.ident.rank) with
  | none => s
  | some slot =>
    let w := { w with sched := { w.sched with
      halted := s.jobHalted w.ident.job, issued := s.clk.toNat, started := s.clk.toNat } }
    (s.emptyL1 core).setWave core slot w

/-- Launch the waves of a gang (R186). -/
def State.launchGang (s : State) (job grid gang cl : Nat) (t : List Word) : State :=
  let s := s.allocate cl grid gang (taskCspu t * 65536)
  (List.range (taskWaves t)).foldl (fun s r =>
    let n := if r + 1 = taskWaves t ∧ taskTail t ≠ 0 then taskTail t else 128
    s.seat cl (Wave.launch ⟨job, grid, gang, r⟩ (taskVgrp t) (firstLanes n) (taskEntry t) (taskArg t))) s

/-- The next grid number (R190). -/
def State.takeNumber (s : State) : Nat × State :=
  let n := s.sched.nextGrid
  (n, { s with sched := { s.sched with nextGrid := if n + 1 = 2 ^ 32 then 1 else n + 1 } })

/-- A gang as it is placed. -/
def Gang.new (t : List Word) (cl : Nat) : Gang :=
  ⟨cl, taskCspu t * 65536, List.range (taskWaves t), [], none, false, [], false, false, false⟩

/-- A grid as a candidate of a queue makes it. -/
def Cand.newGrid (s : State) (c : Cand) (q : Nat) (gangs : Tab Gang) (status : BitVec 8) : Grid :=
  ⟨c.job, c.task, q, c.pri, queueDie q, gangs, false, none, status, s.clk.toNat, false, false, none, 0, false⟩

/-- The queue after which the round-robin of a die among the queues of its PRI goes on. -/
def State.setTurn (s : State) (q pri : Nat) : State :=
  State.clearSkips { s with sched := { s.sched with rr := s.sched.rr.set (queueDie q * 8 + pri) (q % 16) } } q

/-- Admit the head of a queue (R190, R191); the instruction caches empty (R239). -/
def State.admitTask (s : State) (c : Cand) (q : Nat) (place : List (Nat × Nat)) : State :=
  let (_, s) := s.queueTake q (s.queueJob q)
  let (n, s) := s.takeNumber
  let gangs : Tab Gang := place.map (fun p => (p.1, Gang.new c.task p.2))
  let s := (s.setTurn q c.pri).emptyCode
  let s := { s with sched := { s.sched with grids := s.sched.grids.set n (c.newGrid s q gangs 0) } }
  place.foldl (fun s p => s.launchGang c.job n p.1 p.2 c.task) s

/-- Take a head that can never be placed off its queue: its grid starts no wave and completes with STATUS 3 (R190). -/
def State.refuseTask (s : State) (c : Cand) (q : Nat) : State :=
  let (_, s) := s.queueTake q (s.queueJob q)
  let (n, s) := s.takeNumber
  let s := (s.bump (queueReg q 0x28)).setTurn q c.pri
  { s with sched := { s.sched with grids := s.sched.grids.set n (c.newGrid s q [] 3) } }

/-- Admit an evicted grid: its gangs resume on the clusters placed for them (R126). -/
def State.admitGrid (s : State) (c : Cand) (place : List (Nat × Nat)) : State :=
  let s := s.emptyCode
  let s := s.updGrid c.grid (fun g =>
    { g with
      waiting := none, since := s.clk.toNat, chosen := false, expired := false, wd := 0
      gangs := g.gangs.mapAll (fun k x => match place.find? (fun p => p.1 == k) with
        | some p => { x with cluster := p.2, resuming := true }
        | none => x) })
  { s with sched := { s.sched with skips := s.sched.skips.del c.skipKey } }

/-! ### A turn (R190, R193) -/

/-- The GATE counters of a failed test (Table 4 of R188). -/
def State.gates (s : State) (f : Fit) : State :=
  let s := if f.clu then s else s.bump 0x421018
  let s := if f.bw then s else s.bump 0x421020
  if f.pow then s else s.bump 0x421028

/-- The candidate that bars others of equal or lower PRI (R190): it has been skipped in 64 turns and would fit on an
empty device. -/
def State.barring (s : State) (cs : List Cand) : Option Cand :=
  cs.find? (fun c => decide (64 ≤ s.sched.skips.count c.skipKey) && s.fitEmpty c)

/-- Go through the candidates of a turn until one is admitted: the state and the skipped ones, whose skipped turns count.
DESIGN CHOICE (log 100): a candidate that another bars is not considered, so it does not count as skipped, and one that can
never be placed stays on its queue meanwhile. -/
def State.turnFrom (s : State) (bar : Option Cand) : List Cand → State × List Cand
  | [] => (s, [])
  | c :: cs =>
    if bar.any (fun b => decide (c.pri ≤ b.pri) && c.skipKey != b.skipKey) then State.turnFrom s bar cs
    else if c.unfit then
      (match c.queue with
       | some q => State.turnFrom (s.refuseTask c q) bar cs
       | none => State.turnFrom s bar cs)
    else
      let f := s.fit c []
      match f.ok, f.place, c.queue with
      | true, some p, some q => (s.admitTask c q p, [])
      | true, some p, none => (s.admitGrid c p, [])
      | _, _, _ =>
        let s := s.gates f
        let k := s.sched.skips.count c.skipKey + 1
        let s := { s with sched := { s.sched with skips := s.sched.skips.set c.skipKey k } }
        let (s, l) := State.turnFrom s bar cs
        (s, c :: l)

/-- Grids already chosen for eviction. -/
def State.chosenGrids (s : State) : List Nat := (s.sched.grids.filter (fun e => e.2.chosen)).map (fun e => e.1)

/-- The grids of lower PRI than a candidate: lowest PRI first, youngest admitted first. -/
def State.lowerGrids (s : State) (pri : Nat) : List Nat :=
  let l := s.sched.grids.filter (fun e => decide (e.2.pri < pri))
  (sortBy (fun a b => decide (a.2.pri < b.2.pri) || (a.2.pri == b.2.pri && decide (b.2.since ≤ a.2.since))) l).map
    (fun e => e.1)

/-- Choose grids in order until a candidate would fit with the chosen ones absent; one that may not be chosen is passed
over (R193). -/
def State.chooseUntil (s : State) (c : Cand) : List Nat → State
  | [] => s
  | v :: vs =>
    if (s.fit c s.chosenGrids).ok then s
    else
      match s.sched.grids.get? v with
      | some g => State.chooseUntil (if s.choosable v g then s.choose v else s) c vs
      | none => State.chooseUntil s c vs

/-- The first case of R193: it serves the first skipped candidate that would fit if the grids of lower PRI were absent. -/
def State.firstCase (s : State) (skipped : List Cand) : State :=
  match skipped.find? (fun c => (s.fit c (s.chosenGrids ++ s.lowerGrids c.pri)).ok) with
  | some c => s.chooseUntil c (s.lowerGrids c.pri)
  | none => s

/-- The second case of R193: the grid of lowest PRI, not above the candidate's, that has run one SLICE and has been
resident longest. -/
def State.secondCase (s : State) (pri : Nat) : Option Nat :=
  let l := s.sched.grids.filter (fun e => decide (e.2.pri ≤ pri) && e.2.expired && s.choosable e.1 e.2)
  match sortBy (fun a b => decide (a.2.pri < b.2.pri) || (a.2.pri == b.2.pri && decide (a.2.since ≤ b.2.since))) l with
  | e :: _ => some e.1
  | [] => none

/-- A candidate is skipped for lack of room: its gangs cannot all be placed, with the chosen grids absent. -/
def State.noRoom (s : State) (c : Cand) : Bool := (s.fit c s.chosenGrids).place.isNone

/-- The choices of a turn: the second case applies when the first chose nothing. -/
def State.chooseFor (s : State) (skipped : List Cand) : State :=
  let t := s.firstCase skipped
  if t.chosenGrids ≠ s.chosenGrids then t
  else
    match skipped.find? s.noRoom with
    | none => s
    | some c => match s.secondCase c.pri with | some n => s.choose n | none => s

/-- ADMISSION_TURN: the turn of a die's scheduler, every 64 clocks (R190). -/
def execAdmissionTurn (die : Nat) (s : State) : Result :=
  let reads := if s.dieEmpty die then [1, 2, 3].map (fun i => (die + i) % 4) else [die]
  if !s.sched.due.contains die || !reads.all s.headsClear then .next s
  else
    let s := { s with sched := { s.sched with due := s.sched.due.filter (· != die) } }
    if s.dieEmpty die then
      let others := [1, 2, 3].map (fun i => s.dieHeads ((die + i) % 4))
      let (s, skipped) := s.turnFrom none others.flatten
      .next (s.chooseFor skipped)
    else
      let (s, skipped) := s.turnFrom (s.barring (s.dieCands die)) (s.dieCands die)
      .next (s.chooseFor skipped)

/-- SLICE in force (Table 4 of R188). -/
def State.slice (s : State) : Nat := max 65536 (bits (s.reg 0x421008) 31 0)

/-- TIME_SLICE_EXPIRY: a grid has run one SLICE since its admission or last resume (R193). -/
def execTimeSliceExpiry (grid : Nat) (s : State) : Result :=
  match s.sched.grids.get? grid with
  | none => .next s
  | some g =>
    if !g.expired && g.waiting.isNone && decide (g.since + s.slice ≤ s.clk.toNat) then
      .next (s.updGrid grid (fun g => { g with expired := true }))
    else .next s

/-! ### Completion (R189) -/

/-- Write a completion record at an address of a job's memory (R189): through its translation, to the global window or
on to a peer or the host, whose request it names. None: it waits for a walk, a port, or room for a fault record. -/
def State.writeRecord (s : State) (grid job die : Nat) (va : Nat) (ws : List Word) : Option (Option Nat) × State :=
  let core := die * 64
  let r : RecordOf := { die := die, core := 0, slot := 0, job := job, agent := 6, acc := 1 }
  let room := s.canRecord die job 1
  if !(windowOf va).translated then
    if room then (some none, (s.record r [⟨va, 0x20, 7, 0⟩]).2) else (none, s)
  else
    match s.xlateNow core 0 job va 1 true (.task grid) with
    | (.miss, s) => (none, s)
    | (.fault c l e, s) => if room then (some none, ((s.forget (.task grid)).record r [⟨va, c, l, e⟩]).2) else (none, s)
    | (.ok pa leaf, s) =>
      let key : BitVec 10 := BitVec.ofNat 10 (bits leaf 60 51)
      if windowOf va = .global then
        let foreign := s.liveStatus pa key == .keyMismatch
        if !s.portsClear die pa 16 || (foreign && !room) then (none, s)
        else
          let (_, s) := s.dieWrite pa (bytesOfWords ws) (allBytes 16) key [] { src := die, job := job, orig := 0 }
          let s := s.closeLine pa
          (some none, if foreign then (s.record { r with agent := 5 } [⟨va, 0x26, 7, 0⟩]).2 else s)
      else
        let (n, s) := s.newId
        let t := mkTxn core 0 job .wr pa va key.toNat ⟨0, 0, [], .none, 0x08, none, 0⟩
        (some (some n), s.setTxn n { t with
          phase := .remote, users := [], data := bytesOfWords ws, acc := 1, agent := 6, seen := 0,
          own := decide (windowOf va = .peer ∧ peerOf va = s.ownNumber) })

/-- Whether the second completion signal of a task can be performed now. -/
def State.countClear (s : State) (t : List Word) : Bool := !taskDen t || s.depClear (taskDonec t)

/-- The second completion signal (R189). -/
def State.signalCount (s : State) (g : Grid) : State :=
  if taskDen g.task then (s.depDec (taskDonec g.task) g.job).2 else s

/-- The completion signals of a grid (R189): the record, then the count, which follows a record that leaves the device once
its request is answered. False: they wait. -/
def State.signal (s : State) (n : Nat) (g : Grid) (status : BitVec 8) : Bool × State :=
  let t := g.task
  if !s.countClear t then (false, s)
  else
    match (if taskRen t then
        s.writeRecord n g.job g.die (wordAt t 7 &&& maskBits 56 4).toNat
          [BitVec.ofNat 64 (status.toNat * 2 ^ 56 + n % 2 ^ 32), s.clk]
      else (some none, s)) with
    | (none, s) => (false, s)
    | (some req, s) =>
      let s := s.updGrid n (fun g => { g with signaled := true, crec := req })
      (true, if req.isSome then s else s.signalCount g)

/-- The grid whose completion record a request carries. -/
def State.recordOfGrid (s : State) (id : Nat) : Option (Nat × Grid) := s.sched.grids.first? (fun _ g => g.crec == some id)

/-- The request of a completion record has been answered: its grid's count follows. -/
def State.recordAnswered (s : State) (id : Nat) : State :=
  match s.recordOfGrid id with
  | none => s
  | some (n, g) => (s.updGrid n (fun g => { g with crec := none })).signalCount g

/-- Every access of a grid's waves has been performed, those of waves that have ended too: the signals are a release at sys
of them (R189). -/
def State.accessesDone (s : State) (grid : Nat) : Bool :=
  !s.drains.any (fun d => d.ident.grid == grid) &&
    !s.net.txns.any (fun e => e.2.users.any (fun u => decide (u.uid / 131072 = grid)) &&
      (match e.2.phase with | .performed _ | .replied => false | _ => true))

/-- Nothing is left of a grid: its convoys return to FREE (R63), arrivals still queued for its gangs, of waves that have ended,
are dropped and counted (R131, R132), and so are the lines of it that no port took, which were for no gang (R90). -/
def State.dropGrid (s : State) (grid : Nat) : State :=
  let s := (s.arrivals.filter (fun a => a.grid == grid)).foldl (fun s a => s.countGone a.grid a.gang) s
  { s with
    convoys := s.convoys.keep (fun _ c => c.grid != grid)
    arrivals := s.arrivals.filter (fun a => a.grid != grid)
    clusters := s.clusters.mapAll (fun _ c => { c with inq := c.inq.mapAll (fun _ q => q.filter (fun l => l.grid != grid)) })
    tree := { s.tree with gens := s.tree.gens.filter (fun x => x.grid != grid),
                          msgs := s.tree.msgs.keep (fun _ m => m.grid != grid),
                          next := s.tree.next.keep (fun k _ => k / 8 != grid) }
    sched := { s.sched with grids := s.sched.grids.del grid, skips := s.sched.skips.del (64 + grid) } }

/-- GRID_COMPLETION: all waves and engine operations of a grid are done: its signals are performed once, and it goes
(R189). -/
def execGridCompletion (grid : Nat) (s : State) : Result :=
  match s.sched.grids.get? grid with
  | none => .next s
  | some g =>
    if g.liveGangs.isEmpty && !s.engines.any (fun e => e.2.ident.grid == grid) && g.crec.isNone then
      if g.signaled then .next (s.dropGrid grid)
      else if !s.accessesDone grid then .next s
      else
        match s.signal grid g g.status with
        | (false, t) => .next t
        | (true, t) => .next (if (t.sched.grids.get? grid).any (fun g => g.crec.isSome) then t else t.dropGrid grid)
    else .next s

/-- BANDWIDTH_WINDOW: a window of 4,096 clocks ends and the requests it held go on (R192). -/
def execBandwidthWindow (s : State) : Result :=
  if s.sched.window then .next { s with sched := { s.sched with window := false } } else .next s

end Sys2Proof.Machine
end

