-- ==== Sys2Proof/Machine/System.lean ====
section
/-!
DEFINITION. System instructions: EXIT, TRAP, ERET, MFS, MTS, YIELD, REGGROW, REGSHRINK, BKPT and NOP (R308, R328 to
R333), and the grant of a waiting REGGROW (R196).
-/
namespace Sys2Proof.Machine

/-! ### EXIT (R168, R308) -/

/-- A fault of the tile operations that the wave still holds (R345). -/
def Wave.heldFault (w : Wave) : Option Trap :=
  if w.mat.fv then
    some { cause := if w.mat.fk then 0x82 else 0x81, tval := w.mat.faultb.setWidth 64,
           h2 := BitVec.ofNat 64 (w.mat.ndisc.toNat * 2 ^ 24 + w.mat.forig.toNat * 2 ^ 16 + w.mat.seq.toNat) }
  else none

/-- The held fault is taken: FV goes to 0. -/
def Wave.clearHeld (w : Wave) : Wave := { w with mat := { w.mat with fv := false } }

/-- The newest RESUME entry that a slot owns, with its place on the stack. -/
def Wave.resumeEntry (w : Wave) (n : Nat) : Option (StackEntry × Nat) :=
  match w.stack.find? (fun e => e.owner == n && e.resume) with
  | some e => some (e, w.stack.findIdx (fun e => e.owner == n && e.resume))
  | none => none

/-- A slot leaves every group. -/
def Wave.leaveGroups (w : Wave) (n : Nat) : Tab Group :=
  (w.groups.mapAll (fun _ g => { g with slots := g.slots.filter (· != n) })).keep (fun _ g => !g.slots.isEmpty)

/-- The fragment of a slot ends, and the lanes of the RESUME entry at place `i` of the stack go on in the slot: the slot
leaves every group, and the lanes of its PENDING entries end (R168, log 20). -/
def Wave.resumeLanes (w : Wave) (n : Nat) (e : StackEntry) (i : Nat) : Wave :=
  { w with
    stack := (w.stack.eraseIdx i).filter (fun x => x.owner != n || x.resume)
    groups := w.leaveGroups n
    frags := w.frags.set n ⟨e.emask, e.spc, e.fmt, e.bank, none, .run⟩ }

/-- A slot becomes free: it leaves every group and its stack entries go (R168). DESIGN CHOICE (log 102): what is still due for
s176 to s191 of a fragment that ends so keeps its slot, and writes the bank of a fragment that has taken it since; R162 names
only the issuing fragment and the survivor of its merge. -/
def Wave.freeFrag (w : Wave) (n : Nat) : Wave :=
  { w with
    frags := w.frags.del n
    stack := w.stack.filter (fun e => e.owner != n)
    groups := w.leaveGroups n }

/-- EXIT of the last fragment in user mode: the wave's work completes, its held faults are taken, its reductions drain,
and it ends (R308). -/
def Ctx.exitLast (c : Ctx) (s : State) : Result :=
  if !c.w.laneAll.isEmpty || decide (0 < c.w.ldCount) || decide (0 < s.cpCount c.uid) || decide (0 < c.w.tlCount) then .next s
  else
    match c.w.oldestTrap with
    | some t => trapOr s c t
    | none =>
      match c.w.heldFault with
      | some t =>
        let c := { c with w := c.w.clearHeld }
        trapOr s c t
      | none => c.afterFlush s (fun c s => .next (s.endWave c.core c.slot))

/-- EXIT (R308). In supervisor mode it ends the wave by force (R203, R214). -/
def execExit (s : State) : Result :=
  scalarOp .exit s (fun c =>
    if c.w.laneAll.any (fun i => i.frag == c.frag) then .next s
    else if c.w.trap.sup then .next (s.forcedEnd c.w.ident c.core c.slot 1 (c.w.trap.tcause.extractLsb' 0 8))
    else
      match c.w.resumeEntry c.frag with
      | some (e, i) => .next (s.settle c.core c.slot (c.w.resumeLanes c.frag e i))
      | none =>
        if 1 < c.w.frags.length then .next (s.settle c.core c.slot (c.w.freeFrag c.frag))
        else c.exitLast s)

/-! ### TRAP and ERET (R328, R329) -/

/-- TRAP: TRAPINSTR with the immediate (R328). -/
def execTrap (i : BitVec 16) (s : State) : Result :=
  scalarOp (.trap i) s (fun c => .next (s.trapAt c { cause := 0x05, tval := i.setWidth 64 }))

/-- The length of the instruction at an address, as its form states (R203, R240), which the word fetched there gives; 4 where
none can be fetched (log 15); none: the fetch waits. -/
def State.lengthAt (s : State) (r : Reader) (va : Nat) : Option Nat × State :=
  if windowOf va ≠ .global then (some 4, s)
  else
    match s.translate r.core r.w.ident.job va 3 r.w.sched.fails with
    | .fault _ _ _ => (some 4, s)
    | _ =>
      match s.fetchWord r va with
      | (.ok w, s) => (some (formLength w), s)
      | (.trap _, s) => (some 4, s)
      | (.wait, s) => (none, s)

/-- The next absent fault of a wave, taken as a trap before its first instruction (R128); in a handler it waits for the
return (R204). A loss of memory with no handler ends the wave (R213). -/
def State.deliverAbsent (s : State) (core slot : Nat) : State :=
  match s.wave? core slot with
  | none => s
  | some w =>
    match (if w.trap.sup then [] else w.work.absent) with
    | [] => s
    | a :: rest =>
      if a.word0.extractLsb' 40 8 = 0x07#8 ∧ !(s.reg (jobReg w.ident.job 0x60)).getLsbD 0 then
        s.forcedEnd w.ident core slot 1 0x07
      else
      let orig := a.word0.extractLsb' 40 8
      let h2 := BitVec.ofNat 64 (bits a.word0 63 48 + orig.toNat * 2 ^ 16 + bits a.word0 39 37 * 2 ^ 24 +
        rest.length % 32 * 2 ^ 27 + (if w.work.lost = 0 then 0 else 2 ^ 32))
      let w := { w with work := { w.work with absent := rest } }
      let n := (match w.frags with | (n, _) :: _ => if w.frags.has w.trap.slot then w.trap.slot else n | [] => 0)
      let s := (s.setWave core slot w).takeTrap core slot n { cause := 0x50, tval := a.tval, h2 := h2, async := true }
      match s.wave? core slot with
      | none => s
      | some w => s.setWave core slot { w with trap := { w.trap with absent := some orig } }

/-- Back to user mode, with retry or with skip (R203); false: the length of the scalar instruction to skip is not known yet.
What is skipped at the scalar fault point no longer waits there, so its parking ends (R64). -/
def Ctx.returnUser (c : Ctx) (s : State) (skip : Bool) : Bool × State :=
  if !skip then (true, c.put s c.w.retryTrap)
  else if c.w.trap.tcause.getLsbD 9 then (true, c.put s (c.w.skipTrap 0))
  else
    match s.lengthAt ⟨c.core, c.slot, c.w⟩ c.w.trap.tspc.toNat with
    | (none, s) => (false, s)
    | (some n, s) => (true, (c.put s (c.w.skipTrap n)).unpark c.uid [(c.w.trap.slot, false)])

/-- ERET ends the handler (R203, R329): the action that h0<2:0> names, with the cases of an absent fault (R128), of
MEMLOSS (R213), and of a stack entry that the handler left (R304). -/
def execEret (s : State) : Result :=
  scalarOp .eret s (fun c =>
    let end_ (level : Nat) : Result :=
      .next (s.forcedEnd c.w.ident c.core c.slot level (c.w.trap.tcause.extractLsb' 0 8))
    let act := (c.w.trap.h.get 0).toNat % 8
    if !c.w.laneAll.isEmpty then .next s
    else if c.w.stack.any (·.sup) then .next (s.trapAt c { cause := 0x01, tval := instrTval .eret })
    else
      match c.w.trap.absent with
      | some orig =>
        if orig = 0x07 then end_ 1
        else if act ≤ 1 then
          let w := { c.w.retryTrap with trap := { c.w.retryTrap.trap with absent := none } }
          .next ((c.put s w).deliverAbsent c.core c.slot)
        else end_ (match act with | 3 => 2 | 4 => 4 | _ => 1)
      | none =>
        if c.w.trap.tcause.extractLsb' 0 8 = 0x07 then end_ 1
        else
          match act with
          | 0 | 1 => (match c.returnUser s (act == 1) with
            | (true, t) => .next (t.deliverAbsent c.core c.slot)
            | (false, t) => .next t)
          | 3 => end_ 2
          | 4 => end_ 4
          | _ => end_ 1)

/-! ### Special registers (R246, R247, R330) -/

/-- CVMEMB (Table 4 of R69): the bits of the indices taken. DEDUCED (log 103): by R68 the bit of a member that has ended is 0,
also where R394 lists 0x1 for the member of index 1. -/
def State.cvMembers (s : State) (core : Nat) (w : Wave) : Word :=
  match s.convoys.get? (cvKey core w) with
  | none => 0
  | some k =>
    if k.grid ≠ w.ident.grid then 0
    else BitVec.ofNat 64 (k.mem.foldl (fun m e => m + 2 ^ e.1) 0)

/-- The task record of a wave's grid. -/
def State.taskOf (s : State) (grid : Nat) : List Word := ((s.sched.grids.get? grid).map (·.task)).getD []

/-- FRAG (Table 1 of R164). -/
def Ctx.fragWord (c : Ctx) : Word :=
  BitVec.ofNat 64 (c.w.stack.length * 256 + (c.w.frags.foldl (fun m e => m + 2 ^ e.1) 0) * 16 + c.frag)

/-- A special register, by its number (Table 6). -/
def State.special (s : State) (c : Ctx) (n : Nat) : Word :=
  let w := c.w
  let job (o : Nat) : Word := s.reg (jobReg w.ident.job o)
  match n with
  | 0x000 => c.f.spc
  | 0x001 => w.lpc
  | 0x002 => c.fragWord
  | 0x003 => c.f.emask.extractLsb' 0 64
  | 0x004 => c.f.emask.extractLsb' 64 64
  | 0x005 => c.f.fmt.setWidth 64
  | 0x006 => BitVec.ofNat 64 w.ident.rank
  | 0x007 => BitVec.ofNat 64 w.ident.gang
  | 0x008 => BitVec.ofNat 64 w.ident.grid
  | 0x009 => BitVec.ofNat 64 w.ident.job
  | 0x00A => s.clk
  | 0x00B => BitVec.ofNat 64 w.vcount
  | 0x00C => BitVec.ofNat 64 (0x0140_0000_0000_0000 + w.ident.gang * 2 ^ 24)
  | 0x00D => (match s.gangAlloc w.ident.grid w.ident.gang with | some (_, a) => BitVec.ofNat 64 a.len | none => 0)
  | 0x00E => 0x0160_0000_0000_0000
  | 0x00F => wordAt (s.taskOf w.ident.grid) 3 &&& maskBits 56 6
  | 0x010 => BitVec.ofNat 64 (taskHtlen (s.taskOf w.ident.grid))
  | 0x020 => w.trap.tcause
  | 0x021 => w.trap.tval
  | 0x022 => w.trap.tspc
  | 0x023 => w.trap.tlpc
  | 0x024 => w.trap.lfmask.extractLsb' 0 64
  | 0x025 => w.trap.lfmask.extractLsb' 64 64
  | 0x030 => BitVec.ofNat 64 (dieOf c.core * 1024 + (if w.cv.mem then 512 else 0) + w.cv.id)
  | 0x031 => BitVec.ofNat 64 w.cv.self
  | 0x032 => s.cvMembers c.core w
  | 0x033 => (s.cvLimits c.core w).1.setWidth 64
  | 0x034 => (s.cvLimits c.core w).2.setWidth 64
  | 0x035 => w.cv.pos
  | 0x036 => BitVec.ofNat 64 (w.cv.held.toNat * 256 + w.cv.cause.toNat * 16 + w.cv.state.toNat)
  | 0x040 => w.work.treesel
  | 0x041 => w.work.trtime
  | 0x100 => job 0x60
  | 0x101 => job 0x08
  | 0x102 => job 0x48
  | 0x103 => job 0x50
  | 0x104 => job 0x58
  | 0x105 => job 0x68
  | _ => 0

/-- MFS (R330). -/
def execMfs (d : BitVec 8) (i : BitVec 16) (s : State) : Result :=
  scalarOp (.mfs d i) s (fun c => .next (c.finish s d (s.special c i.toNat) 4))

/-- The writable bits of TREESEL (Table 6 of R91). -/
def treeselMask : Word := 0x01FF_FF00_3F0F_0307#64

/-- The wave after a write to a special register, by the register's own rule; read-only registers keep their values. DESIGN
CHOICE (log 78): R91 says what happens to nonzero rsv bits only for TREESEL; those of TRTIMEOUT are dropped before its floor
applies. -/
def Wave.setSpecial (w : Wave) (n : Nat) (v : Word) : Wave :=
  match n with
  | 0x022 => { w with trap := { w.trap with tspc := v &&& 0x01FF_FFFF_FFFF_FFFC#64 } }
  | 0x033 =>
    let x : BitVec 16 := v.setWidth 16
    if w.cv.mem then w else { w with cv := { w.cv with slip := if x = 0 then 1 else x } }
  | 0x034 =>
    let x : BitVec 32 := v.setWidth 32
    if w.cv.mem then w else { w with cv := { w.cv with pat := if x.toNat < 256 then 256 else x } }
  | 0x035 => if w.cv.mem then w else { w with cv := { w.cv with pos := v } }
  | 0x040 => { w with work := { w.work with treesel := v &&& treeselMask } }
  | 0x041 =>
    let x := v.toNat % 2 ^ 32
    { w with work := { w.work with trtime := BitVec.ofNat 64 (max x 1024) } }
  | _ => w

/-- MTS (R246, R330). -/
def execMts (d : BitVec 8) (i : BitVec 16) (s : State) : Result :=
  scalarOp (.mts d i) s (fun c => .next (c.complete s (c.w.setSpecial i.toNat (c.get d)) 4))

/-! ### YIELD (R331) -/

/-- A candidate of PRI at least `pri` is skipped on a die for lack of room. -/
def State.pressed (s : State) (die pri : Nat) : Bool :=
  (s.dieCands die).any (fun c => decide (pri ≤ c.pri) && !c.unfit && (s.fit c []).place.isNone)

/-- YIELD: waits to be evicted if the grid is, or can be, chosen; otherwise it completes (R331). -/
def execYield (s : State) : Result :=
  scalarOp .yield s (fun c =>
    match s.sched.grids.get? c.w.ident.grid with
    | none => .next (c.skip s 4)
    | some g =>
      if c.w.sched.resumed.contains c.frag then
        let w := { c.w with sched := { c.w.sched with resumed := c.w.sched.resumed.filter (· != c.frag) } }
        .next (c.endBlock (c.complete s w 4))
      else if g.chosen then .next (c.block s c.w .yielding true)
      else if s.pressed (dieOf c.core) g.pri && s.choosable c.w.ident.grid g then
        let s := s.choose c.w.ident.grid
        let c := c.again s
        .next (c.block s c.w .yielding true)
      else .next (c.skip s 4))

/-! ### REGGROW and REGSHRINK (R196, R332) -/

/-- Register groups in use on a core. -/
def State.groupsUsed (s : State) (core : Nat) : Nat := (s.room []).groups.count core

/-- The registers of a wave below a count. -/
def Wave.keepRegs (w : Wave) (n : Nat) : Wave := { w with vec := w.vec.filter (fun e => decide (e.1 < n)), vcount := n }

/-- A larger allocation: the registers added read 0. -/
def Wave.growRegs (w : Wave) (n : Nat) : Wave := { w.keepRegs w.vcount with vcount := n }

/-- Whether a request for `n` registers fits on a core. -/
def State.growFits (s : State) (core : Nat) (w : Wave) (n : Nat) : Bool :=
  decide (s.groupsUsed core + n / 8 ≤ 512 + w.vcount / 8)

/-- Whether a wave waits in REGGROW. -/
def Wave.growing (w : Wave) : Bool := w.frags.any (fun e => match e.2.wait with | .grow _ => true | _ => false)

/-- The oldest waiting request of a core, if it can be granted: its wave's place, the fragment, and the count (R196). -/
def State.growHead (s : State) (core : Nat) : Option (Ctx × Nat) :=
  match (s.core core).growq with
  | [] => none
  | uid :: _ =>
    match s.findWave uid with
    | none => none
    | some (k, slot, w) =>
      match w.frags.find? (fun e => match e.2.wait with | .grow _ => true | _ => false) with
      | none => none
      | some (n, f) =>
        match f.wait, s.waiter k slot n with
        | .grow m, some c => if s.growFits core w m then some (c, m) else none
        | _, _ => none

/-- Every wave of a core waits in REGGROW (R196), and no request can be granted: the youngest admitted grid with waves on it is
chosen for eviction, or, if it is the only one, the youngest request is withdrawn with REGDEADLOCK. No rule gives its TVAL: a
free value (log 16). DESIGN CHOICE (log 100): where that grid may not be chosen now, no other is, and the core waits on. -/
def State.regDeadlock (s : State) (core : Nat) : State :=
  let mine := s.waves.filter (fun e => decide (e.1 / Config.slots = core))
  if mine.isEmpty || !mine.all (fun e => e.2.growing) || (s.growHead core).isSome then s
  else
    let grids := (mine.map (fun e => e.2.ident.grid)).eraseDups
    match grids with
    | [_] =>
      match (s.core core).growq.getLast? with
      | none => s
      | some uid =>
        match s.findWave uid with
        | none => s
        | some (k, slot, w) =>
          match w.frags.find? (fun e => match e.2.wait with | .grow _ => true | _ => false) with
          | some (n, _) =>
            let (v, s) := s.draw
            s.takeTrap k slot n { cause := 0x70, tval := v }
          | none => s
    | _ =>
      let gs := s.sched.grids.filter (fun e => grids.contains e.1)
      if gs.any (fun e => e.2.chosen) then s
      else
        match sortBy (fun a b => decide (b.2.since ≤ a.2.since)) gs with
        | (n, g) :: _ => if s.choosable n g then s.choose n else s
        | [] => s

/-- Grant the oldest waiting request (R196). -/
def State.grantHead (s : State) (core : Nat) (c : Ctx) (m : Nat) : State :=
  let k := s.core core
  let s := s.setCore core { k with growq := k.growq.drop 1 }
  c.endBlock (c.complete s (c.w.growRegs m) 4)

/-- Groups that are returned serve the oldest waiting requests first, as far as they fit (R196); `n` bounds their number. -/
def State.grantAll (s : State) (core : Nat) : Nat → State
  | 0 => s
  | n + 1 =>
    match s.growHead core with
    | none => s
    | some (c, m) => State.grantAll (s.grantHead core c m) core n

/-- REGGROW (R332): it takes free groups at once, unless an older request of the core can have them. -/
def execReggrow (a : BitVec 8) (s : State) : Result :=
  scalarOp (.reggrow a) s (fun c =>
    let n := (c.get a).toNat
    if n % 8 ≠ 0 ∨ n < c.w.vcount ∨ 256 < n then trapOr s c { cause := 0x0B, tval := c.get a }
    else if n = c.w.vcount then .next (c.endBlock (c.skip s 4))
    else if s.growFits c.core c.w n && (s.growHead c.core).isNone then
      .next (c.endBlock (c.complete s (c.w.growRegs n) 4))
    else
      let k := s.core c.core
      let s := s.setCore c.core { k with growq := k.growq ++ [c.uid] }
      .next ((c.block s c.w (.grow n) true).regDeadlock c.core))

/-- REGGROW_GRANT: the oldest waiting request of a core is granted if it fits (R196). -/
def execReggrowGrant (core : Nat) (s : State) : Result :=
  match (s.core core).growq with
  | [] => .next s
  | uid :: rest =>
    if (s.findWave uid).all (fun e => !e.2.2.growing) then
      .next (s.setCore core { s.core core with growq := rest })
    else
      match s.growHead core with
      | some (c, m) => .next (s.grantHead core c m)
      | none => .next (s.regDeadlock core)

/-- Something outstanding writes a register at or above `n` (R332), or a queued instruction names one (R374). -/
def Wave.writesFrom (w : Wave) (n : Nat) : Bool :=
  w.laneAll.any (fun i => i.vecRegs.any (fun r => decide (n ≤ r))) ||
    w.work.outs.any (fun o => match o.dest with | .vector v => decide (n < v + o.nvec) | _ => false) ||
    w.mat.ops.any (fun o => decide (n < o.cbase + o.regs))

/-- REGSHRINK (R332): the groups it returns serve the requests that wait, oldest first (R196). -/
def execRegshrink (a : BitVec 8) (s : State) : Result :=
  scalarOp (.regshrink a) s (fun c =>
    let n := (c.get a).toNat
    if n % 8 ≠ 0 ∨ n < 8 ∨ c.w.vcount < n then trapOr s c { cause := 0x0B, tval := c.get a }
    else if c.w.writesFrom n then .next s
    else .next ((c.complete s (c.w.keepRegs n) 4).grantAll c.core Config.slots))

/-! ### BKPT and NOP (R333) -/

/-- BKPT: BREAKPOINT, or with a debugger attached the wave halts. -/
def execBkpt (s : State) : Result :=
  scalarOp .bkpt s (fun c =>
    let off := jobReg c.w.ident.job 0x80
    if !(s.reg off).getLsbD 0 then .next (s.trapAt c { cause := 0x06, tval := 0 })
    else
      let s := (s.setReg off (s.reg off ||| 4)).park c.uid
      .next (c.put s { c.w with sched := { c.w.sched with halted := true, atBkpt := some c.frag } }))

/-- NOP takes one issue. -/
def execNop (s : State) : Result := scalarOp .nop s (fun c => .next (c.skip s 4))

end Sys2Proof.Machine
end

