-- ==== Sys2Proof/Machine/Tasks.lean ====
section
/-!
DEFINITION. Task and queue instructions: TSPAWN, TDEP, TDONE, QPUSH, QPOP (R321 to R326) and the event that ends the
wait of a QPOP.
-/
namespace Sys2Proof.Machine

/-- A release at dev waits until every earlier access of the wave has been performed (R142). -/
def Ctx.releaseWaits (c : Ctx) : Bool := !c.w.quiet

/-- The queue that launched a wave's grid. -/
def State.gridQueue (s : State) (grid : Nat) : Nat := ((s.sched.grids.get? grid).map (·.queue)).getD 0

/-- TSPAWN (R322): a task record to the queue that launched the grid. -/
def execTspawn (d a : BitVec 8) (s : State) : Result :=
  scalarOp (.tspawn d a) s (fun c =>
    if c.releaseWaits then .next s
    else
      let q := s.gridQueue c.w.ident.grid
      let (code, t) := s.taskAppend q (c.get8 a) (some c.w.ident.job)
      let t := t.queueRefused q code
      .next ((c.kept t).finish t d (BitVec.ofNat 64 code) 4))

/-- TDEP (R323). -/
def execTdep (d a : BitVec 8) (s : State) : Result :=
  scalarOp (.tdep d a) s (fun c =>
    let n := c.get a
    if c.releaseWaits then .next s
    else if 65536 ≤ n.toNat then .next (c.finish s d 7 4)
    else if !s.depClear n.toNat then .next s
    else
      let (code, t) := s.depDec n.toNat c.w.ident.job
      .next ((c.kept t).finish t d (BitVec.ofNat 64 code) 4))

/-- The status that the record of a TDONE carries (R189): 1 if a gang has ended and some wave of it by a trap. -/
def State.doneStatus (s : State) (g : Grid) : BitVec 8 :=
  if g.gangs.any (fun e => e.2.trapped && e.2.ended) then 1
  else if s.jobState g.job = 2 ∨ g.status = 2 then 2
  else 0

/-- TDONE: the grid's completion signals, once, as a release at dev (R189, R324). -/
def execTdone (s : State) : Result :=
  scalarOp .tdone s (fun c =>
    match s.sched.grids.get? c.w.ident.grid with
    | none => .next (c.skip s 4)
    | some g =>
      if g.signaled then .next (c.skip s 4)
      else if c.releaseWaits then .next s
      else
        match s.signal c.w.ident.grid g (s.doneStatus g) with
        | (false, t) => .next t
        | (true, t) => .next ((c.again t).skip t 4))

/-- QPUSH (R325). -/
def execQpush (d a b : BitVec 8) (s : State) : Result :=
  scalarOp (.qpush d a b) s (fun c =>
    let q := c.get a
    if c.releaseWaits then .next s
    else if 64 ≤ q.toNat then .next (c.finish s d 7 4)
    else
      let (code, t) := s.dataAppend q.toNat (c.get b) (some c.w.ident.job)
      let t := t.queueRefused q.toNat code
      .next ((c.kept t).finish t d (BitVec.ofNat 64 code) 4))

/-- A queue has an entry that a QPOP may take. -/
def State.queueReady (s : State) (q : Nat) : Bool := s.queueOn q && decide (0 < s.queueCount q)

/-- QPOP: takes the oldest entry, or joins the queue's waiters and blocks (R326). It waits for the lane acquires of its
fragment (R380). -/
def execQpop (d a : BitVec 8) (s : State) : Result :=
  scalarOp (.qpop d a) s (fun c =>
    let q := (c.get a).toNat
    if 64 ≤ q ∨ s.queueJob q ≠ c.w.ident.job ∨ !s.queueData q then
      trapOr s c { cause := 0x01, tval := instrTval (.qpop d a) }
    else if c.w.acquiring c.frag then .next s
    else if s.queueReady q && !s.sched.qwait.any (fun e => e.1 == q) then
      if !s.headClear q then .next s
      else
        let (bs, t) := s.queueTake q c.w.ident.job
        .next (c.endBlock ((c.kept t).finish (t.acquireL1 c.core true true) d (wordOfBytes bs) 4))
    else
      let s := { s with sched := { s.sched with qwait := s.sched.qwait ++ [(q, c.uid, c.frag)] } }
      .next (c.block s c.w (.queue q d) true))

/-- QPOP_WAKE: the first waiter of a queue whose wave may go on takes its entry when one is there: taking it and writing
d are one act (R326). A waiter whose wave is halted is passed over until its release. -/
def execQpopWake (q : Nat) (s : State) : Result :=
  if !s.queueReady q || !s.headClear q then .next s
  else
    let may (e : Nat × Nat × Nat) : Option Ctx := (match s.findWave e.2.1 with
      | some (core, slot, _) => s.waiter core slot e.2.2
      | none => none)
    match s.sched.qwait.find? (fun e => e.1 == q && (may e).isSome) with
    | none => .next s
    | some e =>
      match may e with
      | none => .next s
      | some c =>
        match c.f.wait with
        | .queue _ d =>
          let (bs, t) := s.queueTake q c.w.ident.job
          let t := { t with sched := { t.sched with qwait := t.sched.qwait.erase e } }
          .next (c.endBlock ((c.kept t).finish (t.acquireL1 c.core true true) d (wordOfBytes bs) 4))
        | _ => .next s

end Sys2Proof.Machine
end

