-- ==== Sys2Proof/Machine/Engines.lean ====
section
/-!
DEFINITION. The copy engine: descriptors and handles (R96 to R101), the checks at issue (R107), the instructions CPY,
CPYM, CPYX and CPYR (R318), and the pieces, landings and completion of an operation (R102 to R112).
-/
namespace Sys2Proof.Machine

/-! ### Descriptors (R96, R97) -/

/-- Fields of CTL (Table 2). -/
def ctlScope (d : List Word) : Nat := bits (wordAt d 0) 31 29
def ctlBar (d : List Word) : Bool := (wordAt d 0).getLsbD 28
def ctlStw (d : List Word) : Bool := (wordAt d 0).getLsbD 27
def ctlProd (d : List Word) : Bool := (wordAt d 0).getLsbD 26
def ctlSrck (d : List Word) : Nat := bits (wordAt d 0) 25 24
def ctlDstk (d : List Word) : Nat := bits (wordAt d 0) 23 22
def ctlAcc (d : List Word) : Nat := bits (wordAt d 0) 21 20
def ctlIesz (d : List Word) : Nat := bits (wordAt d 0) 19 18

/-- A component of BOX, and a coordinate of C01 and C23. -/
def boxOf (d : List Word) (k : Nat) : Nat := bits (wordAt d 3) (16 * k + 15) (16 * k)
def coordOf (d : List Word) (k : Nat) : Int :=
  ((wordAt d (4 + k / 2)).extractLsb' (32 * (k % 2)) 32).toInt

/-- The engine instructions, which allow different kinds (Table 3 of R318). -/
inductive EngInstr where
  | cpy | cpym | cpyx | cpyr
  deriving DecidableEq, Repr

/-- Bits of CTL that break Table 2, or a pair of kinds that the instruction does not allow. -/
def badCtl (i : EngInstr) (d : List Word) : Bool :=
  let s := ctlSrck d
  let t := ctlDstk d
  bits (wordAt d 0) 63 32 != 0 || bits (wordAt d 0) 17 0 != 0 || decide (4 < ctlScope d) ||
    (match i with | .cpyr => decide (1 < ctlAcc d) | _ => ctlAcc d != 0) ||
    (match i with | .cpyx => decide (1 < ctlIesz d) | _ => ctlIesz d != 0) ||
    (match i with
     | .cpy => !((s == 0 && t == 0) || (s == 1 && t == 0) || (s == 0 && t == 1))
     | .cpym => !(t == 0 && decide (s ≤ 1))
     | .cpyx => !(s == 1 && t == 0)
     | .cpyr => !(s == 0 && t == 0 && !ctlProd d))

/-- Whether the operation moves a tile. -/
def isTile (i : EngInstr) (d : List Word) : Bool :=
  match i with | .cpy | .cpym => ctlSrck d == 1 || ctlDstk d == 1 | _ => false

/-- The first register of a descriptor that breaks Table 1 or R97 (R107, step 1). -/
def badRegister (i : EngInstr) (d : List Word) : Option Nat :=
  let tile := isTile i d
  let handle (k : Nat) : Bool := bits (wordAt d k) 63 16 != 0
  let range (v lo hi : Nat) : Bool := !(decide (lo ≤ v) && decide (v ≤ hi))
  let r3 : Bool :=
    if tile then (List.range 4).any (fun k => boxOf d k == 0)
    else match i with
      | .cpy | .cpym => range (wordAt d 3).toNat 1 4294967296
      | .cpyr => range (wordAt d 3).toNat 1 1048576
      | .cpyx => false
  let r4 : Bool := (match i with
    | .cpy | .cpym => !tile && wordAt d 4 != 0
    | .cpyx => range (wordAt d 4).toNat 1 65536
    | .cpyr => bits (wordAt d 4) 63 16 != 0)
  let r5 : Bool := (match i with
    | .cpy => !tile && wordAt d 5 != 0
    | .cpym => wordAt d 5 == 0
    | _ => wordAt d 5 != 0)
  if badCtl i d then some 0
  else if ctlSrck d = 1 && handle 1 then some 1
  else if ctlDstk d = 1 && handle 2 then some 2
  else if r3 then some 3
  else if r4 then some 4
  else if r5 then some 5
  else none

/-! ### Layout records (R98 to R100) -/

/-- Fields of a layout record (Table 4). -/
def rcdBase (r : List Word) : Nat := bits (wordAt r 0) 56 0
def rcdDim (r : List Word) (k : Nat) : Nat := bits (wordAt r (1 + k / 2)) (32 * (k % 2) + 31) (32 * (k % 2))
def rcdEsz (r : List Word) : Nat := 2 ^ bits (wordAt r 6) 11 10
def rcdStride (r : List Word) (k : Nat) : Nat := if k = 0 then rcdEsz r else bits (wordAt r (2 + k)) 47 0
def rcdRank (r : List Word) : Nat := bits (wordAt r 6) 9 8 + 1
def rcdRep (r : List Word) : Bool := (wordAt r 6).getLsbD 7
def rcdScale (r : List Word) : Bool := (wordAt r 6).getLsbD 6

/-- LAYOUTFORMAT (R100). -/
def badRecord (r : List Word) : Bool :=
  !(wordAt r 6).getLsbD 0 || bits (wordAt r 0) 63 57 != 0 || bits (wordAt r 3) 63 48 != 0 || bits (wordAt r 4) 63 48 != 0 ||
    bits (wordAt r 5) 63 48 != 0 || bits (wordAt r 6) 63 16 != 0 || bits (wordAt r 6) 5 1 != 0 || wordAt r 7 != 0 ||
    (List.range 4).any (fun k => rcdDim r k == 0 || (decide (rcdRank r ≤ k) && rcdDim r k != 1)) ||
    [1, 2, 3].any (fun k => rcdStride r k % rcdEsz r != 0) || rcdBase r % rcdEsz r != 0

/-- The number under which a wave keeps the record at an address for the instruction of fragment `n`: records lie at
multiples of 64. -/
def recKey (va n : Nat) : Nat := va + n

/-- Ask for a layout record: one line of the Lens, or eight words of a peer or the host. -/
def State.askRecord (s : State) (c : Ctx) (va pa key : Nat) : State :=
  let (id, s) := s.newId
  let els : List Elem := (List.range 8).map (fun i => ⟨0, va + 8 * i, pa + 8 * i, 8, 0, 0⟩)
  let far := decide (windowOf va ≠ .global)
  let d : Dest := .record (recKey va c.frag)
  let u : User := ⟨c.uid, id, els, d, 0x08, none, c.slot⟩
  let o := { c.mkOut id false d far false (BitVec.ofNat 64 va) with left := if far then 8 else 1 }
  let s := c.put s (c.w.addOut o)
  if far then els.foldl (fun s e => s.askRemote c.core c.slot c.w.ident.job key 0 .rd 0 u e) s
  else s.askLine c.core c.slot c.w.ident.job key (pa / 128) va u

/-- Read a layout record as a scalar load of the wave does (R99): ordered after its earlier accesses (R138, R139), checked
against the windows and the locks, and served by the L1 or by a request for its line (R52, R53), for which the instruction
waits. A failed reply traps there (R297). -/
def State.readRecord (s : State) (c : Ctx) (va : Nat) : Got (List Word) × State :=
  let ea : Word := BitVec.ofNat 64 va
  let key := recKey va c.frag
  let trap (k : BitVec 8) : Got (List Word) := .trap { cause := k, tval := ea }
  match c.w.work.deferred.find? (fun d => d.dest == .record key), c.w.sched.recs.get? key with
  | some d, _ => (.trap { cause := d.cause, tval := d.tval, h2 := d.h2, taken := some d }, s)
  | none, some r => (.ok r, s)
  | none, none =>
    if c.w.work.outs.any (fun o => o.dest == .record key) || c.accessWaits s ea 64 false false false then (.wait, s)
    else
      match windowOf va with
      | .global | .peer | .host =>
        match s.waveXlate ⟨c.core, c.slot, c.w⟩ va 0 with
        | (.wait, s) => (.wait, s)
        | (.trap t, s) => (.trap t, s)
        | (.ok (pa, leaf), s) =>
          if s.rangeLocked c.w va 64 false then (trap 0x43, s)
          else
            let k := bits leaf 60 51
            match (if windowOf va = .global then s.l1Find c.core (pa / 128) (BitVec.ofNat 10 k) c.w.ident.job else none) with
            | some l => (.ok (wordsOfBytes 8 (lineBytes l.data (pa % 128) 64)), s)
            | none => (.wait, s.askRecord c va pa k)
      | x => (trap ((windowCause x c.w.trap.sup (inWindow va 64)).getD 0x20), s)

/-- The record of a handle (R98, R100). -/
def State.handle (s : State) (c : Ctx) (h : Word) : Got (List Word) × State :=
  let t := s.taskOf c.w.ident.grid
  let bad (k : BitVec 8) : Got (List Word) := .trap { cause := k, tval := h }
  if taskHtlen t ≤ bits h 11 0 then (bad 0x41, s)
  else
    match s.readRecord c ((wordAt t 3 &&& maskBits 56 6).toNat + bits h 11 0 * 64) with
    | (.ok r, s) =>
      if bits h 15 12 ≠ bits (wordAt r 6) 15 12 then (bad 0x41, s)
      else if badRecord r then (bad 0x42, s)
      else (.ok r, s)
    | x => x

/-! ### Edges (R101) -/

/-- mirror. -/
def mirror (c : Int) (d : Nat) (rep : Bool) : Nat :=
  if d = 1 then 0
  else
    let p := if rep then 2 * d else 2 * d - 2
    let m := (c.emod p).toNat
    if m < d then m else if rep then p - 1 - m else p - m

/-- clamp. -/
def clampTo (c : Int) (d : Nat) : Nat := (min (max c 0) (Int.ofNat d - 1)).toNat

/-- The least and the greatest coordinate that `n` box elements from `c` map to, by the ends and the turns of mirror. -/
def mirrorSpan (c : Int) (n d : Nat) (rep : Bool) : Nat × Nat :=
  if d = 1 then (0, 0)
  else
    let p := if rep then 2 * d else 2 * d - 2
    if p ≤ n then (0, d - 1)
    else
      let m := (c.emod p).toNat
      let turns := [m, m + n - 1, d - 1, d, p - 1, p, p + d - 1, p + d].filter (fun x => decide (m ≤ x) && decide (x < m + n))
      let vs := turns.map (fun x => mirror (Int.ofNat x) d rep)
      (vs.foldl min (d - 1), vs.foldl max 0)

/-- The in-range coordinates of a tile store in a dimension, if any. -/
def storeSpan (c : Int) (n d : Nat) : Option (Nat × Nat) :=
  let lo := max c 0
  let hi := min (c + Int.ofNat n - 1) (Int.ofNat d - 1)
  if hi < lo then none else some (lo.toNat, hi.toNat)

/-- The elements of a box, and its bytes. -/
def boxCount (d : List Word) : Nat := boxOf d 0 * boxOf d 1 * boxOf d 2 * boxOf d 3

/-- The first byte and length of the tensor side of a tile; empty for a store that lies outside. -/
def tileRange (d r : List Word) (store : Bool) (dims : Nat) : Option (Nat × Nat) :=
  let span (k : Nat) : Option (Nat × Nat) :=
    let c := if k < dims then coordOf d k else 0
    if store then storeSpan c (boxOf d k) (rcdDim r k) else some (mirrorSpan c (boxOf d k) (rcdDim r k) (rcdRep r))
  match span 0, span 1, span 2, span 3 with
  | some a, some b, some e, some f =>
    let lo := rcdBase r + a.1 * rcdEsz r + b.1 * rcdStride r 1 + e.1 * rcdStride r 2 + f.1 * rcdStride r 3
    let hi := rcdBase r + a.2 * rcdEsz r + b.2 * rcdStride r 1 + e.2 * rcdStride r 2 + f.2 * rcdStride r 3
    some (lo, hi + rcdEsz r - lo)
  | _, _, _, _ => none

/-! ### The ranges of an operation -/

/-- A range that an operation names, with its role. -/
structure ORange where
  va    : Nat
  len   : Nat
  /-- windows that the role allows -/
  csp   : Bool
  glob  : Bool
  far   : Bool
  /-- it writes there -/
  write : Bool
  align : Nat
  deriving DecidableEq, Repr

/-- The destination bytes of an operation. -/
def destBytes (i : EngInstr) (d r : List Word) : Nat :=
  match i with
  | .cpyr => (wordAt d 3).toNat * 16
  | .cpyx => (wordAt d 4).toNat * (rcdDim r 0 * rcdEsz r)
  | _ => if isTile i d then boxCount d * rcdEsz r else (wordAt d 3).toNat

/-- The source range: an address, a tile, or the table that rows are gathered from. -/
def sourceRange (i : EngInstr) (d r : List Word) : List ORange :=
  let any (va n al : Nat) : ORange := ⟨va, n, true, true, true, false, al⟩
  match i with
  | .cpyr => [any (wordAt d 1).toNat ((wordAt d 3).toNat * 4) 4]
  | .cpyx => [⟨rcdBase r, (rcdDim r 1 - 1) * rcdStride r 1 + rcdDim r 0 * rcdEsz r, false, true, true, false, 1⟩]
  | _ =>
    if ctlSrck d = 1 then
      (match tileRange d r false (if i = .cpym then 2 else 4) with
       | some (a, n) => [⟨a, n, false, true, true, false, 1⟩]
       | none => [])
    else [any (wordAt d 1).toNat (destBytes i d r) 1]

/-- The destination range: in produce mode only scratch will do, which a tile store's is not (R107). -/
def destRange (i : EngInstr) (d r : List Word) : List ORange :=
  let va := (wordAt d 2).toNat
  let n := destBytes i d r
  if ctlDstk d = 1 then
    (match tileRange d r true 4 with
     | some (a, m) => [⟨a, m, false, !ctlProd d, !ctlProd d, true, 1⟩]
     | none => [])
  else
    let scratch := ctlProd d || i = .cpym || i = .cpyr
    [⟨va, n, true, !scratch, !scratch, true, if ctlProd d then 128 else if i = .cpyr then 16 else 1⟩]

/-- The other ranges: the index list, the barrier and the status address. -/
def otherRanges (i : EngInstr) (d : List Word) : List ORange :=
  (if i = .cpyx then
    [⟨(wordAt d 3).toNat, (wordAt d 4).toNat * (if ctlIesz d = 1 then 8 else 4), true, true, false, false,
      if ctlIesz d = 1 then 8 else 4⟩] else []) ++
  (if ctlBar d then [⟨(wordAt d 6).toNat, 32, true, false, false, true, 32⟩] else []) ++
  (if ctlStw d then [⟨(wordAt d 7).toNat, 8, true, true, false, true, 8⟩] else [])

/-- Step 3 of R107 on a range. -/
def ORange.window (o : ORange) (sup : Bool) : Option (BitVec 8) :=
  if !inWindow o.va o.len then some 0x20
  else match windowOf o.va with
    | .scratch => if o.csp then none else some 0x20
    | .global => if o.glob then none else some 0x20
    | .peer | .host => if o.far then none else some 0x20
    | .queues | .mgmt => if sup then some 0x20 else some 0x21
    | .light => if o.write then some 0x21 else some 0x20
    | .none => some 0x20

/-- The gangs that a CPYM selects (R104). -/
def maskGangs (d : List Word) : List Nat :=
  let base := scratchGang (wordAt d 2).toNat
  (List.range 64).filterMap (fun i => if (wordAt d 5).getLsbD i then some (base + i) else none)

/-- The gangs whose scratch a range names. -/
def ORange.gangs (o : ORange) (i : EngInstr) (d : List Word) : List Nat :=
  if windowOf o.va ≠ .scratch then []
  else if i = .cpym ∧ o.write ∧ (o.va = (wordAt d 2).toNat ∨ o.va = (wordAt d 6).toNat) ∧ o.align ≠ 8 then maskGangs d
  else [scratchGang o.va]

/-- Step 4 of R107 on a range (R9, R104). -/
def State.rangeOk (s : State) (grid : Nat) (i : EngInstr) (d : List Word) (o : ORange) : Bool :=
  windowOf o.va != .scratch ||
    (o.va / 4294967296 % 1048576 == 0 &&
      (o.gangs i d).all (fun g => decide (g ≤ 255) && (match s.gangLen grid g with
        | some n => decide (scratchOff o.va + o.len ≤ n)
        | none => false)))

/-- Step 5 of R107 on a range: the cause is that of its window. -/
def ORange.misaligned (o : ORange) : Option (BitVec 8) :=
  if o.va % o.align = 0 && (o.align != 128 || o.len % 128 == 0) then none
  else if windowOf o.va = .scratch then some 0x31 else some 0x04

/-- The lock that a range enters (R113). -/
def ORange.lock (o : ORange) (op grid gang : Nat) (i : EngInstr) (d : List Word) : Lock :=
  ⟨op, grid, gang, o.gangs i d, if windowOf o.va = .scratch then scratchOff o.va else o.va, o.len, o.write, i == .cpyr⟩

/-- Whether two locks overlap. -/
def Lock.meets (a b : Lock) : Bool :=
  decide (a.base < b.base + b.len) && decide (b.base < a.base + a.len) &&
    (if a.gangs.isEmpty then b.gangs.isEmpty else a.gangs.any (b.gangs.contains ·))

/-- Step 6 of R107 (R114): the destination meets a locked range, or the source a write-locked one. -/
def State.lockedRange (s : State) (w : Wave) (i : EngInstr) (d : List Word) (o : ORange) : Bool :=
  let l := o.lock 0 w.ident.grid w.ident.gang i d
  !w.trap.sup && (s.gangLocks w.ident.grid w.ident.gang).any (fun k =>
    k.meets l && (k.write || o.write) && !(o.write && i == .cpyr && k.cpyr && k.write))

/-- The ranges that are locked: the destination, and the source; for CPYX the index list (R113). -/
def lockRanges (i : EngInstr) (d r : List Word) : List ORange :=
  (if i = .cpyx then (otherRanges i d).take 1 else sourceRange i d r) ++ destRange i d r

/-- The first range that fails a test. -/
def firstBad (l : List ORange) (f : ORange → Option (BitVec 8)) : Option Trap :=
  match l.find? (fun o => (f o).isSome) with
  | some o => (f o).map (fun k => { cause := k, tval := BitVec.ofNat 64 o.va })
  | none => none

/-- Steps 3 to 6 of R107. -/
def State.engTrap (s : State) (w : Wave) (i : EngInstr) (d r : List Word) : Option Trap :=
  let all := sourceRange i d r ++ destRange i d r ++ otherRanges i d
  match firstBad all (·.window w.trap.sup) with
  | some t => some t
  | none =>
    match firstBad all (fun o => if s.rangeOk w.ident.grid i d o then none else some 0x30) with
    | some t => some t
    | none =>
      match firstBad all (·.misaligned) with
      | some t => some t
      | none => firstBad (lockRanges i d r) (fun o => if s.lockedRange w i d o then some 0x43 else none)

/-- COPYFORMAT for a box or a rank that breaks R103, R104 or R105 (R107, step 2). -/
def badBox (i : EngInstr) (d r : List Word) : Option Nat :=
  match i with
  | .cpyx => if rcdRank r ≠ 2 then some 1 else none
  | _ =>
    if !isTile i d then none
    else if (List.range 4).any (fun k => decide (rcdRank r ≤ k) && boxOf d k != 1) || decide (16777216 < boxCount d * rcdEsz r)
    then some 3 else none

/-- The kind of an operation, and its counter (Table 3 of R318). -/
def engKind (i : EngInstr) (d : List Word) : EngKind :=
  match i with
  | .cpy => if ctlSrck d = 1 then .tileLoad else if ctlDstk d = 1 then .tileStore else .linear
  | .cpym => if ctlSrck d = 1 then .mcastTile else .mcast
  | .cpyx => .gather
  | .cpyr => .accum
def EngKind.counter : EngKind → Nat
  | .linear => 0x00 | .tileLoad | .tileStore => 0x08 | .mcast | .mcastTile => 0x10 | .gather => 0x18 | .accum => 0x20
  | .nlsend => 0x28

/-- A new operation of a wave. -/
def Ctx.newOp (c : Ctx) (k : EngKind) (d : BitVec 8) (desc rcd : List Word) (wide : Bool) : EngOp where
  kind := k
  uid := c.uid
  ident := c.w.ident
  core := c.core
  slot := c.slot
  frag := c.frag
  d := d
  desc := desc
  rcd := rcd
  waitOuts := (c.w.work.outs.filter (fun o => o.heirs.contains c.frag)).map (·.id)
  waitSeqs := (c.w.laneAll.filter (fun i => i.heirs.contains c.frag)).map (·.seq)
  wide := wide
  pos := 0
  buf := none
  idx := none
  flight := none
  served := 0
  lines := 0
  flags := 0
  bytes := 0
  conds := []
  aborted := false
  landed := []
  fault := none
  dropped := []

/-- Start an operation (R108, R109, R113): it takes a slot and a count, locks its ranges, marks d pending. -/
def Ctx.startOp (c : Ctx) (s : State) (op : EngOp) (locks : Nat → List Lock) : Result :=
  if 256 ≤ s.slotsUsed c.core then .next (c.put s { c.w with sched := { c.w.sched with noSlot := addSlots c.w.sched.noSlot [c.frag] } })
  else if 63 ≤ s.cpCount c.uid then .next s
  else
    let (n, s) := s.newId
    let s := s.bump (ceReg c.cluster op.kind.counter)
    let k := s.core c.core
    let s := s.setCore c.core { k with locks := k.locks ++ locks n }
    let s := { s with engines := s.engines.set n op }
    .next (c.skip s 4)

/-- An engine instruction (R107, R318): its checks in order, then its operation. It waits for the lane acquires of its
fragment (R380). -/
def Ctx.engine (c : Ctx) (s : State) (i : EngInstr) (d a : BitVec 8) : Result :=
  let desc := c.get8 a
  if c.w.acquiring c.frag then .next s else
  match badRegister i desc with
  | some k => trapOr s c { cause := 0x40, tval := BitVec.ofNat 64 k }
  | none =>
    let h := if ctlSrck desc = 1 then some (wordAt desc 1) else if ctlDstk desc = 1 then some (wordAt desc 2) else none
    match (match h with | some h => s.handle c h | none => (.ok [], s)) with
    | (.wait, s) => .next s
    | (.trap t, s) => trapOr s c t
    | (.ok r, s) =>
      match badBox i desc r with
      | some k => trapOr s c { cause := 0x40, tval := BitVec.ofNat 64 k }
      | none =>
        match s.engTrap c.w i desc r with
        | some t => trapOr s c t
        | none =>
          let op := c.newOp (engKind i desc) d desc r (decide (1 ≤ ctlScope desc))
          c.startOp s op (fun n => (lockRanges i desc r).map (fun o => o.lock n c.w.ident.grid c.w.ident.gang i desc))

/-- CPY: copies a range or a tile (R102, R103, R318). -/
def execCpy (d a : BitVec 8) (s : State) : Result := scalarOp (.cpy d a) s (fun c => c.engine s .cpy d a)
/-- CPYM: multicasts a range or a tile into the scratch of several gangs (R104). -/
def execCpym (d a : BitVec 8) (s : State) : Result := scalarOp (.cpym d a) s (fun c => c.engine s .cpym d a)
/-- CPYR: accumulates elements into FX128 accumulators (R106). -/
def execCpyr (d a : BitVec 8) (s : State) : Result := scalarOp (.cpyr d a) s (fun c => c.engine s .cpyr d a)
/-- CPYX: gathers rows of a tensor (R105). -/
def execCpyx (d a : BitVec 8) (s : State) : Result := scalarOp (.cpyx d a) s (fun c => c.engine s .cpyx d a)

/-! ### The bytes of an operation -/

/-- The instruction that started an operation. -/
def EngOp.instr (o : EngOp) : EngInstr :=
  match o.kind with
  | .mcast | .mcastTile => .cpym | .gather => .cpyx | .accum => .cpyr | _ => .cpy

/-- Destination bytes of an operation in all. -/
def EngOp.total (o : EngOp) : Nat := destBytes o.instr o.desc o.rcd

/-- Where a piece ends that starts at `pos`: at most 1,024 bytes on, at a 1,024-byte boundary of the destination
address, or of the dense offset where the destination is a tensor (R110). -/
def EngOp.pieceEnd (o : EngOp) : Nat :=
  let base := if ctlDstk o.desc = 1 then 0 else (wordAt o.desc 2).toNat
  min o.total (o.pos + (1024 - (base + o.pos) % 1024))

/-- The box coordinates of the element at a dense offset. -/
def boxCoord (d : List Word) (e k : Nat) : Nat :=
  match k with
  | 0 => e % boxOf d 0
  | 1 => e / boxOf d 0 % boxOf d 1
  | 2 => e / (boxOf d 0 * boxOf d 1) % boxOf d 2
  | _ => e / (boxOf d 0 * boxOf d 1 * boxOf d 2)

/-- The address of the tensor byte that a dense byte of a tile takes or gives; none for an element of a store outside
the tensor (R101, R103). -/
def EngOp.tileByte (o : EngOp) (off : Nat) : Option Nat :=
  let r := o.rcd
  let e := off / rcdEsz r
  let dims := if o.kind = .mcastTile then 2 else 4
  let c (k : Nat) : Int := (if k < dims then coordOf o.desc k else 0) + Int.ofNat (boxCoord o.desc e k)
  let at_ (f : Nat → Nat) : Nat :=
    rcdBase r + f 0 * rcdEsz r + f 1 * rcdStride r 1 + f 2 * rcdStride r 2 + f 3 * rcdStride r 3 + off % rcdEsz r
  if o.kind = .tileStore then
    if (List.range 4).all (fun k => decide (0 ≤ c k) && decide (c k < Int.ofNat (rcdDim r k))) then
      some (at_ (fun k => (c k).toNat))
    else none
  else some (at_ (fun k => mirror (c k) (rcdDim r k) (rcdRep r)))

/-- Cut the addresses of a piece's bytes into runs that keep within 4 KiB. -/
def runsOf : Nat → List (Option Nat) → List Run
  | _, [] => []
  | i, none :: as => runsOf (i + 1) as
  | i, some a :: as =>
    match runsOf (i + 1) as with
    | r :: rs => if r.va = a + 1 ∧ r.at_ = i + 1 ∧ (a + 1) % 4096 ≠ 0 then ⟨a, r.len + 1, i⟩ :: rs else ⟨a, 1, i⟩ :: r :: rs
    | [] => [⟨a, 1, i⟩]

/-- The runs of `n` consecutive bytes, which keep within 4 KiB. -/
def linearRuns (va n : Nat) : List Run :=
  (List.range ((va + n - 1) / 4096 - va / 4096 + 1)).map (fun i =>
    let lo := max va ((va / 4096 + i) * 4096)
    let hi := min (va + n) ((va / 4096 + i + 1) * 4096)
    ⟨lo, hi - lo, lo - va⟩)

/-! ### Translated ranges -/

/-- The place of a run whose first byte translates to a PA under a key (R10, R11). -/
def State.placeOf (s : State) (va pa key : Nat) : Place :=
  match windowOf va with
  | .global => .mem pa key
  | .peer => if peerOf va = s.ownNumber then .own pa key else .far
  | _ => .far

/-- Translate the runs of a piece (R21): their places, none while a translation waits; and the faults. `write`: they are
written next, so D is set (R18). `by_`: who waits for a walk (R20). -/
def State.places (s : State) (by_ : Asker) (o : EngOp) (acc : BitVec 3) (write : Bool) :
    List Run → Option (List (Run × Place)) × List PageFault × State
  | [] => (some [], [], s)
  | r :: rs =>
    if windowOf r.va = .scratch then
      let (l, f, s) := State.places s by_ o acc write rs
      (l.map (fun l => (r, .scratch (scratchGang r.va) (scratchOff r.va)) :: l), f, s)
    else
      match s.xlateNow o.core o.slot o.ident.job r.va acc write by_ with
      | (.miss, s) => (none, [], s)
      | (.ok pa leaf, s) =>
        let (l, f, s) := State.places s by_ o acc write rs
        (l.map (fun l => (r, s.placeOf r.va pa (bits leaf 60 51)) :: l), f, s)
      | (.fault c lv e, s) =>
        let (l, f, s) := State.places s by_ o acc write rs
        (l, ⟨r.va, c, lv, e⟩ :: f, s)

/-- The issuing wave is evicted. -/
def State.absent (s : State) (uid : Nat) : Bool := s.away.has uid

/-- A condition arises (R112). -/
def EngOp.cond (o : EngOp) (c : BitVec 8) (absent : Bool) : EngOp :=
  { o with
    conds := if o.conds.contains c then o.conds else o.conds ++ [c]
    flags := if absent then o.flags ||| 2 else o.flags }

/-- The records of an engine fault name these (R31, R32). -/
def State.engRecordOf (s : State) (o : EngOp) (agent : BitVec 3) (acc : BitVec 2) : RecordOf :=
  { die := dieOf o.core, core := o.core, slot := o.slot, job := o.ident.job, agent := agent, acc := acc,
    absent := s.absent o.uid }

/-! ### The accesses of a piece (R36, R56 to R59, R111) -/

/-- The origin of an engine's accesses at a base die that it reaches through the fabric (R49). -/
def EngOp.origin (o : EngOp) : Origin := { src := dieOf o.core, job := o.ident.job, orig := 0 }

/-- The parts of a run at a PA that end at multiples of `u` bytes, each with its PA. -/
def Run.cut (r : Run) (pa u : Nat) : List (Run × Nat) :=
  (List.range ((pa + r.len - 1) / u - pa / u + 1)).map (fun i =>
    let lo := max pa ((pa / u + i) * u)
    let hi := min (pa + r.len) ((pa / u + i + 1) * u)
    (⟨r.va + (lo - pa), hi - lo, r.at_ + (lo - pa)⟩, lo))

/-- A request of an engine for a line, or for an atom that it writes: it passes the slice of its stack (R56, R59). -/
def State.askEngine (s : State) (o : EngOp) (pa key : Nat) (r : Run) (f : Txn → Txn) : Req × State :=
  let (n, s) := s.newId
  let t := mkTxn o.core o.slot o.ident.job .rd pa r.va key ⟨o.uid, 0, [], .none, 0, none, o.slot⟩
  (⟨n, r.va, r.at_, r.len⟩, s.setTxn n (f { t with users := [], seen := 0, owner := true, die := stackOf pa / 3 }))

/-- The requests that read the parts of a run of memory, one for each line. -/
def State.askReads (s : State) (o : EngOp) (r : Run) (pa key : Nat) : List Req × State :=
  (r.cut pa 128).foldl (fun (p : List Req × State) x =>
    let (q, s) := p.2.askEngine o (x.2 / 128 * 128) key x.1 (fun t => { t with cnt := 2 })
    (p.1 ++ [q], s)) ([], s)

/-- The requests that write the parts of a run of memory, one for each atom: a WR of a whole one, else a WRM. -/
def State.askWrites (s : State) (o : EngOp) (buf : List Byte) (r : Run) (pa key : Nat) : List Req × State :=
  (r.cut pa 64).foldl (fun (p : List Req × State) x =>
    let off := x.2 % 64
    let data := List.replicate off 0 ++ (buf.drop x.1.at_).take x.1.len ++ List.replicate (64 - off - x.1.len) 0
    let (q, s) := p.2.askEngine o (x.2 / 64 * 64) key x.1 (fun t =>
      { t with op := if x.1.len = 64 then .wr else .wrm, data := data, bmask := BitVec.ofNat 64 (allBytes x.1.len * 2 ^ off), acc := 1 })
    (p.1 ++ [q], s)) ([], s)

/-- The accesses of a piece set out: requests for what lies in memory; the rest is performed when the piece goes on. `buf`:
the bytes to write. -/
def State.launch (s : State) (o : EngOp) (buf : Option (List Byte)) (l : List (Run × Place)) : Flight × State :=
  let (q, s) := l.foldl (fun (p : List Req × State) x =>
    match x.2 with
    | .mem pa key =>
      let (q, s) := (match buf with | none => p.2.askReads o x.1 pa key | some bs => p.2.askWrites o bs x.1 pa key)
      (p.1 ++ q, s)
    | _ => p) ([], s)
  (⟨l, q⟩, s)

/-- What an access of a piece met, with the bytes it gives if it reads. -/
structure Answer where
  part   : Run
  status : Status
  bytes  : List Byte
  deriving DecidableEq, Repr

/-- The answers to the requests of a piece, once each has its own. -/
def State.replies (s : State) (write : Bool) : List Req → Option (List Answer)
  | [] => some []
  | q :: qs =>
    match s.txn? q.id, State.replies s write qs with
    | some t, some l =>
      if t.phase = .replied then
        let bs := if write then [] else if t.status.good then (t.data.drop (q.va % 128)).take q.len else List.replicate q.len 0
        some (⟨⟨q.va, q.len, q.at_⟩, t.status, bs⟩ :: l)
      else none
    | _, _ => none

/-- What another device or the host answers for a run of a piece: `ext` answers for the whole piece, and bytes that it
leaves out are free values. -/
def State.farAnswer (s : State) (ext : Remote) (r : Run) : Answer × State :=
  match ext with
  | .data bs =>
    let got := (bs.drop r.at_).take r.len
    let (more, s) := s.freeBytes (r.len - got.length)
    (⟨r, .ok, got ++ more⟩, s)
  | .keyMismatch => (⟨r, .keyMismatch, List.replicate r.len 0⟩, s)
  | .linkError =>
    let (bs, s) := s.freeBytes r.len
    (⟨r, .link, bs⟩, s)

/-- Read, in the step in which a piece goes on, what it has in scratch, at an own peer address, and beyond the links. -/
def State.readNow (s : State) (o : EngOp) (ext : Remote) (x : Run × Place) : List Answer × State :=
  match x.2 with
  | .scratch g off =>
    let (bs, s) := s.gangRead o.ident.grid g off x.1.len
    ([⟨x.1, .ok, bs⟩], s)
  | .own pa key =>
    (x.1.cut pa 128).foldl (fun (p : List Answer × State) y =>
      let (st, bs, s) := p.2.dieRead y.2 y.1.len (BitVec.ofNat 10 key) [] o.origin
      (p.1 ++ [⟨y.1, st, bs⟩], s)) ([], s)
  | .mem _ _ => ([], s)
  | .far => let (a, s) := s.farAnswer ext x.1; ([a], s)

/-- Write such places of a piece, scratch apart: the notices of the writes close Lens entries (R60). -/
def State.writeNow (s : State) (o : EngOp) (ext : Remote) (buf : List Byte) (x : Run × Place) : List Answer × State :=
  match x.2 with
  | .own pa key =>
    (x.1.cut pa 128).foldl (fun (p : List Answer × State) y =>
      let bs := (buf.drop y.1.at_).take y.1.len
      let (st, s) := p.2.dieWrite y.2 bs (allBytes bs.length) (BitVec.ofNat 10 key) [] o.origin
      (p.1 ++ [⟨y.1, st, []⟩], s.closeLine y.2)) ([], s)
  | .far =>
    let st : Status := (match ext with | .data _ => .ok | .keyMismatch => .keyMismatch | .linkError => .link)
    let s := if st = .keyMismatch then s.raiseMcheck else s
    ([⟨x.1, st, []⟩], s)
  | _ => ([], s)

/-- A function over the places of a piece, in order. -/
def State.overPlaces (s : State) (f : State → Run × Place → List Answer × State) : List (Run × Place) → List Answer × State
  | [] => ([], s)
  | x :: xs =>
    let (a, s) := f s x
    let (b, s) := State.overPlaces s f xs
    (a ++ b, s)

/-- What an operation makes of the status of a read (R111), and of a write. -/
def EngOp.met (o : EngOp) (st : Status) (gone : Bool) : EngOp :=
  match st with
  | .poison | .retired => o.cond 5 gone
  | .notLive | .keyMismatch => { o with flags := o.flags ||| 4 }
  | .link => o.cond 3 gone
  | _ => o
def EngOp.metWrite (o : EngOp) (st : Status) (gone : Bool) : EngOp := if st = .link then o.cond 3 gone else o

/-- The pages of a piece's accesses that met a foreign key (R26). -/
def mismatchedPages (l : List Answer) : List PageFault :=
  distinctFaults ((l.filter (fun a => a.status == .keyMismatch)).map (fun a => ⟨a.part.va, 0x26, 7, 0⟩))

/-- The requests of a piece have been taken. -/
def State.dropReqs (s : State) (l : List Req) : State := l.foldl (fun s q => s.delTxn q.id) s

/-- The records of a piece's mismatches (R26): none while they can't be taken (R32). -/
def State.pieceRecords (s : State) (o : EngOp) (acc : BitVec 2) (l : List Answer) : Option State :=
  let fs := mismatchedPages l
  if fs.isEmpty then some s
  else if !s.canRecord (dieOf o.core) o.ident.job fs.length then none
  else some (s.record (s.engRecordOf o 5 acc) fs).2

/-- The bytes of a piece's part of `n` bytes, from its answers. -/
def answerBytes (n : Nat) (l : List Answer) : List Byte :=
  l.foldl (fun all a => all.take a.part.at_ ++ a.bytes ++ all.drop (a.part.at_ + a.part.len)) (List.replicate n 0)

/-- Whether what a piece accesses in the step in which it goes on can be performed then (R36, R40): memory at an own peer
address, which the port of its die reaches, and for a read the image of an absent gang. -/
def State.nowClear (s : State) (o : EngOp) (read : Bool) (l : List (Run × Place)) : Bool :=
  l.all (fun x => match x.2 with
    | .own pa _ => s.rangeClear (dieOf o.core) pa x.1.len
    | .scratch g off => !read || s.gangClear o.ident.grid g off x.1.len
    | _ => true)

/-- Take what a part of `n` bytes of a piece has read: its bytes, and the operation with what it met; none while it waits. -/
def State.takeReads (s : State) (o : EngOp) (f : Flight) (ext : Remote) (n : Nat) : Option (List Byte × EngOp × State) :=
  match (if s.nowClear o true f.runs then s.replies false f.reqs else none) with
  | none => none
  | some sent =>
    let (now, t) := s.overPlaces (fun s x => s.readNow o ext x) f.runs
    let all := now ++ sent
    match t.pieceRecords o 0 all with
    | none => none
    | some t =>
      let o := all.foldl (fun o a => o.met a.status (s.absent o.uid)) o
      some (answerBytes n all, { o with flight := none }, t.dropReqs f.reqs)

/-- The copies of the lines that a piece has written leave the L1 of the core on which its issuer is (R143): the issuer's own
later loads see the bytes. A wave that resumes finds an L1 with no line (R152). -/
def State.dropWritten (s : State) (o : EngOp) (l : List (Run × Place)) : State :=
  match s.findWave o.uid with
  | none => s
  | some (core, _, _) =>
    l.foldl (fun s x =>
      match x.2 with
      | .mem pa _ => (linesOf pa x.1.len).foldl (fun s n => (s.l1Drop core (n * 128)).noFill core n) s
      | _ => s) s

/-- Take the replies of what a piece has written: the bytes that were, and the operation; none while it waits. -/
def State.takeWrites (s : State) (o : EngOp) (f : Flight) (ext : Remote) (buf : List Byte) : Option (Nat × EngOp × State) :=
  match (if s.nowClear o false f.runs then s.replies true f.reqs else none) with
  | none => none
  | some sent =>
    let (now, t) := s.overPlaces (fun s x => s.writeNow o ext buf x) f.runs
    let all := now ++ sent
    match t.pieceRecords o 1 all with
    | none => none
    | some t =>
      let o := all.foldl (fun o a => o.metWrite a.status (s.absent o.uid)) o
      let n := ((all.filter (·.status.good)).map (·.part.len)).foldl (· + ·) 0
      some (n, { o with flight := none }, (t.dropReqs f.reqs).dropWritten o f.runs)

/-! ### FX128 accumulation (R106) -/

/-- Put the operation back. -/
def State.setOp (s : State) (id : Nat) (o : EngOp) : State := { s with engines := s.engines.set id o }

/-- One accumulation of an element: the new accumulator, and SAT and NAN. -/
def accumulate (exp : BitVec 16) (int32 : Bool) (a : BitVec 128) (x : Word32) : BitVec 128 × Bool × Bool :=
  let satv : BitVec 128 := 1#128 <<< 127
  if a = satv then (satv, false, false)
  else
    match fx128Term exp int32 x with
    | .nan => (satv, false, true)
    | .inf => (satv, true, false)
    | .val q =>
      let t := a.toInt + q
      if t < -(2 ^ 127) + 1 ∨ 2 ^ 127 - 1 < t then (satv, true, false) else (BitVec.ofInt 128 t, false, false)

/-- Accumulate elements over the accumulators that bytes hold: the new bytes, and SAT and NAN. -/
def accumulateAll (exp : BitVec 16) (int32 : Bool) : List Byte → List Word32 → List Byte × Bool × Bool
  | _, [] => ([], false, false)
  | bs, x :: xs =>
    let (v, s1, n1) := accumulate exp int32 (BitVec.ofNat 128 (natOfBytes (bs.take 16))) x
    let (rest, s2, n2) := accumulateAll exp int32 (bs.drop 16) xs
    (bytesOfNat 16 v.toNat ++ rest, s1 || s2, n1 || n2)

/-- The 32-bit elements that bytes spell. -/
def word32s : Nat → List Byte → List Word32
  | 0, _ => []
  | n + 1, bs => BitVec.ofNat 32 (natOfBytes (bs.take 4)) :: word32s n (bs.drop 4)

end Sys2Proof.Machine
end

