-- ==== Sys2Proof/Machine/Pieces.lean ====
section
/-!
DEFINITION. The pieces of an engine operation (R109 to R111), one ENGINE_PIECE at a time: the piece is read, written to
each destination and landed, and after the last one the status word completes the operation (R110, R112).
-/
namespace Sys2Proof.Machine

/-! ### When an operation may go on (R109) -/

/-- Lane instructions of a wave that have not begun, those that a trap has frozen among them. -/
def Wave.laneWaiting (w : Wave) : List LaneItem := w.laneAll ++ w.trap.frozen ++ w.trap.frest

/-- An access that an operation's issue comes after: one that was in flight at issue, or one that an earlier lane
instruction has made since. -/
def EngOp.afterOut (o : EngOp) (x : Out) : Bool :=
  o.waitOuts.contains x.id || (match x.seq with | some n => o.waitSeqs.contains n | none => false)

/-- Whether an operation's issue, a release, still waits for earlier accesses of its wave (R109, R142, R147, R318): at gang or
wider for all; at scope wave, among those of lane instructions that have not begun, for those to the bytes that it reads
next. Those of a wave that is absent have no addresses until it resumes (log 96). -/
def State.engHeld (s : State) (o : EngOp) (reads : List Run) : Bool :=
  match s.findWave o.uid, s.away.get? o.uid with
  | some (core, _, w), _ =>
    w.work.outs.any o.afterOut || (w.laneWaiting.zipIdx).any (fun p => o.waitSeqs.contains p.1.seq &&
      (if o.wide then p.1.memory
       else (p.1.near || p.1.far) &&
        s.itemTouches core w (reads.map (fun r => (r.va, r.len))) (w.laneWaiting.take p.2) p.1))
  | none, some a =>
    a.outs.any o.afterOut || (a.frozen ++ a.frest).any (fun i => o.waitSeqs.contains i.seq &&
      (if o.wide then i.memory else i.near || i.far))
  | none, none => false

/-- Whether the reply-diversion entries of a wave are closed for a resume (R126): what is bound for it is held. -/
def State.rdivClosed (s : State) (uid : Nat) : Bool :=
  s.cores.any (fun c => c.2.rdiv.any (fun r => r.2.uid == uid && r.2.state == 2))

/-! ### Faults of a piece (R31, R111) -/

/-- The operation takes a fault record group: the first one's SEQ, agent and size stay for COPYFAULT. -/
def EngOp.faulted (o : EngOp) (seq : BitVec 16) (agent : BitVec 3) (n : Nat) (absent : Bool) : EngOp :=
  let o := o.cond 4 absent
  { o with fault := (match o.fault with | some f => some f | none => some (seq, agent, n)) }

/-- The records of a piece's faults, first those of its source, which `agent` reads, then those of its destination: one for
each pair of page and cause (R31). -/
def State.pieceGroup (s : State) (o : EngOp) (agent : BitVec 3) (src dst : List PageFault) : List (RecordOf × PageFault) :=
  let src := distinctFaults src
  let dst := (distinctFaults dst).filter (fun f => !src.any (fun g => g.va / 65536 == f.va / 65536 && g.cause == f.cause))
  src.map (fun f => (s.engRecordOf o agent 0, f)) ++ dst.map (fun f => (s.engRecordOf o 2 1, f))

/-! ### Reading a piece -/

/-- The bytes of the source that a piece of the destination from `pos` to `stop` takes, as runs (R102 to R106). -/
def EngOp.sourceRuns (o : EngOp) (pos stop : Nat) : List Run :=
  match o.kind with
  | .accum => linearRuns ((wordAt o.desc 1).toNat + pos / 4) ((stop - pos) / 4)
  | .tileLoad | .mcastTile => runsOf 0 ((List.range (stop - pos)).map (fun i => o.tileByte (pos + i)))
  | _ => linearRuns ((wordAt o.desc 1).toNat + pos) (stop - pos)

/-- Bytes of a row of a gather, and the size of an index. -/
def EngOp.rowBytes (o : EngOp) : Nat := rcdDim o.rcd 0 * rcdEsz o.rcd
def EngOp.idxSize (o : EngOp) : Nat := if ctlIesz o.desc = 1 then 8 else 4

/-- The index of a row as the index list's bytes give it, clamped, and whether it was (R101, R105). -/
def EngOp.rowOf (o : EngOp) (bs : List Byte) (k : Nat) : Nat × Bool :=
  let v := natOfBytes ((bs.drop (k * o.idxSize)).take o.idxSize)
  let i : Int := if o.idxSize = 8 then (BitVec.ofNat 64 v).toInt else (BitVec.ofNat 32 v).toInt
  let r := clampTo i (rcdDim o.rcd 1)
  (r, decide (Int.ofNat r ≠ i))

/-- The runs of the rows that a piece of a gather takes, from its part of the index list. -/
def EngOp.gatherRuns (o : EngOp) (pos stop : Nat) (idx : List Byte) : List Run :=
  let row := o.rowBytes
  let j0 := pos / row
  let at_ (i : Nat) : Nat :=
    let p := pos + i
    rcdBase o.rcd + (o.rowOf idx (p / row - j0)).1 * rcdStride o.rcd 1 + p % row
  runsOf 0 ((List.range (stop - pos)).map (fun i => some (at_ i)))

/-- The agent that the records of source faults name: the gather front end for CPYX, else the copy engine (R32). -/
def EngOp.agent (o : EngOp) : BitVec 3 := if o.kind = .gather then 3 else 2

/-- What a piece reads next, with its length: the part of the index list that a gather's piece takes, then the source. -/
def EngOp.partRuns (o : EngOp) (pos stop : Nat) : Nat × List Run :=
  if o.kind = .gather then
    match o.idx with
    | some bs => (stop - pos, o.gatherRuns pos stop bs)
    | none =>
      let j0 := pos / o.rowBytes
      let n := ((stop - 1) / o.rowBytes + 1 - j0) * o.idxSize
      (n, linearRuns ((wordAt o.desc 3).toNat + j0 * o.idxSize) n)
  else (if o.kind = .accum then (stop - pos) / 4 else stop - pos, o.sourceRuns pos stop)

/-- The part that comes next is an index list. -/
def EngOp.inIndex (o : EngOp) : Bool := o.kind == .gather && o.idx.isNone

/-- A part of a piece has been read: an index list gives CLAMP (R105), the source the bytes to write. -/
def EngOp.gotPart (o : EngOp) (bs : List Byte) : EngOp :=
  if o.inIndex then
    let clamped := (List.range (bs.length / o.idxSize)).any (fun k => (o.rowOf bs k).2)
    { o with idx := some bs, flags := if clamped then o.flags ||| 8 else o.flags }
  else { o with buf := some bs }

/-- The runs of a destination in a translated window. -/
def EngOp.destRuns (o : EngOp) (pos stop : Nat) : List Run :=
  if o.kind = .tileStore then runsOf 0 ((List.range (stop - pos)).map (fun i => o.tileByte (pos + i)))
  else if windowOf (wordAt o.desc 2).toNat = .scratch then []
  else linearRuns ((wordAt o.desc 2).toNat + pos) (stop - pos)

/-! ### Writing a piece -/

/-- Whether the operation writes scratch; its destination gangs, and the offset of byte `pos` in them. -/
def EngOp.toScratch (o : EngOp) : Bool := o.kind != .tileStore && windowOf (wordAt o.desc 2).toNat == .scratch
def EngOp.gangs (o : EngOp) : List Nat :=
  match o.kind with
  | .mcast | .mcastTile => maskGangs o.desc
  | _ => [scratchGang (wordAt o.desc 2).toNat]
def EngOp.destOff (o : EngOp) (pos : Nat) : Nat := scratchOff (wordAt o.desc 2).toNat + pos

/-- Where a piece that is written to gang `g` lands: a barrier of that gang, or of another (R104, R110). -/
def EngOp.barOf (o : EngOp) (g : Nat) : Option (Nat × Nat) :=
  if !ctlBar o.desc then none
  else
    let va := (wordAt o.desc 6).toNat
    match o.kind with
    | .mcast | .mcastTile => some (g, scratchOff va)
    | _ => some (scratchGang va, scratchOff va)

/-- An operation of a grid lands a piece, or writes some of its bytes: the grid has moved (R212). -/
def State.moves (s : State) (grid : Nat) : State := s.updGrid grid (fun g => { g with moved := true })

/-- Bytes written: BYTES and CEBYTES count them (R112, R116). -/
def State.wrote (s : State) (o : EngOp) (n : Nat) : EngOp × State :=
  ({ o with bytes := o.bytes + n },
    if n = 0 then s else (s.bump (ceReg (clusterOf o.core) 0x30) n).moves o.ident.grid)

/-- Bytes for an ended gang are dropped (R130): the record to come, its first address, its count. -/
def EngOp.drop (o : EngOp) (g off n : Nat) (absent : Bool) : EngOp :=
  let o := o.cond 2 absent
  if o.dropped.any (fun e => e.1 == g) then
    { o with dropped := o.dropped.map (fun e => if e.1 = g then (e.1, e.2.1, e.2.2 + n) else e) }
  else { o with dropped := o.dropped ++ [(g, off, n)] }

/-- A landing that was taken, or one that was dropped (R82, R112). -/
def EngOp.landedAt (o : EngOp) (ok : Bool) (g off : Nat) (absent : Bool) : EngOp :=
  if ok then { o with landed := if o.landed.contains (g, off) then o.landed else o.landed ++ [(g, off)] }
  else o.cond 1 absent

/-- Arrivals of an operation that its diversion points hold, and those for one gang. -/
def State.opArrivals (s : State) (id : Nat) : Bool := s.arrivals.any (fun a => !a.isWave && a.sender == id)
def State.opArrivalsAt (s : State) (id gang : Nat) : Bool :=
  s.arrivals.any (fun a => !a.isWave && a.sender == id && a.gang == gang)

/-- Whether a diversion point takes an arrival of an operation (R123): in OPEN one that a line blocks keeps its sender's
later ones from passing. -/
def State.takesArrival (s : State) (grid gang id : Nat) : Bool :=
  s.roomAt grid gang && !((match s.shipOf grid gang with | some (_, _, h) => h.state == 2 | none => false) && s.opArrivalsAt id gang)

/-- An arrival passes a diversion point, or waits there. -/
def State.queueArrival (s : State) (a : Arrival) : State := { s with arrivals := s.arrivals ++ [a] }

/-- Land `b` bytes at a barrier of a gang (R110, R122, R130); none: its diversion point takes no arrival. -/
def State.landBytes (s : State) (id : Nat) (o : EngOp) (g off b : Nat) : Option (EngOp × State) :=
  let gone := s.absent o.uid
  match s.scratchHome o.ident.grid g with
  | .here cl base =>
    if s.opArrivalsAt id g then none
    else
      -- the operation is seen to have landed there before waiters wake (R316)
      let o' := o.landedAt true g off gone
      let (ok, t) := (s.setOp id o').landAt cl (base + off) o.ident.grid g off b
      some (if ok then o' else o.cond 1 gone, t.moves o.ident.grid)
  | .away =>
    if s.takesArrival o.ident.grid g id then some (o, s.queueArrival ⟨o.ident.grid, g, id, false, .land off b⟩) else none
  | .gone => some (o.drop g off 0 gone, s.countGone o.ident.grid g)

/-- Write lines in produce mode from line `k` of the piece on, until one is FULL (R77, R78): how many lines are written
now. -/
def State.produceLines (s : State) (id gang cl a : Nat) (bs : List Byte) : Nat → Nat → Nat × State
  | 0, k => (k, s)
  | fuel + 1, k =>
    if bs.length ≤ k * 128 then (k, s)
    else
      let p := a + k * 128
      let x : LineWait := ⟨1, id, gang, [p / 128], false⟩
      if s.lineFull cl (p / 128) || !(s.cluster cl).goesFirst x then (k, s.joinLines cl x)
      else
        let s := ((s.leaveLines cl x).cspWrite cl p ((bs.drop (k * 128)).take 128)).setLine cl (p / 128) true
        State.produceLines s id gang cl a bs fuel (k + 1)

/-- Accumulate a piece's elements at resident scratch (R106). -/
def State.accumAt (s : State) (o : EngOp) (cl a : Nat) (xs : List Word32) : EngOp × State :=
  let exp : BitVec 16 := (wordAt o.desc 4).extractLsb' 0 16
  let (bs, sat, nan) := accumulateAll exp (ctlAcc o.desc == 1) (s.cspRead cl a (xs.length * 16)) xs
  ({ o with flags := o.flags ||| (if sat then 32 else 0) ||| (if nan then 16 else 0) }, s.cspWrite cl a bs)

/-- How writing to one destination gang ends. -/
inductive Served where
  /-- done for this gang -/
  | done (o : EngOp)
  /-- it waits there with the lines that it has written -/
  | waits (o : EngOp)
  deriving DecidableEq, Repr

/-- The barrier at which the bytes for gang `g` land lies in `g`: its offset there. -/
def EngOp.ownBar (o : EngOp) (g : Nat) : Option Nat :=
  match o.barOf g with | some (b, p) => if b = g then some p else none | none => none

/-- Marks of `lines` beyond a piece: the bytes stand at a diversion point; the bytes are written, and their landing waits. -/
def lineQueued : Nat := 999
def lineWritten : Nat := 1000

/-- Write a piece of `n` destination bytes at offset `off` of gang `g`, and land it there if its barrier is that gang's
(R110, R122, R130). Bytes that a diversion point takes land with it. The lines of a plain piece
are written in one step (log 89). Where they land at another gang's barrier, the
operation waits until they are written. -/
def State.serveGang (s : State) (id : Nat) (o : EngOp) (g off n : Nat) (buf : List Byte) : Served × State :=
  let gone := s.absent o.uid
  let xs := word32s (n / 16) buf
  let own := o.ownBar g
  if o.lines = lineQueued then (if s.opArrivalsAt id g then .waits o else .done { o with lines := lineWritten }, s)
  else
  match s.scratchHome o.ident.grid g with
  | .here cl base =>
    if s.opArrivalsAt id g then (.waits o, s)
    else
      let (k, o, s) : Nat × EngOp × State :=
        (if ctlProd o.desc then
          let (k, s) := s.produceLines id g cl (base + off) buf 9 o.lines
          let (o, s) := s.wrote o ((k - o.lines) * 128)
          (k, { o with lines := k }, s)
        else if o.kind = .accum then
          let (o, s) := s.accumAt o cl (base + off) xs
          let (o, s) := s.wrote o n
          (0, o, s)
        else
          let (o, s) := (s.cspWrite cl (base + off) buf).wrote o n
          (0, o, s))
      if ctlProd o.desc && decide (k * 128 < n) then (.waits o, s)
      else
        match own with
        | none => (.done o, s)
        | some p =>
          match s.landBytes id o g p n with
          | some (o, s) => (.done o, s)
          | none => (.waits o, s)
  | .away =>
    if !s.takesArrival o.ident.grid g id then (.waits o, s)
    else
      let op : ArrivalOp :=
        if o.kind = .accum then .accum off ((wordAt o.desc 4).extractLsb' 0 16) (ctlAcc o.desc == 1) xs (own.map (·, n))
        else .write (off + o.lines * 128) (buf.drop (o.lines * 128)) (ctlProd o.desc) (own.map (·, n))
      let s := s.queueArrival ⟨o.ident.grid, g, id, false, op⟩
      if (o.barOf g).isSome && own.isNone then (.waits { o with lines := lineQueued }, s) else (.done o, s)
  | .gone => (.done (o.drop g off n gone), s.countGone o.ident.grid g)

/-- Land a piece at a barrier of another gang than the one it was written to, or of memory. -/
def State.landElsewhere (s : State) (id : Nat) (o : EngOp) (g n : Nat) (own : Bool) : Option (EngOp × State) :=
  match o.barOf g with
  | none => some (o, s)
  | some (b, p) => if own && b == g then some (o, s) else s.landBytes id o b p n

/-- Serve the destination gang of a piece that is due: one gang in a step, in ascending order (R104). -/
def State.serveNext (s : State) (id pos n : Nat) (buf : List Byte) (o : EngOp) : EngOp × State :=
  match o.gangs[o.served]? with
  | none => (o, s)
  | some g =>
    let (r, s) := if o.lines = lineWritten then (Served.done o, s) else s.serveGang id o g (o.destOff pos) n buf
    match r with
    | .waits o => (o, s)
    | .done o =>
      match s.landElsewhere id o g n true with
      | none => ({ o with lines := lineWritten }, s)
      | some (o, s) => ({ o with served := o.served + 1, lines := 0 }, s)

/-- The next piece. -/
def EngOp.nextPiece (o : EngOp) : EngOp :=
  { o with pos := o.pieceEnd, buf := none, idx := none, flight := none, served := 0, lines := 0 }

/-- Skip a piece whose pages fault (R111), with one group of records; none while they can't be taken (R32). -/
def State.skipPiece (s : State) (id : Nat) (o : EngOp) (src dst : List PageFault) : Option State :=
  let l := s.pieceGroup o o.agent src dst
  if !s.canRecord (dieOf o.core) o.ident.job l.length then none
  else
    let (q, s) := s.recordGroup l
    let o := o.faulted q (if src.isEmpty then 2 else o.agent) l.length (s.absent o.uid)
    some ((s.forget (.engine id)).setOp id o.nextPiece)

/-- Take what a piece has written to a translated window, and land it (R110). -/
def State.endWrite (s : State) (id : Nat) (o : EngOp) (f : Flight) (ext : Remote) (buf : List Byte) : Option State :=
  match s.takeWrites o f ext buf with
  | none => none
  | some (m, o, s) =>
    let (o, s) := s.wrote o m
    let s := s.moves o.ident.grid
    let b := (f.runs.map (fun p => p.1.len)).foldl (· + ·) 0
    match s.landElsewhere id o 256 b false with
    | some (o, s) => some (s.setOp id o.nextPiece)
    | none => some (s.setOp id { o with served := 1, lines := b })

/-- Write the piece that has been read (R110): at scratch gang by gang; at a translated window every page is translated
before any byte is written (R111, R18), then its requests go out, and it lands once their replies are in. None: it waits. -/
def State.writePiece (s : State) (id : Nat) (o : EngOp) (ext : Remote) (buf : List Byte) : Option State :=
  let stop := o.pieceEnd
  let n := stop - o.pos
  if o.toScratch then
    let (o, s) := s.serveNext id o.pos n buf o
    some (s.setOp id (if o.gangs.length ≤ o.served then o.nextPiece else o))
  else if o.served = 1 then (s.landElsewhere id o 256 o.lines false).map (fun p => p.2.setOp id p.1.nextPiece)
  else
    match o.flight with
    | some f => s.endWrite id o f ext buf
    | none =>
      match s.places (.engine id) o 1 false (o.destRuns o.pos stop) with
      | (none, _, t) => some t
      | (some _, f :: fs, s) => s.skipPiece id o [] (f :: fs)
      | (some _, [], s) =>
        match s.places (.engine id) o 1 true (o.destRuns o.pos stop) with
        | (some l, [], s) =>
          let (f, s) := (s.forget (.engine id)).launch o (some buf) l
          if f.reqs.isEmpty then s.endWrite id o f ext buf else some (s.setOp id { o with flight := some f })
        | (_, _, t) => some t

/-- Take what a part of a piece has read, and go on to its writing. -/
def State.endRead (s : State) (id : Nat) (o : EngOp) (f : Flight) (ext : Remote) (n : Nat) : Option State :=
  match s.takeReads o f ext n with
  | none => none
  | some (bs, o, s) =>
    let inIndex := o.inIndex
    let o := o.gotPart bs
    let s := s.setOp id o
    if inIndex then some s else some ((s.writePiece id o ext bs).getD s)

/-- Read a piece, a part at a time (R110, R111): a part whose pages fault, or a piece whose destination's do, is skipped.
None: it waits. -/
def State.startPiece (s : State) (id : Nat) (o : EngOp) (ext : Remote) : Option State :=
  let stop := o.pieceEnd
  let (n, runs) := o.partRuns o.pos stop
  match o.flight with
  | some f => s.endRead id o f ext n
  | none =>
    match s.places (.engine id) o 0 false runs with
    | (none, _, t) => some t
    | (some l, src, s) =>
      match (if o.inIndex then (some [], [], s) else s.places (.engine id) o 1 false (o.destRuns o.pos stop)) with
      | (none, _, t) => some t
      | (some _, dst, s) =>
        if !src.isEmpty || !dst.isEmpty then s.skipPiece id o src dst
        else
          let (f, s) := (s.forget (.engine id)).launch o none l
          if f.reqs.isEmpty then s.endRead id o f ext n else some (s.setOp id { o with flight := some f })

/-! ### Completion (R110 to R112) -/

/-- The status word (Table 7). -/
def EngOp.status (o : EngOp) : Word :=
  let conds := if o.aborted then o.conds ++ [6] else o.conds
  let code := conds.foldl (fun a c => max a c.toNat) 0
  BitVec.ofNat 64 (code * 2 ^ 56 + o.flags.toNat / 2 * 2 ^ 51 + (if 1 < conds.length then 2 ^ 50 else 0) + o.bytes % 2 ^ 48)

/-- The records of dropped bytes (R130). -/
def State.goneRecords (s : State) (o : EngOp) : State :=
  o.dropped.foldl (fun s e =>
    (s.record (s.engRecordOf o 2 1)
      [⟨0x14 * 2 ^ 52 + e.1 * 2 ^ 24 + e.2.1, 0x51, 7, BitVec.ofNat 64 e.2.2⟩]).2) s

/-- The status word goes to the status address (R110): a page that faults is recorded (R31); none: it waits. -/
def State.putStatus (s : State) (id : Nat) (o : EngOp) (ext : Remote) : Option State :=
  let va := (wordAt o.desc 7).toNat
  let bs := bytesOfWord o.status
  let o' := { o with served := 1, flight := none }
  let g := scratchGang va
  if !ctlStw o.desc then some (s.setOp id o')
  else if windowOf va = .scratch then
    match s.scratchHome o.ident.grid g with
    | .here cl base => if s.opArrivalsAt id g then none else some ((s.cspWrite cl (base + scratchOff va) bs).setOp id o')
    | .gone => some ((s.countGone o.ident.grid g).setOp id (o'.drop g (scratchOff va) 8 (s.absent o.uid)))
    | .away =>
      if s.takesArrival o.ident.grid g id then
        some ((s.queueArrival ⟨o.ident.grid, g, id, false, .status (scratchOff va) o.status⟩).setOp id o')
      else none
  else
    match o.flight with
    | some f => (s.takeWrites o f ext bs).map (fun p => p.2.2.setOp id { p.2.1 with served := 1 })
    | none =>
      match s.places (.engine id) o 1 true [⟨va, 8, 0⟩] with
      | (none, _, t) => some t
      | (some l, [], s) =>
        let (f, s) := (s.forget (.engine id)).launch o (some bs) l
        some (s.setOp id { o with flight := some f })
      | (some _, fs, s) =>
        if !s.canRecord (dieOf o.core) o.ident.job 1 then none
        else some ((s.record (s.engRecordOf o 2 1) fs).2.setOp id o')

/-- The status word reaches d, in the register file or in the register image (R110, R118). DESIGN CHOICE (log 79): where
COPYFAULT's CODE is MEMLOSS and no fault record was written, h2<15:0> and the absent fault's AGENT and GROUPN are 0. -/
def State.putResult (s : State) (id : Nat) (o : EngOp) : State :=
  let v := o.status
  let bad := decide (bits v 63 56 = 4 ∨ bits v 63 56 = 5)
  let (seq, agent, n) := o.fault.getD (0, 0, 0)
  match s.findWave o.uid, s.away.get? o.uid with
  | some (core, slot, w), _ =>
    let w := w.landReg o.frag o.d v
    let d : Deferred := ⟨0x44, v, seq.setWidth 64, .none, false, 0, 0, 0, false⟩
    let w := if bad then { w with work := { w.work with deferred := w.work.deferred ++ [d] } } else w
    let s := (s.setWave core slot w).outFalls (1, id)
    if o.wide then s.emptyL1 core else s
  | none, some a =>
    let s := if o.d = 0 then s else (s.imgScalar a o.d o.frag v).diverted a (1, id)
    if bad then s.absentFault a ⟨absentWord seq 0x44 agent n, v⟩ else s
  | none, none => s

/-- The operation ends (R108, R110, R113). -/
def State.endOp (s : State) (id : Nat) (o : EngOp) : State :=
  let s := s.goneRecords o
  let s := if o.aborted then s else s.putResult id o
  let s := if o.status.extractLsb' 56 8 = 0 then s else s.bump (ceReg (clusterOf o.core) 0x38)
  let k := s.core o.core
  let s := s.setCore o.core { k with locks := k.locks.filter (fun l => l.op != id) }
  let s := { s with
    engines := s.engines.del id
    clusters := s.clusters.mapAll (fun _ c => { c with outq := c.outq.mapAll (fun _ q => q.filter (· != id)) }) }
  s.sweepAllocs

/-- The ranges of its issuer's context image that the completion of an operation reaches (R118, R124). -/
def EngOp.imageRanges (o : EngOp) : List (Nat × Nat) :=
  (ctxScalar o.d o.frag).toList.map (fun x => (x, 8)) ++
    (if bits o.status 63 56 = 4 ∨ bits o.status 63 56 = 5 then [ctxFaultList] else [])

/-- The end of an operation, once every piece is done or it is aborted: none while it waits for its arrivals, for room for
its records (R32), or for the entry of an issuer that is being resumed (R126). -/
def State.finishOp (s : State) (id : Nat) (o : EngOp) (ext : Remote) : Option State :=
  if s.opArrivals id then none
  else if o.buf.isNone && o.served = 1 && o.total ≤ o.pos then
    if !s.canRecord (dieOf o.core) o.ident.job o.dropped.length || (!o.aborted && (s.rdivClosed o.uid || !s.awayClear o.uid o.imageRanges)) then none
    else some (s.endOp id o)
  else s.putStatus id { o with buf := none, idx := none, pos := o.total, served := 0 } ext

/-- Whether all bytes of an operation are done: for a neighbour send, all its lines FULL in their window (R116). -/
def EngOp.done (o : EngOp) : Bool := decide (o.total ≤ (if o.kind = .nlsend then o.lines * 128 else o.pos))

/-- One turn of an operation at its engine; none if nothing moves. An aborted one first takes what it has on its way
(R112). -/
def State.engTurn (s : State) (id : Nat) (o : EngOp) (ext : Remote) : Option State :=
  if (o.aborted && o.flight.isNone) || o.done then s.finishOp id o ext
  else if o.kind = .nlsend then none
  else if o.buf.isNone && o.flight.isNone && s.engHeld o (o.partRuns o.pos o.pieceEnd).2 then none
  else
    match (match o.buf with
      | none => s.startPiece id o ext
      | some buf => s.writePiece id o ext buf) with
    | none => none
    | some t =>
      if t.engines.get? id = some o ∧ t.mem = s.mem ∧ t.clusters = s.clusters ∧ t.cores = s.cores ∧ t.xlate = s.xlate then none
      else some t

/-- The operation whose turn it is on a cluster's engine: the first after the last one served, in order of issue, that
can move (R109). -/
def State.engNext (s : State) (cl : Nat) : Option Nat :=
  let ids := (s.engines.filter (fun e => clusterOf e.2.core == cl)).map (fun e => e.1)
  let rr := (s.cluster cl).copyRR
  (ids.filter (fun n => decide (rr < n)) ++ ids.filter (fun n => decide (n ≤ rr))).find? (fun n =>
    match s.engines.get? n with
    | some o => (s.engTurn n o (.data [])).isSome
    | none => false)

/-- ENGINE_PIECE: the operation whose turn it is reads a part of its piece, writes it to one destination, or ends (R109 to
R112). Its turn lasts until the piece has been written to every destination. -/
def execEnginePiece (id : Nat) (ext : Remote) (ecc : Ecc) (s : State) : Result :=
  match s.engines.get? id with
  | none => .next s
  | some o =>
    let cl := clusterOf o.core
    if s.stopped ∨ s.engNext cl ≠ some id then .next s
    else
      match (s.addFlaws ecc).engTurn id o ext with
      | none => .next s
      | some t =>
        if (t.engines.get? id).any (fun x => decide (0 < x.served) && decide (x.served < x.gangs.length)) then .next t
        else .next (t.setCluster cl { t.cluster cl with copyRR := id })

end Sys2Proof.Machine
end

