-- ==== Sys2Proof/Machine/Neighbour.lean ====
section
/-!
DEFINITION. Neighbour ports (R87 to R90): NLSEND and NLRECV (R319, R320), the line that an outbound port sends and the
line that an inbound port delivers.
-/
namespace Sys2Proof.Machine

/-! ### The mesh (R2) -/

/-- The mesh column and row of a cluster. -/
def meshCol (cl : Nat) : Nat := dieOfCluster cl % 2 * 4 + cl % 4
def meshRow (cl : Nat) : Nat := dieOfCluster cl / 2 * 4 + cl % 16 / 4
/-- The cluster at a mesh column and row. -/
def clusterAt (col row : Nat) : Nat := (row / 4 * 2 + col / 4) * 16 + row % 4 * 4 + col % 4

/-- The neighbour on a side (0 N, 1 E, 2 S, 3 W), if the mesh has one. -/
def neighbourOf (cl side : Nat) : Option Nat :=
  let x := meshCol cl
  let y := meshRow cl
  match side with
  | 0 => if y = 0 then none else some (clusterAt x (y - 1))
  | 1 => if x = 7 then none else some (clusterAt (x + 1) y)
  | 2 => if y = 7 then none else some (clusterAt x (y + 1))
  | _ => if x = 0 then none else some (clusterAt (x - 1) y)

/-- The side that faces a side. -/
def opposite (side : Nat) : Nat := (side + 2) % 4

/-- A trap whose TVAL no rule states: the value is free. -/
def Ctx.trapFree (c : Ctx) (s : State) (cause : BitVec 8) : Result :=
  let (v, s') := s.draw
  if c.w.spec.isEmpty then .next (s'.trapAt c { cause := cause, tval := v }) else .next s

/-! ### The instructions -/

/-- The queue of an outbound port. -/
def State.outQueue (s : State) (cl side : Nat) : List Nat := ((s.cluster cl).outq.get? side).getD []

/-- The checks of R319 that name the offset. -/
def State.nlsendTrap (s : State) (w : Wave) (off n : Nat) (l : Lock) : Option (BitVec 8) :=
  let len := ((s.gangLen w.ident.grid w.ident.gang).getD 0)
  if 2 ^ 24 ≤ off ∨ len < off + 128 * n then some 0x30
  else if off % 128 ≠ 0 then some 0x31
  else if !w.trap.sup && (s.gangLocks w.ident.grid w.ident.gang).any (fun k => k.write && k.meets l) then some 0x43
  else none

/-- NLSEND (R88, R319). It waits for the lane acquires of its fragment (R380). -/
def execNlsend (d2 : BitVec 2) (d a b : BitVec 8) (s : State) : Result :=
  scalarOp (.nlsend d2 d a b) s (fun c =>
    let off := c.get a
    let n := (c.get b).toNat
    let side := d2.toNat
    let i := c.w.ident
    if c.w.acquiring c.frag then .next s
    else if (neighbourOf c.cluster side).isNone then c.trapFree s 0x34
    else if n = 0 ∨ 256 < n then c.trapFree s 0x40
    else
      let lock (op : Nat) : Lock := ⟨op, i.grid, i.gang, [i.gang], off.toNat, 128 * n, false, false⟩
      match s.nlsendTrap c.w off.toNat n (lock 0) with
      | some k => trapOr s c { cause := k, tval := off }
      | none =>
        if 32 ≤ (s.outQueue c.cluster side).length then .next s
        else
          let id := s.net.nextId
          match c.startOp s (c.newOp .nlsend d [0, off, 0, BitVec.ofNat 64 (128 * n)] [] true) (fun m => [lock m]) with
          | .next t =>
            if t.engines.has id then
              let k := t.cluster c.cluster
              .next (t.setCluster c.cluster { k with outq := k.outq.set side (s.outQueue c.cluster side ++ [id]) })
            else .next t
          | r => r)

/-- Whether an arm belongs to a gang. -/
def Arm.mine (m : Arm) (i : WaveId) : Bool := m.grid == i.grid && m.gang == i.gang

/-- The checks of R89 after NLEDGE, with the addition of R320. -/
def State.nlrecvTrap (s : State) (i : WaveId) (arm : Option Arm) (base len : Nat) : Option (BitVec 8) :=
  if arm.any (fun m => !m.mine i) then some 0x35
  else if len = 0 then none
  else if 65536 < len then some 0x30
  else if 2 ^ 24 ≤ base ∨ (s.gangLen i.grid i.gang).getD 0 < base + 128 * len then some 0x30
  else if base % 128 ≠ 0 then some 0x31
  else none

/-- NLRECV (R89, R320): arms the port, or disarms it with a length of 0. It waits for the lane acquires of its fragment
(R380). -/
def execNlrecv (d2 : BitVec 2) (d a b : BitVec 8) (s : State) : Result :=
  scalarOp (.nlrecv d2 d a b) s (fun c =>
    let base := (c.get a).toNat
    let len := (c.get b).toNat
    let side := d2.toNat
    let i := c.w.ident
    if c.w.acquiring c.frag then .next s
    else if (neighbourOf c.cluster side).isNone then c.trapFree s 0x34
    else
      let k := s.cluster c.cluster
      let arm := k.arms.get? side
      match s.nlrecvTrap i arm base len with
      | some cause => c.trapFree s cause
      | none =>
        let old : Nat := (arm.map (·.cur)).getD 0
        let arms := if len = 0 then k.arms.del side else k.arms.set side ⟨i.grid, i.gang, base, len, 0⟩
        .next (c.finish (s.setCluster c.cluster { k with arms := arms }) d (BitVec.ofNat 64 old) 4))

/-! ### The ports -/

/-- NEIGHBOUR_LINE_SEND: the outbound port of a side reads the next line of the send at its head and sends it to the
neighbour's inbound port, which takes one line at a time (R88, R90). -/
def execNeighbourLineSend (cluster side : Nat) (s : State) : Result :=
  match s.outQueue cluster side, neighbourOf cluster side with
  | id :: rest, some to_ =>
    match s.engines.get? id with
    | none => .next s
    | some o =>
      let t := s.cluster to_
      let port := opposite side
      let waiting := (t.inq.get? port).getD []
      if s.stopped || o.aborted || s.engHeld o [] || !waiting.isEmpty ||
          !s.gangClear o.ident.grid o.ident.gang ((wordAt o.desc 1).toNat + o.pos) 128 then .next s
      else
        let (bs, s) := s.gangRead o.ident.grid o.ident.gang ((wordAt o.desc 1).toNat + o.pos) 128
        let o' := { o with pos := o.pos + 128 }
        let s := s.setOp id o'
        let k := s.cluster cluster
        let s := if o.total ≤ o'.pos then s.setCluster cluster { k with outq := k.outq.set side rest } else s
        let t := s.cluster to_
        .next (s.setCluster to_ { t with inq := t.inq.set port [⟨id, o.ident.grid, BitVec.ofNat 1024 (natOfBytes bs)⟩] })
  | _, _ => .next s

/-- A line of an operation is FULL in its window: BYTES counts 128 (R116). -/
def State.lineArrived (s : State) (id : Nat) : State :=
  match s.engines.get? id with
  | none => s
  | some o =>
    let (o, s) := s.wrote { o with lines := o.lines + 1 } 128
    s.setOp id o

/-- The head line leaves an inbound port. -/
def State.popLine (s : State) (cluster side : Nat) : State :=
  let k := s.cluster cluster
  s.setCluster cluster { k with inq := k.inq.set side (((k.inq.get? side).getD []).drop 1) }

/-- NEIGHBOUR_ARRIVAL: the line at the head of an inbound port is delivered under R90, once the port holds an arm of its
grid and the window line is EMPTY; for an absent gang it goes to the diversion point (R122, R127). A line of a grid that
has ended is dropped. -/
def execNeighbourArrival (cluster side : Nat) (s : State) : Result :=
  let k := s.cluster cluster
  match (k.inq.get? side).getD [] with
  | [] => .next s
  | l :: _ =>
    if !s.sched.grids.has l.grid then .next (s.popLine cluster side)
    else
      match k.arms.get? side with
      | none => .next s
      | some m =>
        if m.grid ≠ l.grid then .next s
        else
          let queued := s.arrivals.any (fun a => a.grid == m.grid && a.gang == m.gang &&
            (match a.op with | .line k sd _ => k == cluster && sd == side | _ => false))
          match s.scratchHome m.grid m.gang with
          | .here cl base =>
            if queued then .next s
            else
            let p := base + m.base + m.cur % m.len * 128
            let x : LineWait := ⟨2, side, 0, [p / 128], false⟩
            if s.lineFull cl (p / 128) || !(s.cluster cl).goesFirst x then .next (s.joinLines cl x)
            else
              let s := ((s.leaveLines cl x).cspWrite cl p (bytesOfNat 128 l.data.toNat)).setLine cl (p / 128) true
              let k := s.cluster cluster
              let s := s.setCluster cluster { k with arms := k.arms.set side { m with cur := (m.cur + 1) % 2 ^ 32 } }
              .next ((s.popLine cluster side).lineArrived l.op)
          | .away =>
            if queued || !s.roomAt m.grid m.gang then .next s
            else
              let a : Arrival := ⟨m.grid, m.gang, l.op, false, .line cluster side l.data⟩
              .next (State.popLine { s with arrivals := s.arrivals ++ [a] } cluster side)
          | .gone => .next s

end Sys2Proof.Machine
end

