-- ==== Sys2Proof/Machine/Matrix.lean ====
section
/-!
DEFINITION. The matrix instructions SETFMT, MMA, MFENCE and MWAIT (R335, R336, R339, R342, R343).
-/
namespace Sys2Proof.Machine

/-! ### SETFMT (R335) -/

/-- FMT of the executing fragment takes a value, or ILLEGAL (R223, R335). -/
def Ctx.setFmt (c : Ctx) (s : State) (i : Instr) (v : Word) : Result :=
  let f : BitVec 16 := v.setWidth 16
  if v.toNat < 65536 ∧ goodFmt f then
    .next (c.complete s { c.w with frags := c.w.frags.update c.frag (fun x => { x with fmt := f }) } 4)
  else trapOr s c { cause := 0x01, tval := instrTval i }

/-- SETFMT from a register. -/
def execSetfmtReg (a : BitVec 8) (s : State) : Result :=
  scalarOp (.setfmtReg a) s (fun c => c.setFmt s (.setfmtReg a) (c.get a))
/-- SETFMT from an immediate. -/
def execSetfmtImm (i : BitVec 16) (s : State) : Result :=
  scalarOp (.setfmtImm i) s (fun c => c.setFmt s (.setfmtImm i) (i.setWidth 64))

/-! ### The operand specification (R336) -/

/-- Fields of MCTL (Table 3) of the eight words `x`. -/
def mCbase (x : List Word) : Nat := bits (wordAt x 0) 39 32
def mSh (x : List Word) : Nat := bits (wordAt x 0) 31 30
def mKc (x : List Word) : Nat := bits (wordAt x 0) 29 28
def mZc (x : List Word) : Bool := (wordAt x 0).getLsbD 27
/-- The form of operand A (`b` false) or B: true is a handle. -/
def mKind (x : List Word) (b : Bool) : Bool := (wordAt x 0).getLsbD (if b then 25 else 26)
/-- The form of its scale. -/
def mScaleKind (x : List Word) (b : Bool) : Bool := (wordAt x 0).getLsbD (if b then 23 else 24)

/-- M, N and K. -/
def mM (x : List Word) : Nat := if mSh x = 2 then 128 else 64
def mN (x : List Word) : Nat := if mSh x = 0 then 64 else 128
def mK (x : List Word) : Nat := 64 * 2 ^ mKc x
/-- R, the registers of the accumulator (Table 4). -/
def mRegs (x : List Word) : Nat := if mSh x = 0 then 32 else if mSh x = 1 then 64 else 128

/-- AFMT, BFMT, SMODE and CFMT of FMT (R223). -/
def fmtA (f : BitVec 16) : Nat := (f.extractLsb' 13 3).toNat
def fmtB (f : BitVec 16) : Nat := (f.extractLsb' 10 3).toNat
def fmtScaled (f : BitVec 16) : Bool := f.extractLsb' 8 2 == 1
def fmtInt (f : BitVec 16) : Bool := f.getLsbD 7
/-- ESZ of an element format (R337). -/
def fmtEsz (f : BitVec 16) : Nat := match fmtA f with | 0 => 4 | 1 | 2 => 2 | _ => 1

/-- The base or handle of A or B, its stride, its rows and the bytes of a row. -/
def mBase (x : List Word) (b : Bool) : Word := wordAt x (if b then 2 else 1)
def mStride (x : List Word) (b : Bool) : Nat := bits (wordAt x (if b then 4 else 3)) 31 0
def mRows (x : List Word) (b : Bool) : Nat := if b then mK x else mM x
def mRowBytes (x : List Word) (f : BitVec 16) (b : Bool) : Nat := (if b then mN x else mK x) * fmtEsz f
/-- The first row and the first column of a handle-form operand: I0 and K0 of A, K0 and J0 of B. -/
def mRow0 (x : List Word) (b : Bool) : Int := ((wordAt x (if b then 4 else 3)).extractLsb' 32 32).toInt
def mCol0 (x : List Word) (b : Bool) : Int := ((wordAt x (if b then 4 else 3)).extractLsb' 0 32).toInt
/-- The first K coordinate. -/
def mK0 (x : List Word) (b : Bool) : Int := if b then mRow0 x b else mCol0 x b
/-- The base or handle of a scale, and its half of sb+7. -/
def mScale (x : List Word) (b : Bool) : Word := wordAt x (if b then 6 else 5)
def mPitch (x : List Word) (b : Bool) : Nat := if b then bits (wordAt x 7) 63 32 else bits (wordAt x 7) 31 0

/-- MMAFORMAT, step 1 of R339. -/
def badMma (x : List Word) (f : BitVec 16) (vcount : Nat) : Bool :=
  let scaled := fmtScaled f
  fmtA f != fmtB f || fmtInt f != (fmtA f == 5) || (scaled && !(fmtA f == 3 || fmtA f == 4)) ||
    bits (wordAt x 0) 63 40 != 0 || bits (wordAt x 0) 22 0 != 0 || mSh x == 3 || mKc x == 3 ||
    mCbase x % 8 != 0 || decide (vcount < mCbase x + mRegs x) ||
    [false, true].any (fun b =>
      (if mKind x b then bits (mBase x b) 63 16 != 0
       else bits (wordAt x (if b then 4 else 3)) 63 32 != 0 || mStride x b == 0 || mStride x b % 128 != 0 ||
         decide (2 ^ 24 < mStride x b)) ||
      (scaled && mScaleKind x b && (mPitch x b != 0 || bits (mScale x b) 63 16 != 0)))

/-- Step 2 of R339: the records of the handles in order, empty for an address form. -/
def State.mmaRecords (s : State) (c : Ctx) (x : List Word) : List (Bool × Word) → Got (List (List Word)) × State
  | [] => (.ok [], s)
  | (h, v) :: rest =>
    match (if h then s.handle c v else (.ok [], s)) with
    | (.wait, s) => (.wait, s)
    | (.trap t, s) => (.trap t, s)
    | (.ok r, s) =>
      match State.mmaRecords s c x rest with
      | (.ok rs, s) => (.ok (r :: rs), s)
      | y => y

/-- The handles in the order of R339. -/
def mmaHandles (x : List Word) (f : BitVec 16) : List (Bool × Word) :=
  [(mKind x false, mBase x false), (mKind x true, mBase x true),
   (fmtScaled f && mScaleKind x false, mScale x false), (fmtScaled f && mScaleKind x true, mScale x true)]

/-- The record of A, B, A's scale or B's scale. -/
def recAt (rs : List (List Word)) (i : Nat) : List Word := (rs[i]?).getD []

/-- A record of A or B whose rank or element size does not fit. -/
def badOperandRecord (x : List Word) (f : BitVec 16) (rs : List (List Word)) (b : Bool) : Bool :=
  let r := recAt rs (if b then 1 else 0)
  mKind x b && (rcdRank r != 2 || rcdEsz r != fmtEsz f)

/-- Bytes of an address-form operand from its base on. -/
def mSpan (x : List Word) (f : BitVec 16) (b : Bool) : Nat := (mRows x b - 1) * mStride x b + mRowBytes x f b

/-- The read lock of an operand (R339). -/
def mmaLock (x : List Word) (f : BitVec 16) (rs : List (List Word)) (w : Wave) (b : Bool) : Lock :=
  let r := recAt rs (if b then 1 else 0)
  let i := w.ident
  if mKind x b then
    let cols := if b then mN x else mK x
    let at_ (c row : Int) : Nat := rcdBase r + clampTo c (rcdDim r 0) * rcdEsz r + clampTo row (rcdDim r 1) * rcdStride r 1
    let lo := at_ (mCol0 x b) (mRow0 x b)
    let hi := at_ (mCol0 x b + Int.ofNat cols - 1) (mRow0 x b + Int.ofNat (mRows x b) - 1) + rcdEsz r
    ⟨0, i.grid, i.gang, [], lo, hi - lo, false, false⟩
  else ⟨0, i.grid, i.gang, [i.gang], scratchOff (mBase x b).toNat, mSpan x f b, false, false⟩

/-- Step 3 of R339: the first address outside its windows. -/
def mmaWindow (x : List Word) (f : BitVec 16) : Option Word :=
  let op (b : Bool) : Bool := !mKind x b && windowOf (mBase x b).toNat != .scratch
  let sc (b : Bool) : Bool := fmtScaled f && !mScaleKind x b &&
    (match windowOf (mScale x b).toNat with | .global | .scratch => false | _ => true)
  if op false then some (mBase x false)
  else if op true then some (mBase x true)
  else if sc false then some (mScale x false)
  else if sc true then some (mScale x true)
  else none

/-- Steps 4 to 6 of R339. -/
def State.mmaTrap (s : State) (w : Wave) (x : List Word) (f : BitVec 16) (rs : List (List Word)) : Option (BitVec 8) :=
  let outside (b : Bool) : Bool := !mKind x b && (s.ownScratch w (mBase x b).toNat (mSpan x f b)).isNone
  let skew (b : Bool) : Bool := !mKind x b && (mBase x b).toNat % 128 != 0
  let locked (b : Bool) : Bool := !w.trap.sup && (s.gangLocks w.ident.grid w.ident.gang).any (fun k =>
    k.write && k.meets (mmaLock x f rs w b))
  if outside false || outside true then some 0x30
  else if skew false || skew true then some 0x31
  else if locked false || locked true then some 0x43
  else none

/-- MMA's effect once its checks have passed: it stalls for an entry of the tile queue; while a fault is held the
operation is discarded (R339, R344). -/
def Ctx.enqueueTile (c : Ctx) (s : State) (x : List Word) (rs : List (List Word)) : State :=
  let m := c.w.mat
  if 16 ≤ m.ops.length then s
  else if m.fv then
    c.complete s { c.w with mat := { m with ndisc := if m.ndisc = 63 then 63 else m.ndisc + 1 } } 4
  else
    let f := c.f.fmt
    let op : TileOp :=
      { spec := x, recs := rs, fmt := f, cbase := mCbase x, regs := mRegs x, batch := none,
        before := c.w.laneAll.map (fun i => (i.seq, i.heirs.contains c.frag)),
        latched := false, locks := [mmaLock x f rs c.w false, mmaLock x f rs c.w true],
        waitOuts := (c.w.work.outs.filter (fun o => o.heirs.contains c.frag)).map (·.id), flight := none }
    c.complete s { c.w with mat := { m with ops := m.ops ++ [op] } } 4

/-- MMA (R339). -/
def execMma (a : BitVec 8) (s : State) : Result :=
  scalarOp (.mma a) s (fun c =>
    let x := c.get8 a
    let f := c.f.fmt
    let bad : Trap := { cause := 0x80, tval := wordAt x 0 }
    if badMma x f c.w.vcount then trapOr s c bad
    else
      match s.mmaRecords c x (mmaHandles x f) with
      | (.wait, s) => .next s
      | (.trap t, s) => trapOr s c t
      | (.ok rs, s) =>
        if badOperandRecord x f rs false || badOperandRecord x f rs true then trapOr s c bad
        else
          match mmaWindow x f with
          | some v => trapOr s c { cause := 0x20, tval := v }
          | none =>
            match s.mmaTrap c.w x f rs with
            | some k => c.trapFree s k
            | none => .next (c.enqueueTile s x rs))

/-! ### Batches (R342, R343) -/

/-- MFENCE: every open operation joins batch NEXT, whose number it returns. -/
def execMfence (d : BitVec 8) (s : State) : Result :=
  scalarOp (.mfence d) s (fun c =>
    let m := c.w.mat
    let ops := m.ops.map (fun o => match o.batch with | none => { o with batch := some m.next } | some _ => o)
    let w := { c.w with mat := { m with ops := ops, next := m.next + 1 } }
    .next (c.complete s (w.putReg c.frag d (m.next.setWidth 64)) 4))

/-- Whether batch `a` is batch `b` or an earlier one. -/
def batchUpTo (a b : BitVec 16) : Bool := decide ((b - a).toNat < 2 ^ 15)

/-- MWAIT: waits for a batch and every earlier one, and takes a fault held by then (R343, R345). -/
def execMwait (a : BitVec 8) (s : State) : Result :=
  scalarOp (.mwait a) s (fun c =>
    let m := c.w.mat
    let b : BitVec 16 := (c.get a).setWidth 16
    if 2 ^ 15 ≤ (m.next - 1 - b).toNat then trapOr s c { cause := 0x01, tval := instrTval (.mwait a) }
    else if m.ops.any (fun o => match o.batch with | some k => batchUpTo k b | none => false) then .next s
    else
      match c.w.heldFault with
      | some t => if batchUpTo m.faultb b then trapOr s { c with w := c.w.clearHeld } t else .next (c.skip s 4)
      | none => .next (c.skip s 4))

end Sys2Proof.Machine
end

