-- ==== Sys2Proof/Machine/Tiles.lean ====
section
/-!
DEFINITION. The matrix engine (R233 to R237, R337, R338, R341, R344): the operand fetch, the arithmetic, one
TILE_OPERATION at a time, and the write-back.
-/
namespace Sys2Proof.Machine

/-! ### Elements and sums (R225 to R237) -/

/-- The value of an element of a format (R223 AFMT), from its bytes (R337). -/
def tileVal (fmt : BitVec 16) (v : Nat) : FVal :=
  match fmtA fmt with
  | 0 => fread f32 (fmtFTZ fmt) v
  | 1 => fread f16 (fmtFTZ fmt) v
  | 2 => fread bf16 (fmtFTZ fmt) v
  | 3 => tfdecode 8 v
  | 4 => tfdecode 6 v
  | _ => FVal.ofInt (BitVec.ofNat 8 v).toInt

/-- The value of an E8 scale (R233). -/
def scaleVal (v : Nat) : FVal := if v = 255 then .nan else .fin false 1 (Int.ofNat v - 127)

/-- The exact sum of products (R237). -/
def exactSum : List FVal → FVal
  | [] => .fin false 0 0
  | [x] => x
  | x :: xs => FVal.add 0 x (exactSum xs)

/-- One chunk added to an accumulator element (R237). -/
def addChunk (fmt : BitVec 16) (c : Word32) (ps : List FVal) : Word32 :=
  let sum := exactSum ps
  if fmtInt fmt then
    match sum with
    | .fin neg m e => sats 32 (c.toInt + signed neg m * 2 ^ e.toNat)
    | _ => c
  else
    BitVec.ofNat 32 (fround f32 (fmtRM fmt) (fmtFTZ fmt)
      (FVal.add (fmtRM fmt) (fread f32 (fmtFTZ fmt) c.toNat) sum))

/-- An accumulator element after an operation of `k` values: the chunks in increasing K (R237). -/
def tileElem (fmt : BitVec 16) (k : Nat) (c : Word32) (p : Nat → FVal) : Word32 :=
  (List.range (k / 64)).foldl (fun c q => addChunk fmt c ((List.range 64).map (fun i => p (64 * q + i)))) c

/-- The row and column that lane `l` of register `r` of a range holds (Table 4). -/
def tileCell (sh r l : Nat) : Nat × Nat := if sh = 0 then (2 * r + l / 64, l % 64) else (r, l)

/-- The accumulator registers after an operation (R340, R341). -/
def tileRegs (x : List Word) (fmt : BitVec 16) (start : List (BitVec 4096)) (a b : Nat → Nat → FVal) : List (BitVec 4096) :=
  (List.range (mRegs x)).map (fun r =>
    let old : BitVec 4096 := if mZc x then 0 else (start[r]?).getD 0
    mergeLanes 0 (BitVec.allOnes 128) (fun l =>
      let (i, j) := tileCell (mSh x) r l
      tileElem fmt (mK x) (old.extractLsb' (32 * l) 32) (fun k => FVal.mul (a i k) (b k j))))

/-! ### Addresses (R337, R338) -/

/-- The address of element (row, col) of an operand. -/
def elemAddr (o : TileOp) (b : Bool) (row col : Nat) : Nat :=
  let x := o.spec
  let r := recAt o.recs (if b then 1 else 0)
  if mKind x b then
    rcdBase r + clampTo (mCol0 x b + Int.ofNat col) (rcdDim r 0) * rcdEsz r +
      clampTo (mRow0 x b + Int.ofNat row) (rcdDim r 1) * rcdStride r 1
  else (mBase x b).toNat + row * mStride x b + col * fmtEsz o.fmt

/-- Base and pitch of a scale, by the scale's form. -/
def scaleBase (o : TileOp) (b : Bool) : Nat :=
  if mScaleKind o.spec b then rcdBase (recAt o.recs (if b then 3 else 2)) else (mScale o.spec b).toNat
def scalePitch (o : TileOp) (b : Bool) : Nat :=
  if mScaleKind o.spec b then rcdStride (recAt o.recs (if b then 3 else 2)) 1 else mPitch o.spec b

/-- The byte of a scale tile (R234). -/
def sofs (v q : Nat) : Nat := v % 32 % 8 * 16 + v % 32 / 8 * 4 + q % 4

/-- The address of the scale of vector `n` (a row of A or a column of B) at K index `k`: vector and block follow the
operand's form (R338). -/
def scaleAddr (o : TileOp) (b : Bool) (n k : Nat) : Nat :=
  let x := o.spec
  let r := recAt o.recs (if b then 1 else 0)
  let (v, q) : Nat × Nat :=
    if mKind x b then
      (if b then (clampTo (mCol0 x b + Int.ofNat n) (rcdDim r 0), clampTo (mRow0 x b + Int.ofNat k) (rcdDim r 1) / 64)
       else (clampTo (mRow0 x b + Int.ofNat n) (rcdDim r 1), clampTo (mCol0 x b + Int.ofNat k) (rcdDim r 0) / 64))
    else (n, k / 64)
  scaleBase o b + v / 32 * scalePitch o b + q / 4 * 128 + sofs v q

/-- SCALELAYOUT (R235). -/
def badScale (o : TileOp) (b : Bool) : Bool :=
  let r := recAt o.recs (if b then 3 else 2)
  scaleBase o b % 128 != 0 || scalePitch o b == 0 || scalePitch o b % 128 != 0 ||
    (mKind o.spec b && (mK0 o.spec b).emod 64 != 0) ||
    (mScaleKind o.spec b && (!rcdScale r || rcdEsz r != 1 || rcdDim r 0 % 128 != 0))

/-- The vectors of an operand: rows of A, columns of B. -/
def mVectors (x : List Word) (b : Bool) : Nat := if b then mN x else mM x

/-- The distinct scale addresses of an operand. -/
def scaleAddrs (o : TileOp) (b : Bool) : List Nat :=
  if !fmtScaled o.fmt then []
  else ((List.range (mVectors o.spec b)).map (fun n =>
    ((List.range (mK o.spec)).map (scaleAddr o b n)).eraseDups)).flatten

/-- The byte addresses of an operand's elements, row by row. -/
def operandBytes (o : TileOp) (b : Bool) : List Nat :=
  let e := fmtEsz o.fmt
  ((List.range (mRows o.spec b)).map (fun row =>
    ((List.range (if b then mN o.spec else mK o.spec)).map (fun col =>
      (List.range e).map (fun i => elemAddr o b row col + i))).flatten)).flatten

/-- Every byte that the fetcher reads: A, B, A's scales, B's scales. -/
def fetchBytes (o : TileOp) : List Nat :=
  operandBytes o false ++ operandBytes o true ++ scaleAddrs o false ++ scaleAddrs o true

/-! ### The waves of an engine -/

/-- A wave whose tile operations an engine performs: resident, or absent (R345, R346). -/
structure TileWave where
  key   : Nat
  ident : WaveId
  core  : Nat
  slot  : Nat
  mat   : MatState
  /-- the wave, if it is resident -/
  w     : Option Wave
  /-- the evicted wave, if it is not -/
  away  : Option Away
  deriving DecidableEq, Repr

/-- The waves of a cluster with tile operations, in ascending core and slot (R194). -/
def State.tileWaves (s : State) (cl : Nat) : List TileWave :=
  let here := (s.waves.filter (fun e => clusterOf (e.1 / Config.slots) == cl && !e.2.mat.ops.isEmpty)).map (fun e =>
    (⟨e.1, e.2.ident, e.1 / Config.slots, e.1 % Config.slots, e.2.mat, some e.2, none⟩ : TileWave))
  let gone := (s.away.filter (fun e => clusterOf e.2.core == cl && !e.2.mat.ops.isEmpty)).map (fun e =>
    (⟨slotKey e.2.core e.2.slot, e.2.ident, e.2.core, e.2.slot, e.2.mat, none, some e.2⟩ : TileWave))
  sortBy (fun a b => decide (a.key ≤ b.key)) (here ++ gone)

/-- An access that an operation comes after: one in flight at its issue, or made since by an earlier lane instruction (R142,
R339). -/
def TileOp.afterOut (o : TileOp) (x : Out) : Bool :=
  o.waitOuts.contains x.id || (match x.seq with | some n => o.before.contains (n, true) | none => false)

/-- Whether an operation may start: lane instructions queued before it that name a register of its range, and those of its
program order that access memory or acquire, have completed, those that a trap has frozen since among them; so have the
accesses before it, and loads into its range have landed (R142, R341). -/
def TileWave.ready (t : TileWave) (o : TileOp) : Bool :=
  let inRange (r : Nat) : Bool := decide (o.cbase ≤ r) && decide (r < o.cbase + o.regs)
  let outsDone (outs : List Out) : Bool :=
    !outs.any (fun x => o.afterOut x ||
      (match x.dest with | .vector v => decide (v < o.cbase + o.regs) && decide (o.cbase < v + x.nvec) | _ => false))
  let lanesDone (l : List LaneItem) : Bool :=
    !l.any (fun i => match o.before.find? (fun p => p.1 == i.seq) with
      | some (_, mine) => (mine && (i.near || i.far || i.acquire)) || i.vecRegs.any inRange
      | none => false)
  match t.w, t.away with
  | some w, _ => outsDone w.work.outs && lanesDone w.laneWaiting
  | none, some a => outsDone a.outs && lanesDone (a.frozen ++ a.frest)
  | none, none => false

/-- The oldest operation whose result is not in the latch. -/
def TileWave.next (t : TileWave) : Option TileOp := t.mat.ops.find? (fun o => !o.latched)

/-- Whether a wave's next operation goes on in the latch of a cluster's engine (R341). -/
def State.chains (s : State) (cl : Nat) (t : TileWave) (o : TileOp) : Bool :=
  match (s.cluster cl).latch with
  | none => !t.mat.ops.any (·.latched)
  | some l =>
    l.uid == t.ident.uid && l.cbase == o.cbase &&
      (match t.mat.ops.filter (·.latched) with
       | p :: _ => p.batch == o.batch && mSh p.spec == mSh o.spec
       | [] => false) &&
      (s.tileWaves cl).all (fun u => u.ident.uid == l.uid)

/-- The wave whose operation the engine takes next: round-robin, among those that may start (R194). -/
def State.tileNext (s : State) (cl : Nat) : Option (TileWave × TileOp) :=
  let ws := s.tileWaves cl
  let rr := (s.cluster cl).tileRR
  let able (t : TileWave) : Bool := (match t.next with | some o => t.ready o && s.chains cl t o | none => false)
  match (ws.filter (fun t => decide (rr < t.key)) ++ ws.filter (fun t => decide (t.key ≤ rr))).find? able with
  | some t => t.next.map (fun o => (t, o))
  | none => none

/-- The operation that an engine performs now: the one whose operands are on their way, else the next. -/
def State.tileNow (s : State) (cl : Nat) : Option (TileWave × TileOp) :=
  match (s.tileWaves cl).find? (fun t => t.next.any (·.flight.isSome)) with
  | some t => t.next.map (fun o => (t, o))
  | none => s.tileNext cl

/-! ### Fetching -/

/-- Change the matrix state of a wave, resident or not; an absent wave's batch state word lies in its image (R345). -/
def State.updMat (s : State) (uid : Nat) (f : MatState → MatState) : State :=
  match s.away.get? uid with
  | some a =>
    let m := f a.mat
    let s := { s with away := s.away.set uid { a with mat := m } }
    if m.word = a.mat.word then s
    else s.imgWrite (dieOf a.core) a.ident.job (a.image + 0x78) (bytesOfWord m.word)
  | none => s.updWave uid (fun w => { w with mat := f w.mat })

/-- The fetcher as the reader of the runs of an operation. -/
def TileWave.reader (t : TileWave) : EngOp where
  kind := .gather
  uid := t.ident.uid
  ident := t.ident
  core := t.core
  slot := t.slot
  frag := 0
  d := 0
  desc := []
  rcd := []
  waitOuts := []
  waitSeqs := []
  wide := false
  pos := 0
  buf := none
  idx := none
  flight := none
  served := 0
  lines := 0
  flags := 0
  bytes := 0
  conds := []
  aborted := false
  landed := []
  fault := none
  dropped := []

/-- A fault of an operation: it is held if it is the first, and this operation and those after it are discarded (R344,
R345). -/
def MatState.fault (m : MatState) (fk : Bool) (forig : BitVec 8) (seq : BitVec 16) : MatState :=
  match m.ops.find? (fun o => !o.latched) with
  | none => m
  | some o =>
    let n := (m.ops.filter (fun o => !o.latched)).length - 1
    { m with
      ops := m.ops.filter (·.latched)
      fv := true
      fk := fk
      forig := forig
      seq := seq
      faultb := (match o.batch with | some b => b | none => m.next)
      ndisc := BitVec.ofNat 6 (min 63 n) }

/-- The operation faults: its wave's replies to come fall by the operations discarded. -/
def State.tileFault (s : State) (t : TileWave) (fk : Bool) (forig : BitVec 8) (seq : BitVec 16) : State :=
  let n := (t.mat.ops.filter (fun o => !o.latched)).length
  let s := s.updMat t.ident.uid (·.fault fk forig seq)
  (List.range n).foldl (fun s _ => s.outFalls (2, t.ident.uid)) s

/-- Whether a byte lies in scratch outside the wave's own gang's allocation (R344). -/
def State.outsideScratch (s : State) (t : TileWave) (va : Nat) : Bool :=
  windowOf va == .scratch &&
    (scratchGang va != t.ident.gang || va / 4294967296 % 1048576 != 0 ||
      decide ((s.gangLen t.ident.grid t.ident.gang).getD 0 ≤ scratchOff va))

/-- The cause that an operand address raises before it is translated, as FORIG holds it (R344). DEDUCED (log 80): R344 names
scratch for scales only; an operand in handle form whose record lies there is held to the same, and one in a window that no
operand may name takes the cause of R7 and R8. -/
def State.operandCause (s : State) (t : TileWave) (va : Nat) : Option (BitVec 8) :=
  match windowOf va with
  | .global | .peer | .host => none
  | .scratch => if s.outsideScratch t va then some 0x30 else none
  | .queues | .mgmt => some 0x21
  | _ => some 0x20

/-- How a fetch ends. -/
inductive TileFetch where
  | bytes (bs : List Byte)
  | fault (fk : Bool) (forig : BitVec 8) (seq : BitVec 16)
  | wait
  deriving DecidableEq, Repr

/-- Set or clear the reads on their way of a wave's oldest operation that is not latched. -/
def MatState.setFlight (m : MatState) (f : Option Flight) : MatState :=
  let rec go : List TileOp → List TileOp
    | [] => []
    | o :: os => if o.latched then o :: go os else { o with flight := f } :: os
  { m with ops := go m.ops }

/-- Take the operands that have been read: zeros stand for a region that is not live or has another key, lost memory
faults. -/
def State.tileTake (s : State) (t : TileWave) (f : Flight) (ext : Remote) (n : Nat) : TileFetch × State :=
  match s.takeReads t.reader f ext n with
  | none => (.wait, s)
  | some (bs, e, s) =>
    let s := s.updMat t.ident.uid (·.setFlight none)
    if e.conds.contains 5 then (.fault true 0x07 0, s) else (.bytes bs, s)

/-- Copies that the fetcher raises: one for each operand in handle form (R337, R116; log 18). -/
def TileOp.copies (o : TileOp) : Nat := (if mKind o.spec false then 1 else 0) + (if mKind o.spec true then 1 else 0)

/-- The fetcher has raised the copies of an operation: CEGATH counts them (R116, R337). -/
def State.raised (s : State) (t : TileWave) (o : TileOp) : State :=
  if o.copies = 0 then s else s.bump (ceReg (clusterOf t.core) 0x18) o.copies

/-- Read every operand byte of an operation (R337, R338, R344): its requests go out once every page is translated, and it
goes on with their replies. -/
def State.tileFetch (s : State) (t : TileWave) (o : TileOp) (ext : Remote) : TileFetch × State :=
  let all := fetchBytes o
  match o.flight with
  | some f => s.tileTake t f ext all.length
  | none =>
    if fmtScaled o.fmt && (badScale o false || badScale o true) then (.fault false 0 0, s)
    else
      match all.findSome? (s.operandCause t) with
      | some k => (.fault true k 0, s.raised t o)
      | none =>
        let e := t.reader
        let asker := Asker.tiles t.ident.uid
        match s.places asker e 0 false (runsOf 0 (all.map some)) with
        | (none, _, s) => (.wait, s)
        | (some l, [], s) =>
          let f : Flight := ⟨l, []⟩
          if l.all (fun x => match x.2 with | .mem _ _ => false | _ => true) then
            (if s.nowClear e true l then ((s.forget asker).raised t o).tileTake t f ext all.length else (.wait, s))
          else
            let (f, s) := ((s.forget asker).raised t o).launch e none l
            (.wait, s.updMat t.ident.uid (·.setFlight (some f)))
        | (some _, fs, s) =>
          let fs := distinctFaults fs
          if !s.canRecord (dieOf t.core) t.ident.job fs.length then (.wait, s)
          else
            let (q, s) := s.record (s.engRecordOf e 4 0) fs
            (.fault true (match fs with | f :: _ => f.cause | [] => 0) q, (s.forget asker).raised t o)

/-- The values of `n` elements that bytes hold one after the other. -/
def readVals (fmt : BitVec 16) (e : Nat) : Nat → List Byte → List FVal
  | 0, _ => []
  | n + 1, bs => tileVal fmt (natOfBytes (bs.take e)) :: readVals fmt e n (bs.drop e)

/-- The scale of vector `n` at K index `k`, among the fetched scales by their addresses. -/
def fetchedScale (o : TileOp) (b : Bool) (scales : List (Nat × Byte)) (n k : Nat) : FVal :=
  let a := scaleAddr o b n k
  scaleVal (((scales.find? (fun e => e.1 == a)).map (fun e => e.2.toNat)).getD 0)

/-- Columns of an operand as it is fetched. -/
def fetchedCols (o : TileOp) (b : Bool) : Nat := if b then mN o.spec else mK o.spec

/-- The values of an operand row by row, from the fetched bytes, each with its scale (R233). -/
def fetchedVals (o : TileOp) (bs : List Byte) (b : Bool) : Array FVal :=
  let na := (operandBytes o false).length
  let nb := (operandBytes o true).length
  let cols := fetchedCols o b
  let vals := readVals o.fmt (fmtEsz o.fmt) (mRows o.spec b * cols) (if b then bs.drop na else bs)
  if fmtScaled o.fmt then
    let scales := (scaleAddrs o b).zip (bs.drop (na + nb + (if b then (scaleAddrs o false).length else 0)))
    (vals.zipIdx.map (fun (p : FVal × Nat) =>
      let row := p.2 / cols
      let col := p.2 % cols
      FVal.mul p.1 (fetchedScale o b scales (if b then col else row) (if b then row else col)))).toArray
  else vals.toArray

/-- The value at a row and column. -/
def valAt (v : Array FVal) (cols row col : Nat) : FVal := (v[row * cols + col]?).getD .nan

/-- The starting registers of a range: from the latch, the register file, or the register image (R341). -/
def State.startRegs (s : State) (cl : Nat) (t : TileWave) (o : TileOp) : List (BitVec 4096) × State :=
  match (s.cluster cl).latch with
  | some l => (l.acc, s)
  | none =>
    match t.w, t.away with
    | some w, _ => ((List.range o.regs).map (fun r => w.vec.get (o.cbase + r)), s)
    | none, some a => (List.range o.regs).foldl (fun p r =>
        let (bs, s) := p.2.imgRead (dieOf a.core) a.ident.job (a.image + ctxVector (o.cbase + r) 0) 512
        (p.1 ++ [BitVec.ofNat 4096 (natOfBytes bs)], s)) ([], s)
    | none, none => ([], s)

/-- Mark the oldest operation that is not latched as latched. -/
def latchNext : List TileOp → List TileOp
  | [] => []
  | o :: os => if o.latched then o :: latchNext os else { o with latched := true } :: os

/-- The ranges of the context image of its wave, if that is evicted, that a tile operation reaches: the batch state word, and
the registers of its range (R210, R345). -/
def imageOfTile (cbase regs : Nat) : List (Nat × Nat) := [(0x78, 8), (ctxVector cbase 0, regs * 512)]

/-- TILE_OPERATION: the engine of a cluster takes the next tile operation, fetches its operands, and updates its
accumulator in the latch (R341). While its wave is being resumed it is held (R126). -/
def execTileOperation (cluster : Nat) (ext : Remote) (ecc : Ecc) (s : State) : Result :=
  match (if s.stopped then none else s.tileNow cluster) with
  | none => .next s
  | some (t, o) =>
    if s.rdivClosed t.ident.uid || !s.awayClear t.ident.uid (imageOfTile o.cbase o.regs) then .next s
    else
      match (s.addFlaws ecc).tileFetch t o ext with
      | (.wait, s) => .next s
      | (.fault fk forig seq, s) =>
        let s := s.tileFault t fk forig seq
        .next (s.setCluster cluster { s.cluster cluster with tileRR := t.key })
      | (.bytes bs, s) =>
        let va := fetchedVals o bs false
        let vb := fetchedVals o bs true
        let (start, s) := s.startRegs cluster t o
        let acc := tileRegs o.spec o.fmt start (valAt va (fetchedCols o false)) (valAt vb (fetchedCols o true))
        let s := s.updMat t.ident.uid (fun m => { m with ops := latchNext m.ops })
        .next (s.setCluster cluster { s.cluster cluster with latch := some ⟨t.ident.uid, o.cbase, acc⟩, tileRR := t.key })

/-! ### The write-back (R341) -/

/-- The latched registers go to the register file. -/
def Wave.writeBack (w : Wave) (l : Latch) : Wave :=
  { w with vec := (l.acc.zipIdx).foldl (fun v p => v.set (l.cbase + p.2) p.1) w.vec }

/-- The latched registers go to the register image. -/
def State.imgWriteBack (s : State) (a : Away) (l : Latch) : State :=
  (l.acc.zipIdx).foldl (fun s p =>
    s.imgWrite (dieOf a.core) a.ident.job (a.image + ctxVector (l.cbase + p.2) 0) (bytesOfNat 512 p.1.toNat)) s

/-- TILE_COMPLETION: a latched result that no operation goes on with is written back, and the operations of its chain
complete (R341); while its wave is being resumed it is held (R126). -/
def execTileCompletion (cluster : Nat) (s : State) : Result :=
  match (s.cluster cluster).latch with
  | none => .next s
  | some l =>
    if (s.tileNow cluster).isSome || s.rdivClosed l.uid ||
        !s.awayClear l.uid (imageOfTile l.cbase l.acc.length) then .next s
    else
      let s := s.setCluster cluster { s.cluster cluster with latch := none }
      let drop (m : MatState) : MatState := { m with ops := m.ops.filter (fun o => !o.latched) }
      match s.findWave l.uid, s.away.get? l.uid with
      | some (core, slot, w), _ =>
        let n := (w.mat.ops.filter (·.latched)).length
        let w := { w.writeBack l with mat := drop w.mat }
        let s := (s.setWave core slot w).updGrid w.ident.grid (fun g => { g with moved := true })
        .next ((List.range n).foldl (fun s _ => s.outFalls (2, l.uid)) s)
      | none, some a =>
        let n := (a.mat.ops.filter (·.latched)).length
        let s := s.imgWriteBack a l
        let s := { s with away := s.away.set l.uid { a with mat := drop a.mat } }
        .next ((List.range n).foldl (fun s _ => s.diverted a (2, l.uid)) s)
      | none, none => .next s

end Sys2Proof.Machine
end

