-- ==== Sys2Proof/Machine/LaneFp.lean ====
section
/-!
DEFINITION. Lane operands as the instruction's type (R249 to R251), the shapes of the lane instructions of one result, and
the floating-point instructions of the lane pipelines (R352 to R358).
-/
namespace Sys2Proof.Machine

/-! ### Operands (R249, R251) -/

/-- An element in every element of a lane: both halves for a 16-bit type. -/
def spread (t : BitVec 5) (v : Word) : Word :=
  if is64 t then v else if is16 t then (twice (v.setWidth 16)).setWidth 64 else (v.setWidth 32).setWidth 64

/-- The bits of an exact value in an F-class type; the constants are exact in each. -/
def fpConst (t : BitVec 5) (v : FVal) : Word := BitVec.ofNat 64 (fround (fmtOfTyp t) 0 false v)

/-- A source field as type `t`, for lane `l` (R251); `asInt`: an operand that the opcode reads as an integer. -/
def LCtx.opnd (c : LCtx) (f : BitVec 9) (t : BitVec 5) (l : Nat) (asInt : Bool := false) : Word :=
  let n := f.toNat
  if n < 256 then (if is64 t then c.w.lane32 (n + 1) l ++ c.w.lane32 n l else (c.w.lane32 n l).setWidth 64)
  else if n < 264 then spread t (c.slotVal (n - 256))
  else if n < 344 then
    spread t (if isFloatTyp t && !asInt then fpConst t (.ofInt (constInt n)) else BitVec.ofInt 64 (constInt n))
  else spread t (fpConst t (fdecode f32 (constFp n).toNat))

/-- The immediate of an LI word as type `t` (R249). -/
def immVal (t : BitVec 5) (w : LaneWord) : Word := if is64 t then w.imm.signExtend 64 else w.imm.setWidth 64

/-- The elements of lanes combined one by one (R348). -/
def mapElems (t : BitVec 5) (g : (n : Nat) → BitVec n → BitVec n → BitVec n → BitVec n) (a b c : Word) : Word :=
  if is64 t then g 64 a b c
  else if is16 t then
    let h (i : Nat) : BitVec 16 := g 16 (a.extractLsb' i 16) (b.extractLsb' i 16) (c.extractLsb' i 16)
    (h 16 ++ h 0).setWidth 64
  else (g 32 (a.setWidth 32) (b.setWidth 32) (c.setWidth 32)).setWidth 64

/-! ### Shapes -/

/-- The format word of the issue record. -/
def LCtx.fmt (c : LCtx) : BitVec 16 := c.it.fmt

/-- A vector destination of the word's type (R347). -/
def vecOp (i : Instr) (w : LaneWord) (s : State) (val : LCtx → Nat → Word) : Result :=
  laneOp i s (fun c => .next (c.complete s (c.w.putLanes w.typ w.dst.toNat c.mask (val c))))

/-- A predicate destination (R163, R347). -/
def predOp (i : Instr) (w : LaneWord) (s : State) (cond : LCtx → Nat → Bool) : Result :=
  laneOp i s (fun c => .next (c.complete s
    (c.w.putPred w.dst.toNat c.mask (maskOf ((List.range 128).filter (cond c))))))

/-- A scalar destination (R350). -/
def scalarOut (i : Instr) (w : LaneWord) (s : State) (v : LCtx → Word) : Result :=
  laneOp i s (fun c => .next (c.complete s (c.w.landReg c.it.frag w.dst (v c))))

/-- One, two or three sources, combined element by element. -/
def elems1 (i : Instr) (w : LaneWord) (s : State) (g : LCtx → (n : Nat) → BitVec n → BitVec n) : Result :=
  vecOp i w s (fun c l => mapElems w.typ (fun n a _ _ => g c n a) (c.opnd w.sa w.typ l) 0 0)
def elems2 (i : Instr) (w : LaneWord) (s : State) (g : LCtx → (n : Nat) → BitVec n → BitVec n → BitVec n) : Result :=
  vecOp i w s (fun c l => mapElems w.typ (fun n a b _ => g c n a b) (c.opnd w.sa w.typ l) (c.opnd w.sb w.typ l) 0)
def elems2i (i : Instr) (w : LaneWord) (s : State) (g : LCtx → (n : Nat) → BitVec n → BitVec n → BitVec n) : Result :=
  vecOp i w s (fun c l => mapElems w.typ (fun n a b _ => g c n a b) (c.opnd w.sa w.typ l) (immVal w.typ w) 0)
def elems3 (i : Instr) (w : LaneWord) (s : State)
    (g : LCtx → (n : Nat) → BitVec n → BitVec n → BitVec n → BitVec n) : Result :=
  vecOp i w s (fun c l => mapElems w.typ (g c) (c.opnd w.sa w.typ l) (c.opnd w.sb w.typ l) (c.opnd w.sc w.typ l))
def elems3i (i : Instr) (w : LaneWord) (s : State)
    (g : LCtx → (n : Nat) → BitVec n → BitVec n → BitVec n → BitVec n) : Result :=
  vecOp i w s (fun c l => mapElems w.typ (g c) (c.opnd w.sa w.typ l) (c.opnd w.sb w.typ l) (immVal w.typ w))

/-! ### Floating-point elements -/

/-- An element as a value under the record's FTZ. -/
def LCtx.fval (c : LCtx) (t : BitVec 5) {n : Nat} (x : BitVec n) : FVal := fread (fmtOfTyp t) (fmtFTZ c.fmt) x.toNat
/-- A value rounded to an element under the record's FMT. -/
def LCtx.fbits (c : LCtx) (t : BitVec 5) (n : Nat) (v : FVal) : BitVec n :=
  BitVec.ofNat n (fround (fmtOfTyp t) (fmtRM c.fmt) (fmtFTZ c.fmt) v)

/-- A floating-point operation on elements. -/
def LCtx.fop1 (c : LCtx) (t : BitVec 5) (g : FVal → FVal) (n : Nat) (a : BitVec n) : BitVec n := c.fbits t n (g (c.fval t a))
def LCtx.fop2 (c : LCtx) (t : BitVec 5) (g : FVal → FVal → FVal) (n : Nat) (a b : BitVec n) : BitVec n :=
  c.fbits t n (g (c.fval t a) (c.fval t b))
def LCtx.fop3 (c : LCtx) (t : BitVec 5) (g : FVal → FVal → FVal → FVal) (n : Nat) (a b d : BitVec n) : BitVec n :=
  c.fbits t n (g (c.fval t a) (c.fval t b) (c.fval t d))

/-- The reciprocal square root, with a lowest bit for what lies beyond it (R354, Table 3). -/
def FVal.rsqrt : FVal → FVal
  | .nan => .nan
  | .inf neg => if neg then .nan else .fin false 0 0
  | .fin neg m e =>
    if m = 0 then .inf neg
    else if neg then .nan
    else
      let odd := decide (e % 2 ≠ 0)
      let m := if odd then 2 * m else m
      let e := if odd then e - 1 else e
      let k := m.log2 + 64
      let r := isqrt (2 ^ (2 * k) / m)
      .fin false (2 * r + (if r * r * m = 2 ^ (2 * k) then 0 else 1)) (-Int.ofNat k - e / 2 - 1)

/-- A value rounded to an integral value; a zero keeps its sign (R357). -/
def FVal.round (rm : RM) : FVal → FVal
  | .fin neg m e => if 0 ≤ e then .fin neg m e else .fin neg (roundShift rm neg m (min (-e) 4096).toNat) 0
  | v => v

/-! ### Special functions (R355) -/

/-- An integer value, if a value is one. -/
def FVal.int? : FVal → Option Int
  | .fin neg m e =>
    if 0 ≤ e then some (signed neg m * 2 ^ (min e 512).toNat)
    else
      let k := (min (-e) 4096).toNat
      if m % 2 ^ k = 0 then some (signed neg (m / 2 ^ k)) else none
  | _ => none

/-- The floor of a finite value. -/
def FVal.floor : FVal → Int
  | .fin neg m e =>
    if 0 ≤ e then signed neg m * 2 ^ (min e 512).toNat else Int.fdiv (signed neg m) (2 ^ (min (-e) 4096).toNat)
  | _ => 0

/-- The positive FP32 value of 2^n. -/
def pow32 (n : Int) : Nat := fround f32 0 false (.fin false 1 n)

/-- VFEXP2's result before FTZ: the exact values of Table 4, else a free value within 1 ulp of the exact value (R355). -/
def exp2Val (x : Word32) (v : FVal) : Word32 :=
  match v with
  | .nan => 0x7FC00000
  | .inf neg => if neg then 0 else 0x7F800000
  | .fin neg m e =>
    let f := v.floor
    if 128 ≤ f then 0x7F800000
    else if f < -150 ∨ v.int? = some (-150) then 0
    else
      match v.int? with
      | some n => BitVec.ofNat 32 (pow32 n)
      | none => near32 (fxExp2 (fxOf neg m e 0 - f * fxOne)) (2 ^ (Int.ofNat fxBits + max (-23) (-149 - f)).toNat) f
          (Config.exp2Bits x &&& 0x7FFFFFFF)

/-- VFLOG2's result: the exact values of Table 4, else a free value within 1 ulp of the exact value, or within 2^-22 of it
for an operand from 0.5 to 2 (R355). -/
def log2Val (x : Word32) (v : FVal) : Word32 :=
  match v with
  | .nan => 0x7FC00000
  | .inf neg => if neg then 0x7FC00000 else 0x7F800000
  | .fin neg m e =>
    if m = 0 then 0xFF800000
    else if neg then 0x7FC00000
    else
      let f : Int := Int.ofNat m.log2 + e
      if m = 2 ^ m.log2 then f32rne (.ofInt f)
      else
        let y := f * fxOne + fxLog2 m m.log2
        let d : Int := if f = -1 ∨ f = 0 then 2 ^ (fxBits - 22) else 2 ^ (y.natAbs.log2 - 23)
        near32 y d 0 (Config.log2Bits x)

/-- Whether a finite magnitude is at most 2^16 (R355). -/
def smallAngle (m : Nat) (e : Int) : Bool := !(FVal.fin false 1 16).lt (.fin false m e)

/-- VFSIN's and VFCOS's result: the exact values of Table 4, else a free value within 2^-21 of the exact value, or from −1
to 1 for a magnitude above 2^16 (R355). The cosine of an angle that is not 0 lies below 1, so 1 + 2^-21 is out of bound. -/
def sinVal (x : Word32) (v : FVal) : Word32 :=
  match v with
  | .nan | .inf _ => 0x7FC00000
  | .fin neg m e =>
    if m = 0 then (if neg then 0x80000000 else 0)
    else if smallAngle m e then near32 (fxTurn neg m e).1 (2 ^ (fxBits - 21)) 0 (Config.sinBits x)
    else within32 (.fin true 1 0) (.fin false 1 0) (Config.sinBits x)
def cosVal (x : Word32) (v : FVal) : Word32 :=
  match v with
  | .nan | .inf _ => 0x7FC00000
  | .fin neg m e =>
    if m = 0 then 0x3F800000
    else if smallAngle m e then
      let c := near32 (fxTurn neg m e).2 (2 ^ (fxBits - 21)) 0 (Config.cosBits x)
      if c = 0x3F800004 then 0x3F800003 else c
    else within32 (.fin true 1 0) (.fin false 1 0) (Config.cosBits x)

/-- A special function of FP32: FTZ flushes a subnormal operand and a subnormal result, RM does not count. -/
def special32 (i : Instr) (w : LaneWord) (s : State) (g : Word32 → FVal → Word32) : Result :=
  vecOp i w s (fun c l =>
    let x : Word32 := (c.opnd w.sa w.typ l).setWidth 32
    let v := c.fval w.typ x
    let y := g (BitVec.ofNat 32 (fround f32 0 false v)) v
    (BitVec.ofNat 32 (fround f32 0 (fmtFTZ c.fmt) (fdecode f32 y.toNat)) : Word32).setWidth 64)

/-! ### Comparison and classes (R356, R358) -/

/-- A condition of VFCMP on two values (R255). -/
def fcond (k : BitVec 8) (x y : FVal) : Bool :=
  let un := x.isNaN || y.isNaN
  match k.toNat with
  | 0 => x.eq y
  | 1 => un || !x.eq y
  | 2 => x.lt y
  | 3 => !un && (x.lt y || x.eq y)
  | 4 => y.lt x
  | 5 => !un && (y.lt x || x.eq y)
  | 6 => un
  | _ => !un

/-- The low element of a lane as a value. -/
def LCtx.lowF (c : LCtx) (t : BitVec 5) (x : Word) : FVal :=
  c.fval t (if is16 t then (x.setWidth 16).setWidth 32 else (x.setWidth 32 : Word32))

/-- The class bit of a bit pattern. -/
def fclass (f : FFmt) (b : Nat) : Nat :=
  let neg := decide (b / f.signBit % 2 = 1)
  let e := b / 2 ^ f.fbits % 2 ^ f.ebits
  let fr := b % 2 ^ f.fbits
  if e = 2 ^ f.ebits - 1 then
    if fr = 0 then (if neg then 0 else 7) else if fr < 2 ^ (f.fbits - 1) then 8 else 9
  else if e = 0 then (if fr = 0 then (if neg then 3 else 4) else (if neg then 2 else 5))
  else (if neg then 1 else 6)

/-! ### The instructions -/

/-- VFADD (R352). -/
def execVfadd (w : LaneWord) (s : State) : Result :=
  elems2 (.vfadd w) w s (fun c n a b => c.fop2 w.typ (fun x y => FVal.add (fmtRM c.fmt) x y) n a b)

/-- VFADD, with an immediate (R352). -/
def execVfaddLi (w : LaneWord) (s : State) : Result :=
  elems2i (.vfaddLi w) w s (fun c n a b => c.fop2 w.typ (fun x y => FVal.add (fmtRM c.fmt) x y) n a b)

/-- VFSUB (R352). -/
def execVfsub (w : LaneWord) (s : State) : Result :=
  elems2 (.vfsub w) w s (fun c n a b => c.fop2 w.typ (fun x y => FVal.add (fmtRM c.fmt) x y.neg) n a b)

/-- VFSUB, with an immediate (R352). -/
def execVfsubLi (w : LaneWord) (s : State) : Result :=
  elems2i (.vfsubLi w) w s (fun c n a b => c.fop2 w.typ (fun x y => FVal.add (fmtRM c.fmt) x y.neg) n a b)

/-- VFMUL (R352). -/
def execVfmul (w : LaneWord) (s : State) : Result :=
  elems2 (.vfmul w) w s (fun c n a b => c.fop2 w.typ (fun x y => FVal.mul x y) n a b)

/-- VFMUL, with an immediate (R352). -/
def execVfmulLi (w : LaneWord) (s : State) : Result :=
  elems2i (.vfmulLi w) w s (fun c n a b => c.fop2 w.typ (fun x y => FVal.mul x y) n a b)

/-- VFFMA, rounded once (R352). -/
def execVffma (w : LaneWord) (s : State) : Result :=
  elems3 (.vffma w) w s (fun c n a b d => c.fop3 w.typ (fun x y z => FVal.add (fmtRM c.fmt) (FVal.mul x y) z) n a b d)

/-- VFFMA, with an immediate (R352). -/
def execVffmaLi (w : LaneWord) (s : State) : Result :=
  elems3i (.vffmaLi w) w s (fun c n a b d => c.fop3 w.typ (fun x y z => FVal.add (fmtRM c.fmt) (FVal.mul x y) z) n a b d)

/-- VFMIN (R353). -/
def execVfmin (w : LaneWord) (s : State) : Result :=
  elems2 (.vfmin w) w s (fun c n a b => c.fop2 w.typ (fun x y => FVal.minMax false x y) n a b)

/-- VFMIN, with an immediate (R353). -/
def execVfminLi (w : LaneWord) (s : State) : Result :=
  elems2i (.vfminLi w) w s (fun c n a b => c.fop2 w.typ (fun x y => FVal.minMax false x y) n a b)

/-- VFMAX (R353). -/
def execVfmax (w : LaneWord) (s : State) : Result :=
  elems2 (.vfmax w) w s (fun c n a b => c.fop2 w.typ (fun x y => FVal.minMax true x y) n a b)

/-- VFMAX, with an immediate (R353). -/
def execVfmaxLi (w : LaneWord) (s : State) : Result :=
  elems2i (.vfmaxLi w) w s (fun c n a b => c.fop2 w.typ (fun x y => FVal.minMax true x y) n a b)

/-- VFRCP (R354). -/
def execVfrcp (w : LaneWord) (s : State) : Result :=
  elems1 (.vfrcp w) w s (fun c n a => c.fop1 w.typ (fun x => FVal.div (.fin false 1 0) x) n a)

/-- VFRSQ (R354). -/
def execVfrsq (w : LaneWord) (s : State) : Result :=
  elems1 (.vfrsq w) w s (fun c n a => c.fop1 w.typ (fun x => x.rsqrt) n a)

/-- VFSQRT (R354). -/
def execVfsqrt (w : LaneWord) (s : State) : Result :=
  elems1 (.vfsqrt w) w s (fun c n a => c.fop1 w.typ (fun x => x.sqrt) n a)

/-- VFDIV (R354). -/
def execVfdiv (w : LaneWord) (s : State) : Result :=
  elems2 (.vfdiv w) w s (fun c n a b => c.fop2 w.typ (fun x y => FVal.div x y) n a b)

/-- VFDIV, with an immediate (R354). -/
def execVfdivLi (w : LaneWord) (s : State) : Result :=
  elems2i (.vfdivLi w) w s (fun c n a b => c.fop2 w.typ (fun x y => FVal.div x y) n a b)

/-- VFEXP2 (R355). -/
def execVfexp2 (w : LaneWord) (s : State) : Result :=
  special32 (.vfexp2 w) w s exp2Val

/-- VFLOG2 (R355). -/
def execVflog2 (w : LaneWord) (s : State) : Result :=
  special32 (.vflog2 w) w s log2Val

/-- VFSIN (R355). -/
def execVfsin (w : LaneWord) (s : State) : Result :=
  special32 (.vfsin w) w s sinVal

/-- VFCOS (R355). -/
def execVfcos (w : LaneWord) (s : State) : Result :=
  special32 (.vfcos w) w s cosVal

/-- VFCMP (R356). -/
def execVfcmp (w : LaneWord) (s : State) : Result :=
  predOp (.vfcmp w) w s (fun c l => fcond w.mod (c.lowF w.typ (c.opnd w.sa w.typ l)) (c.lowF w.typ (c.opnd w.sb w.typ l)))

/-- VFCMP, with an immediate (R356). -/
def execVfcmpLi (w : LaneWord) (s : State) : Result :=
  predOp (.vfcmpLi w) w s (fun c l => fcond w.mod (c.lowF w.typ (c.opnd w.sa w.typ l)) (c.lowF w.typ (immVal w.typ w)))

/-- VFCLASS (R358). -/
def execVfclass (w : LaneWord) (s : State) : Result :=
  elems1 (.vfclass w) w s (fun _ n a => BitVec.ofNat n (2 ^ fclass (fmtOfTyp w.typ) a.toNat))

/-- VFRND (R357). -/
def execVfrnd (w : LaneWord) (s : State) : Result :=
  elems1 (.vfrnd w) w s (fun c n a => c.fop1 w.typ (fun x => x.round (fmtRM c.fmt)) n a)

end Sys2Proof.Machine
end

