-- ==== Sys2Proof/Machine/LaneInt.lean ====
section
/-!
DEFINITION. The integer, select and predicate instructions of the lane pipelines (R359 to R364). Elements are computed on
exact integers and narrowed at the end.
-/
namespace Sys2Proof.Machine

/-- Whether a type's elements are two's complement (R359). -/
def signedTyp (t : BitVec 5) : Bool := typSigned t
/-- An element as an exact integer, by the signedness of its type. -/
def exactOf (t : BitVec 5) {n : Nat} (x : BitVec n) : Int := if signedTyp t then x.toInt else Int.ofNat x.toNat
/-- An exact integer saturated to an element. -/
def satOf (t : BitVec 5) (n : Nat) (x : Int) : BitVec n := if signedTyp t then sats n x else satu n x

/-- The high half of a product (Table 5). -/
def highOf (t : BitVec 5) {n : Nat} (a b : BitVec n) : BitVec n := BitVec.ofInt n (Int.fdiv (exactOf t a * exactOf t b) (2 ^ n))
/-- The lesser and the greater. -/
def minOf (t : BitVec 5) {n : Nat} (a b : BitVec n) : BitVec n := if signedTyp t then minS a b else minN a b
def maxOf (t : BitVec 5) {n : Nat} (a b : BitVec n) : BitVec n := if signedTyp t then maxS a b else maxN a b
/-- The absolute value; the most negative stays. -/
def absOf {n : Nat} (a : BitVec n) : BitVec n := if a.msb then -a else a

/-- VBFX's field (R360). -/
def vbfx (a b c : Word32) : Word32 :=
  let pos := b.toNat % 32
  let wid := min (c.toNat % 64) 32
  let x := a.toNat / 2 ^ pos % 2 ^ wid
  if c.getLsbD 8 && decide (0 < wid) && decide (2 ^ (wid - 1) ≤ x) then BitVec.ofInt 32 (Int.ofNat x - 2 ^ wid)
  else BitVec.ofNat 32 x

/-- VBFI's result (R360). -/
def vbfi (a b c : Word32) : Word32 :=
  let pos := c.toNat % 32
  let wid := min (c.toNat / 256 % 64) 32
  let m : Word32 := BitVec.ofNat 32 ((2 ^ wid - 1) * 2 ^ pos)
  (a &&& ~~~m) ||| ((b <<< pos) &&& m)

/-- A condition of VCMP on two elements (R255, R361). -/
def icond (k : BitVec 8) (x y : Int) : Bool :=
  match k.toNat with
  | 0 => x == y
  | 1 => x != y
  | 2 => decide (x < y)
  | 3 => decide (x ≤ y)
  | 4 => decide (y < x)
  | _ => decide (y ≤ x)

/-- The element that VCMP compares: the low one of a packed lane. -/
def lowInt (t : BitVec 5) (x : Word) : Int :=
  if is64 t then exactOf t x
  else if is16 t then exactOf t (x.setWidth 16)
  else exactOf t (x.setWidth 32)

/-- A guard in a lane (R253). -/
def LCtx.guard (c : LCtx) (w : LaneWord) (l : Nat) : Bool := (c.w.guardMask w).getLsbD l

/-! ### The instructions -/

/-- VADD (R359). -/
def execVadd (w : LaneWord) (s : State) : Result :=
  elems2 (.vadd w) w s (fun _ _ a b => a + b)

/-- VADD, with an immediate (R359). -/
def execVaddLi (w : LaneWord) (s : State) : Result :=
  elems2i (.vaddLi w) w s (fun _ _ a b => a + b)

/-- VSUB (R359). -/
def execVsub (w : LaneWord) (s : State) : Result :=
  elems2 (.vsub w) w s (fun _ _ a b => a - b)

/-- VSUB, with an immediate (R359). -/
def execVsubLi (w : LaneWord) (s : State) : Result :=
  elems2i (.vsubLi w) w s (fun _ _ a b => a - b)

/-- VMUL (R359). -/
def execVmul (w : LaneWord) (s : State) : Result :=
  elems2 (.vmul w) w s (fun _ _ a b => a * b)

/-- VMUL, with an immediate (R359). -/
def execVmulLi (w : LaneWord) (s : State) : Result :=
  elems2i (.vmulLi w) w s (fun _ _ a b => a * b)

/-- VMULH (R359). -/
def execVmulh (w : LaneWord) (s : State) : Result :=
  elems2 (.vmulh w) w s (fun _ _ a b => highOf w.typ a b)

/-- VMULH, with an immediate (R359). -/
def execVmulhLi (w : LaneWord) (s : State) : Result :=
  elems2i (.vmulhLi w) w s (fun _ _ a b => highOf w.typ a b)

/-- VMAD (R359). -/
def execVmad (w : LaneWord) (s : State) : Result :=
  elems3 (.vmad w) w s (fun _ _ a b d => a * b + d)

/-- VMAD, with an immediate (R359). -/
def execVmadLi (w : LaneWord) (s : State) : Result :=
  elems3i (.vmadLi w) w s (fun _ _ a b d => a * b + d)

/-- VMIN (R359). -/
def execVmin (w : LaneWord) (s : State) : Result :=
  elems2 (.vmin w) w s (fun _ _ a b => minOf w.typ a b)

/-- VMIN, with an immediate (R359). -/
def execVminLi (w : LaneWord) (s : State) : Result :=
  elems2i (.vminLi w) w s (fun _ _ a b => minOf w.typ a b)

/-- VMAX (R359). -/
def execVmax (w : LaneWord) (s : State) : Result :=
  elems2 (.vmax w) w s (fun _ _ a b => maxOf w.typ a b)

/-- VMAX, with an immediate (R359). -/
def execVmaxLi (w : LaneWord) (s : State) : Result :=
  elems2i (.vmaxLi w) w s (fun _ _ a b => maxOf w.typ a b)

/-- VABS (R359). -/
def execVabs (w : LaneWord) (s : State) : Result :=
  elems1 (.vabs w) w s (fun _ _ a => absOf a)

/-- VAND (R359). -/
def execVand (w : LaneWord) (s : State) : Result :=
  elems2 (.vand w) w s (fun _ _ a b => a &&& b)

/-- VAND, with an immediate (R359). -/
def execVandLi (w : LaneWord) (s : State) : Result :=
  elems2i (.vandLi w) w s (fun _ _ a b => a &&& b)

/-- VOR (R359). -/
def execVor (w : LaneWord) (s : State) : Result :=
  elems2 (.vor w) w s (fun _ _ a b => a ||| b)

/-- VOR, with an immediate (R359). -/
def execVorLi (w : LaneWord) (s : State) : Result :=
  elems2i (.vorLi w) w s (fun _ _ a b => a ||| b)

/-- VXOR (R359). -/
def execVxor (w : LaneWord) (s : State) : Result :=
  elems2 (.vxor w) w s (fun _ _ a b => a ^^^ b)

/-- VXOR, with an immediate (R359). -/
def execVxorLi (w : LaneWord) (s : State) : Result :=
  elems2i (.vxorLi w) w s (fun _ _ a b => a ^^^ b)

/-- VSHL: the amount is taken modulo the width (R359). -/
def execVshl (w : LaneWord) (s : State) : Result :=
  elems2 (.vshl w) w s (fun _ n a b => a <<< (b.toNat % n))

/-- VSHL: the amount is taken modulo the width, with an immediate (R359). -/
def execVshlLi (w : LaneWord) (s : State) : Result :=
  elems2i (.vshlLi w) w s (fun _ n a b => a <<< (b.toNat % n))

/-- VSHR: zeros are shifted in (R359). -/
def execVshr (w : LaneWord) (s : State) : Result :=
  elems2 (.vshr w) w s (fun _ n a b => a >>> (b.toNat % n))

/-- VSHR: zeros are shifted in, with an immediate (R359). -/
def execVshrLi (w : LaneWord) (s : State) : Result :=
  elems2i (.vshrLi w) w s (fun _ n a b => a >>> (b.toNat % n))

/-- VSAR: copies of the sign bit are shifted in, for either signedness (R359). -/
def execVsar (w : LaneWord) (s : State) : Result :=
  elems2 (.vsar w) w s (fun _ n a b => a.sshiftRight (b.toNat % n))

/-- VSAR: copies of the sign bit are shifted in, for either signedness, with an immediate (R359). -/
def execVsarLi (w : LaneWord) (s : State) : Result :=
  elems2i (.vsarLi w) w s (fun _ n a b => a.sshiftRight (b.toNat % n))

/-- VBFX (R360). -/
def execVbfx (w : LaneWord) (s : State) : Result :=
  vecOp (.vbfx w) w s (fun c l => (vbfx ((c.opnd w.sa w.typ l).setWidth 32) ((c.opnd w.sb w.typ l).setWidth 32) ((c.opnd w.sc w.typ l).setWidth 32)).setWidth 64)

/-- VBFX, with an immediate (R360). -/
def execVbfxLi (w : LaneWord) (s : State) : Result :=
  vecOp (.vbfxLi w) w s (fun c l => (vbfx ((c.opnd w.sa w.typ l).setWidth 32) ((c.opnd w.sb w.typ l).setWidth 32) w.imm).setWidth 64)

/-- VBFI (R360). -/
def execVbfi (w : LaneWord) (s : State) : Result :=
  vecOp (.vbfi w) w s (fun c l => (vbfi ((c.opnd w.sa w.typ l).setWidth 32) ((c.opnd w.sb w.typ l).setWidth 32) ((c.opnd w.sc w.typ l).setWidth 32)).setWidth 64)

/-- VBFI, with an immediate (R360). -/
def execVbfiLi (w : LaneWord) (s : State) : Result :=
  vecOp (.vbfiLi w) w s (fun c l => (vbfi ((c.opnd w.sa w.typ l).setWidth 32) ((c.opnd w.sb w.typ l).setWidth 32) w.imm).setWidth 64)

/-- VPOPC (R359). -/
def execVpopc (w : LaneWord) (s : State) : Result :=
  elems1 (.vpopc w) w s (fun _ n a => BitVec.ofNat n (popCount a))

/-- VCLZ (R359). -/
def execVclz (w : LaneWord) (s : State) : Result :=
  elems1 (.vclz w) w s (fun _ n a => BitVec.ofNat n (leadingZeros a))

/-- VCMP (R361). -/
def execVcmp (w : LaneWord) (s : State) : Result :=
  predOp (.vcmp w) w s (fun c l => icond w.mod (lowInt w.typ (c.opnd w.sa w.typ l)) (lowInt w.typ (c.opnd w.sb w.typ l)))

/-- VCMP, with an immediate (R361). -/
def execVcmpLi (w : LaneWord) (s : State) : Result :=
  predOp (.vcmpLi w) w s (fun c l => icond w.mod (lowInt w.typ (c.opnd w.sa w.typ l)) (lowInt w.typ (immVal w.typ w)))

/-- VSADD (R359). -/
def execVsadd (w : LaneWord) (s : State) : Result :=
  elems2 (.vsadd w) w s (fun _ n a b => satOf w.typ n (exactOf w.typ a + exactOf w.typ b))

/-- VSADD, with an immediate (R359). -/
def execVsaddLi (w : LaneWord) (s : State) : Result :=
  elems2i (.vsaddLi w) w s (fun _ n a b => satOf w.typ n (exactOf w.typ a + exactOf w.typ b))

/-- VSSUB (R359). -/
def execVssub (w : LaneWord) (s : State) : Result :=
  elems2 (.vssub w) w s (fun _ n a b => satOf w.typ n (exactOf w.typ a - exactOf w.typ b))

/-- VSSUB, with an immediate (R359). -/
def execVssubLi (w : LaneWord) (s : State) : Result :=
  elems2i (.vssubLi w) w s (fun _ n a b => satOf w.typ n (exactOf w.typ a - exactOf w.typ b))

/-- VSEL: a where the guard holds, b elsewhere (R362). -/
def execVsel (w : LaneWord) (s : State) : Result :=
  vecOp (.vsel w) w s (fun c l => if c.guard w l then c.opnd w.sa w.typ l else c.opnd w.sb w.typ l)

/-- VSEL, with an immediate (R362). -/
def execVselLi (w : LaneWord) (s : State) : Result :=
  vecOp (.vselLi w) w s (fun c l => if c.guard w l then c.opnd w.sa w.typ l else immVal w.typ w)

/-- PSET (R363). -/
def execPset (w : LaneWord) (s : State) : Result :=
  predOp (.pset w) w s (fun c l => (c.opnd w.sa w.typ l).setWidth 32 != (0 : Word32))

/-- PAND (R363). -/
def execPand (w : LaneWord) (s : State) : Result :=
  predOp (.pand w) w s (fun c l => c.w.pget w.sa.toNat l && c.w.pget w.sb.toNat l)

/-- POR (R363). -/
def execPor (w : LaneWord) (s : State) : Result :=
  predOp (.por w) w s (fun c l => c.w.pget w.sa.toNat l || c.w.pget w.sb.toNat l)

/-- PXOR (R363). -/
def execPxor (w : LaneWord) (s : State) : Result :=
  predOp (.pxor w) w s (fun c l => c.w.pget w.sa.toNat l != c.w.pget w.sb.toNat l)

/-- PNOT (R363). -/
def execPnot (w : LaneWord) (s : State) : Result :=
  predOp (.pnot w) w s (fun c l => !c.w.pget w.sa.toNat l)

/-- VMASK: half of a predicate within the execution mask (R364). -/
def execVmask (w : LaneWord) (s : State) : Result :=
  scalarOut (.vmask w) w s (fun c => (c.w.pmask w.sa.toNat &&& c.mask).extractLsb' (64 * (w.mod.toNat % 2)) 64)

end Sys2Proof.Machine
end

