-- ==== Sys2Proof/Machine/LaneMove.lean ====
section
/-!
DEFINITION. Conversions, lane movement, reductions and moves of the lane pipelines (R365 to R373).
-/
namespace Sys2Proof.Machine

/-! ### Conversion (R365 to R368) -/

/-- Whether a type is tapered, and its code's width. -/
def isTaper (t : BitVec 5) : Bool := t == 0x0C || t == 0x0D
def taperBits (t : BitVec 5) : Nat := if t == 0x0D then 6 else 8

/-- What VCVT reads: an exact integer, or a value with the code it came from. -/
inductive CvtVal where
  | int (x : Int)
  | val (v : FVal) (code : Nat)
  deriving DecidableEq, Repr

/-- The source element of VCVT; FTZ does not reach a conversion into a tapered type (R232). -/
def cvtRead (t : BitVec 5) (ftz : Bool) (x : Word) : CvtVal :=
  if isTaper t then
    let c := x.toNat % 2 ^ taperBits t
    .val (tfdecode (taperBits t) c) c
  else if isFloatTyp t then
    let b := x.toNat % 2 ^ typWidth t
    .val (fread (fmtOfTyp t) ftz b) b
  else
    let n := typWidth t
    let b := x.toNat % 2 ^ n
    .int (if signedTyp t && decide (2 ^ (n - 1) ≤ b) then Int.ofNat b - 2 ^ n else Int.ofNat b)

/-- An integer element extended to a lane or a pair. -/
def intOut (t : BitVec 5) (x : Int) : Word :=
  if is64 t then BitVec.ofInt 64 x else (BitVec.ofInt 32 x).setWidth 64

/-- The result of VCVT (R365, Table 5 of the number formats). -/
def cvt (dt st : BitVec 5) (rm : RM) (ftz : Bool) (x : Word) : Word :=
  match cvtRead st (ftz && !isTaper dt) x with
  | .int v =>
    if isTaper dt then BitVec.ofNat 64 (tfencode (taperBits dt) (.ofInt v))
    else if isFloatTyp dt then BitVec.ofNat 64 (fround (fmtOfTyp dt) rm ftz (.ofInt v))
    else
      let n := typWidth dt
      intOut dt (if signedTyp dt then (sats n v).toInt else Int.ofNat (satu n v).toNat)
  | .val v code =>
    if isTaper dt then (if dt = st then BitVec.ofNat 64 code else BitVec.ofNat 64 (tfencode (taperBits dt) v))
    else if isFloatTyp dt then BitVec.ofNat 64 (fround (fmtOfTyp dt) rm ftz v)
    else
      let n := typWidth dt
      intOut dt (if signedTyp dt then (v.toSigned n rm).toInt else Int.ofNat (v.toUnsigned n rm).toNat)

/-- VCVT (R365). -/
def execVcvt (w : LaneWord) (s : State) : Result :=
  vecOp (.vcvt w) w s (fun c l =>
    cvt w.typ (w.mod.setWidth 5) (fmtRM c.fmt) (fmtFTZ c.fmt) (c.opnd w.sa (w.mod.setWidth 5) l))

/-- The type as which VPACK reads its sources (Table 7): FP32 for a float result, else the 32 bits of a lane; DEDUCED for a
slot or a constant of an 8-bit type (log 93). -/
def packSrc (t : BitVec 5) : BitVec 5 := if isFloatTyp t then 0x09 else 0x00

/-- The result of VPACK (R366). -/
def packLane (t : BitVec 5) (rm : RM) (ftz : Bool) (a b : Word32) : Word32 :=
  let byte (x : BitVec 16) : BitVec 8 := satOf t 8 (exactOf t x)
  if typWidth t = 8 then
    byte (b.extractLsb' 16 16) ++ byte (b.extractLsb' 0 16) ++ byte (a.extractLsb' 16 16) ++ byte (a.extractLsb' 0 16)
  else
    let half (x : Word32) : BitVec 16 :=
      if isFloatTyp t then BitVec.ofNat 16 (fround (fmtOfTyp t) rm ftz (fread f32 ftz x.toNat))
      else satOf t 16 (exactOf t x)
    half b ++ half a

/-- VPACK (R366). -/
def execVpack (w : LaneWord) (s : State) : Result :=
  vecOp (.vpack w) w s (fun c l =>
    let t := packSrc w.typ
    (packLane w.typ (fmtRM c.fmt) (fmtFTZ c.fmt) ((c.opnd w.sa t l).setWidth 32) ((c.opnd w.sb t l).setWidth 32)).setWidth 64)

/-- The result of VUNPACK (R367). -/
def unpackLane (t : BitVec 5) (part : Nat) (rm : RM) (ftz : Bool) (a : Word32) : Word32 :=
  if typWidth t = 8 then
    let x : BitVec 8 := a.extractLsb' (8 * part) 8
    if signedTyp t then x.signExtend 32 else x.setWidth 32
  else
    let x : BitVec 16 := a.extractLsb' (16 * part) 16
    if isFloatTyp t then BitVec.ofNat 32 (fround f32 rm ftz (fread (fmtOfTyp t) ftz x.toNat))
    else if signedTyp t then x.signExtend 32 else x.setWidth 32

/-- VUNPACK (R367). -/
def execVunpack (w : LaneWord) (s : State) : Result :=
  vecOp (.vunpack w) w s (fun c l =>
    (unpackLane w.typ (w.mod.toNat % 4) (fmtRM c.fmt) (fmtFTZ c.fmt) ((c.opnd w.sa w.typ l).setWidth 32)).setWidth 64)

/-- A value times 2^n (R368). -/
def FVal.scale (n : Int) : FVal → FVal
  | .fin neg m e => .fin neg m (e + n)
  | v => v

/-- VSCALE (R368). -/
def execVscale (w : LaneWord) (s : State) : Result :=
  vecOp (.vscale w) w s (fun c l =>
    mapElems w.typ (fun n a b _ => c.fop1 w.typ (FVal.scale b.toInt) n a) (c.opnd w.sa w.typ l) (c.opnd w.sb w.typ l true) 0)

/-! ### Movement (R369 to R371) -/

/-- Lanes of a segment (R369). -/
def segLanes (w : LaneWord) : Nat := 128 / 2 ^ w.seg.toNat
/-- The first lane of a lane's segment. -/
def segBase (w : LaneWord) (l : Nat) : Nat := l - l % segLanes w
/-- A uniform operand as an unsigned value of its low 32 bits (R369). -/
def LCtx.uni (c : LCtx) (f : BitVec 9) : Nat := (c.opnd f 0x00 0).toNat % 2 ^ 32

/-- A movement instruction: lane `l` takes source lane `src`. -/
def moveOp (i : Instr) (w : LaneWord) (s : State) (src : LCtx → Nat → Nat) : Result :=
  vecOp i w s (fun c l => c.opnd w.sa w.typ (src c l))

/-- VSHUF (Table 8). -/
def execVshuf (w : LaneWord) (s : State) : Result :=
  moveOp (.vshuf w) w s (fun c l => segBase w l + (c.opnd w.sb w.typ l).toNat % 2 ^ 32 % segLanes w)
/-- VBCAST (Table 8). -/
def execVbcast (w : LaneWord) (s : State) : Result :=
  moveOp (.vbcast w) w s (fun c l => segBase w l + c.uni w.sb % segLanes w)
/-- VROT (Table 8). -/
def execVrot (w : LaneWord) (s : State) : Result :=
  moveOp (.vrot w) w s (fun c l => segBase w l + (l - segBase w l + c.uni w.sb) % segLanes w)
/-- VXLANE (Table 8). -/
def execVxlane (w : LaneWord) (s : State) : Result :=
  moveOp (.vxlane w) w s (fun c l => l ^^^ (c.uni w.sb % segLanes w))

/-- VREADLANE: one lane's 32 bits, active or not, for a scalar register (R370). -/
def execVreadlane (w : LaneWord) (s : State) : Result :=
  scalarOut (.vreadlane w) w s (fun c => c.opnd w.sa w.typ (c.uni w.sb % 128))

/-- VWRITELANE: one lane takes a uniform value, if it is active (R370). -/
def execVwritelane (w : LaneWord) (s : State) : Result :=
  laneOp (.vwritelane w) s (fun c => .next (c.complete s
    (c.w.putLanes w.typ w.dst.toNat (c.mask &&& laneBit (c.uni w.sb % 128)) (fun l => c.opnd w.sa w.typ l))))

/-- VIOTA: how many active lanes below hold the predicate (R371). -/
def execViota (w : LaneWord) (s : State) : Result :=
  vecOp (.viota w) w s (fun c l => BitVec.ofNat 64 (lanesBelow (c.w.pmask w.sa.toNat &&& c.mask) l).length)

/-! ### VREDUCE (R372) -/

/-- The combine of VREDUCE. -/
def LCtx.combine (c : LCtx) (w : LaneWord) (r a : Word) : Word :=
  let t := w.typ
  mapElems t (fun n x y _ =>
    match w.mod.toNat with
    | 0 => if t = 0x09 then c.fop2 t (FVal.add (fmtRM c.fmt)) n x y else x + y
    | 1 => if t = 0x09 then c.fop2 t (FVal.minMax false) n x y else minOf t x y
    | 2 => if t = 0x09 then c.fop2 t (FVal.minMax true) n x y else maxOf t x y
    | 3 => x &&& y
    | 4 => x ||| y
    | _ => x ^^^ y) r a 0

/-- The value of a segment from its first lane: its active lanes combined in ascending order. -/
def LCtx.segValue (c : LCtx) (w : LaneWord) (base : Nat) : Word :=
  match (lanesOf c.mask).filter (fun l => segBase w l == base) with
  | [] => 0
  | l :: ls => ls.foldl (fun r k => c.combine w r (c.opnd w.sa w.typ k)) (c.opnd w.sa w.typ l)

/-- The scalar value of a reduction. -/
def reduceScalar (t : BitVec 5) (r : Word) : Word := if t = 0x03 then (r.setWidth 32).signExtend 64 else r

/-- VREDUCE (R372): to the active lanes of each segment, or to a scalar register. With no active lane a scalar
destination is not written. -/
def execVreduce (w : LaneWord) (s : State) : Result :=
  if w.sd then
    laneOp (.vreduce w) s (fun c => .next (c.complete s
      (if c.mask = 0 then c.w else c.w.landReg c.it.frag w.dst (reduceScalar w.typ (c.segValue w 0)))))
  else
    laneOp (.vreduce w) s (fun c =>
      let vals := (List.range (2 ^ w.seg.toNat)).map (fun g => c.segValue w (g * segLanes w))
      .next (c.complete s (c.w.putLanes w.typ w.dst.toNat c.mask (fun l => wordAt vals (l / segLanes w)))))

/-! ### Moves (R373) -/

/-- VMOV (R373). -/
def execVmov (w : LaneWord) (s : State) : Result := vecOp (.vmov w) w s (fun c l => c.opnd w.sa w.typ l)
/-- VMOVI (R373). -/
def execVmovi (w : LaneWord) (s : State) : Result := vecOp (.vmovi w) w s (fun _ _ => immVal w.typ w)

end Sys2Proof.Machine
end

