-- ==== Sys2Proof/Machine/LaneMem.lean ====
section
/-!
DEFINITION. Lane memory instructions (R375 to R389): addresses, the checks of R378, lane faults, and what each form does
with the lanes that pass.
-/
namespace Sys2Proof.Machine

/-! ### Addresses and checks (R375, R377, R378) -/

/-- The lanes that take part: where the guard holds, for a form that takes one (R375). -/
def LCtx.taking (c : LCtx) (w : LaneWord) (guarded : Bool) : Mask :=
  if guarded then c.mask &&& c.w.guardMask w else c.mask

/-- What a form accesses (R377): its element size, the permission it needs, whether any lock stops it, and the windows it
reaches. -/
structure MemForm where
  size   : Nat
  acc    : BitVec 3
  store  : Bool
  glob   : Bool
  remote : Bool
  near   : Bool
  /-- the cause of a lane in the Light List window; none reads it -/
  light  : Option (BitVec 8)
  /-- translated at issue -/
  xlate  : Bool
  deriving DecidableEq, Repr

/-- What a lane's checks come to. -/
inductive LanePlace where
  /-- it fails, with a fault record if translation failed -/
  | bad (cause : BitVec 8) (rcd : Option PageFault)
  /-- its page must be walked -/
  | miss
  /-- scratch, at an address of the cluster's CSP -/
  | near (cl a : Nat)
  | light
  /-- a translated window, with the PA and the key -/
  | far (pa key : Nat)
  /-- a global location that is translated when its entry drains (R388) -/
  | later
  deriving DecidableEq, Repr

/-- The checks of a lane, in the order of R378. -/
def State.lanePlace (s : State) (c : LCtx) (f : MemForm) (va : Nat) : LanePlace :=
  let win := windowOf va
  let inside := inWindow va f.size
  let locked := s.rangeLocked c.w va f.size f.store
  match win with
  | .none => .bad 0x20 (windowFault 0x20 va)
  | .queues | .mgmt =>
    let k := if inside && !c.w.trap.sup then 0x21 else 0x20
    .bad k (windowFault k va)
  | .light =>
    if !inside then .bad 0x20 (windowFault 0x20 va)
    else match f.light with
      | some k => .bad k (windowFault k va)
      | none => .light
  | .scratch =>
    if !inside || !f.near then .bad 0x20 (windowFault 0x20 va)
    else if va % f.size ≠ 0 then .bad 0x31 none
    else match s.ownScratch c.w va f.size with
      | none => .bad 0x30 none
      | some (cl, a) => if locked then .bad 0x43 none else .near cl a
  | _ =>
    if !inside || !(if win = .global then f.glob else f.remote) then .bad 0x20 (windowFault 0x20 va)
    else if va % f.size ≠ 0 then .bad 0x04 none
    else if !f.xlate then (if locked then .bad 0x43 none else .later)
    else match s.translate c.core c.w.ident.job va f.acc c.w.sched.lfails with
      | .miss => .miss
      | .fault k l e => .bad k (some ⟨va, k, l, e⟩)
      | .ok pa leaf => if locked then .bad 0x43 none else .far pa (bits leaf 60 51)

/-- A lane with its address and place. -/
structure LaneAt where
  lane  : Nat
  ea    : Word
  place : LanePlace
  deriving DecidableEq, Repr

/-- A lane fails its checks. -/
def LaneAt.isBad (p : LaneAt) : Bool := match p.place with | .bad _ _ => true | _ => false
/-- A lane goes to a translated window. -/
def LaneAt.isFar (p : LaneAt) : Bool := match p.place with | .far _ _ => true | _ => false
/-- The fault record that a failing lane asks for. -/
def LaneAt.rcd? (p : LaneAt) : Option PageFault := match p.place with | .bad _ r => r | _ => none

/-- Lanes with their places, in ascending order. -/
def LCtx.places (c : LCtx) (s : State) (w : LaneWord) (f : MemForm) (m : Mask) : List LaneAt :=
  (lanesOf m).map (fun l => let ea := c.laneEa w l; ⟨l, ea, s.lanePlace c f ea.toNat⟩)

/-- Queue the misses of lanes: the instruction is translated as a whole (R20, R21). -/
def State.laneMisses (s : State) (c : LCtx) (f : MemForm) (ps : List LaneAt) : State :=
  ps.foldl (fun s p => if p.place = .miss then s.addMiss c.core c.slot c.w.ident.job p.ea.toNat f.acc c.w.ident.uid true else s) s

/-! ### The order of lanes (R135) -/

/-- Put lanes in an order that no rule fixes: free values give it. -/
def State.freeOrder (s : State) (ps : List LaneAt) : List LaneAt × State :=
  let keyed := ps.map (fun p => ((Config.freeValue (s.free + p.lane)).toNat, p))
  ((sortBy (fun a b => decide (a.1 ≤ b.1)) keyed).map (fun p => p.2), { s with free := s.free + 128 })

/-- Whether two accesses of a list share a byte. -/
def overlap (size : Nat) : List Nat → Bool
  | [] => false
  | a :: l => l.any (fun b => decide (a < b + size) && decide (b < a + size)) || overlap size l

/-- Lanes in the order in which they are performed: it matters only where two name one byte, and is then free. -/
def State.laneOrder (s : State) (size : Nat) (ps : List LaneAt) : List LaneAt × State :=
  if overlap size (ps.map (fun p => p.ea.toNat)) then s.freeOrder ps else (ps, s)

/-! ### Running a form (R378, R379) -/

/-- The wave as the state now holds it. -/
def LCtx.again (c : LCtx) (s : State) : LCtx :=
  match s.wave? c.core c.slot with | some w => { c with w := w } | none => c

/-- Put the wave back with another value. -/
def LCtx.put (c : LCtx) (s : State) (w : Wave) : State := s.setWave c.core c.slot w

/-- How performing the lanes that pass ends. -/
inductive Perf where
  /-- performed, the wave's queue as it was -/
  | done (s : State)
  | wait (s : State)
  /-- a trap of its own with nothing performed -/
  | trap (t : Trap) (s : State)
  deriving DecidableEq, Repr

/-- The trap of the failing lanes (R31, R378), with their fault records written. -/
def State.laneFault (s : State) (c : LCtx) (f : MemForm) (bad : List LaneAt) (m : Mask) : Trap × State :=
  let fs := distinctFaults (bad.filterMap LaneAt.rcd?)
  let r : RecordOf := { die := dieOf c.core, core := c.core, slot := c.slot, job := c.w.ident.job, agent := 0, acc := f.acc.setWidth 2 }
  let (seq, s) := if fs.isEmpty then (0, s) else s.record r fs
  let cause : BitVec 8 := (match bad with | p :: _ => (match p.place with | .bad k _ => k | _ => 0) | [] => 0)
  let ea : Word := (match bad with | p :: _ => p.ea | [] => 0)
  ({ cause := cause, tval := ea, lane := true, mask := m, h2 := seq.setWidth 64 }, s)

/-- Whether lanes that pass their checks wait: a full miss queue of the cluster stalls the core's translated accesses (R20),
and the update of D that a first write needs waits for its port (R18). -/
def State.lanesWait (s : State) (c : LCtx) (f : MemForm) (ps : List LaneAt) : Bool :=
  let far := ps.filter (·.isFar)
  ((s.core c.core).noMiss && (!far.isEmpty || ps.any (fun p => p.place == .miss))) ||
    ((f.acc == 1 || f.acc == 2) && far.any (fun p => !s.dirtyClear c.core c.w.ident.job p.ea.toNat))

/-- Run a lane memory form on context `c`: misses first, then the lanes that pass are performed, then the failing lanes
trap; with `whole`, one failing lane stops all (R378). -/
def LCtx.memory (c : LCtx) (s : State) (w : LaneWord) (guarded : Bool) (f : MemForm) (whole : Bool)
    (perform : LCtx → State → List LaneAt → Perf) : Result :=
  let m := c.taking w guarded
  let ps := c.places s w f m
  let bad := ps.filter LaneAt.isBad
  let n := (distinctFaults (bad.filterMap LaneAt.rcd?)).length
  if c.w.fenced || s.lanesWait c f ps then .next s
  else if ps.any (fun p => p.place == .miss) then .next (s.laneMisses c f ps)
  else if !bad.isEmpty && (c.w.laneTrapWaits || !s.canRecord (dieOf c.core) c.w.ident.job n) then .next s
  else
    match (if whole && !bad.isEmpty then .done s else perform c s (ps.filter (fun p => !p.isBad))) with
    | .wait s => .next s
    | .trap t s => laneTrapOr s (c.again s) t
    | .done s =>
      if bad.isEmpty then .next (c.complete s (c.again s).w)
      else
        let (t, s) := s.laneFault c f bad (if whole then m else maskOf (bad.map (·.lane)))
        .next (s.laneTrapAt (c.again s) t)

/-- A lane memory instruction. -/
def memOp (i : Instr) (s : State) (w : LaneWord) (guarded : Bool) (f : MemForm) (whole : Bool)
    (perform : LCtx → State → List LaneAt → Perf) : Result :=
  laneOp i s (fun c => c.memory s w guarded f whole perform)

/-- The size of a word's element. -/
def elemSize (t : BitVec 5) : Nat := typWidth t / 8

/-- The scope is gang or wider. -/
def wideScope (w : LaneWord) : Bool := decide (1 ≤ w.scp)
/-- .acq or .ar, and .rel or .ar. -/
def laneAcq (w : LaneWord) : Bool := w.ord == 1 || w.ord == 3
def laneRel (w : LaneWord) : Bool := w.ord == 2 || w.ord == 3

/-- A release waits until every earlier access has been performed (R380); earlier lane instructions have begun. -/
def Wave.releaseWaits (w : Wave) (f : LaneWord) : Bool := laneRel f && wideScope f && !w.work.outs.isEmpty

/-- The access of a lane instruction, as the wave tracks it: none if no lane left for memory (R379). -/
def LCtx.track (c : LCtx) (w : LaneWord) (id : Nat) (store : Bool) (left : Nat) (ext : Bool) : Wave :=
  if left = 0 then c.w
  else
    let d : Dest := if store then .none else .vector w.dst.toNat
    let n := if store then 0 else if is64 w.typ then 2 else 1
    c.w.addOut ⟨id, store, d, n, left, ext, false, 0, c.it.lpc, laneAcq w, c.it.frag, laneAcq w && wideScope w, false,
      some c.it.seq, c.it.heirs⟩

/-- Write values that lanes have at once to the destination. -/
def LCtx.give (c : LCtx) (s : State) (w : LaneWord) (vals : List (Elem × Word)) : State :=
  if vals.isEmpty then s else c.put s ((c.again s).w.landElems (.vector w.dst.toNat) w.typ vals)

/-- An element of a lane. -/
def LaneAt.elem (p : LaneAt) (size : Nat) (data cmp : Word) : Elem :=
  ⟨p.lane, p.ea.toNat, (match p.place with | .far pa _ => pa | _ => 0), size, data, cmp⟩

/-- The far lanes of a list with their keys. -/
def farOf (ps : List LaneAt) : List (LaneAt × Nat) :=
  ps.filterMap (fun p => match p.place with | .far _ k => some (p, k) | _ => none)

/-- The keys that lanes use, each once. -/
def keysOf (fs : List (LaneAt × Nat)) : List Nat := (fs.map (fun p => p.2)).eraseDups

/-- The lane is in the global window. -/
def LaneAt.isGlobal (p : LaneAt) : Bool := windowOf p.ea.toNat == .global

/-! ### Loads (R381, R384, R389) -/

/-- What the lanes of a load that reach scratch or the Light List read at once, all lines in one step (log 89). -/
def State.nowReads (s : State) (size : Nat) (ps : List LaneAt) : List (Elem × Word) :=
  ps.filterMap (fun p => match p.place with
    | .near cl a => some (p.elem size 0 0, BitVec.ofNat 64 (natOfBytes (s.cspRead cl a size)))
    | .light => some (p.elem size 0 0, BitVec.ofNat 64 (natOfBytes (s.lightBytes (p.ea.toNat % 2 ^ 52) size)))
    | _ => none)

/-- The convoy tag of a word with CV = 1 (R61). -/
def LCtx.tag (c : LCtx) (w : LaneWord) : Option Nat := if w.cv then c.it.cv else none

/-- The far lanes of VLD in the global window: values that hits of the L1 give, and the lines that misses ask for. -/
def State.l1Lanes (s : State) (c : LCtx) (size : Nat) (fs : List (LaneAt × Nat)) :
    List (Elem × Word) × List (Nat × Nat × List Elem) :=
  let look (p : LaneAt × Nat) : Option (Elem × Word) :=
    let e := p.1.elem size 0 0
    match s.l1Find c.core (e.pa / 128) (BitVec.ofNat 10 p.2) c.w.ident.job with
    | some l => some (e, BitVec.ofNat 64 (natOfBytes (lineBytes l.data (e.pa % 128) size)))
    | none => none
  let missed := fs.filter (fun p => (look p).isNone)
  (fs.filterMap look,
    ((keysOf missed).map (fun k =>
      (byLine ((missed.filter (fun p => p.2 == k)).map (fun p => p.1.elem size 0 0))).map (fun g => (k, g)))).flatten)

/-- Ask for lines, one request each. -/
def State.askLines (s : State) (c : LCtx) (u : User) (ls : List (Nat × Nat × List Elem)) : State :=
  ls.foldl (fun s g =>
    let va := (match g.2.2 with | e :: _ => e.va | [] => 0)
    s.askLine c.core c.slot c.w.ident.job g.1 g.2.1 va { u with elems := g.2.2 }) s

/-- Ask the peer or the host for each lane. -/
def State.askRemotes (s : State) (c : LCtx) (u : User) (op : PacketOp) (acc : BitVec 2) (aop : Nat)
    (es : List (Elem × Nat)) : State :=
  es.foldl (fun s e => s.askRemote c.core c.slot c.w.ident.job e.2 aop op acc u e.1) s

/-- VLD and VLDS: perform the lanes (R52, R377, R379, R381). A lane in the Light List window counts in LD like any other,
and returns its count at once. -/
def LCtx.loadLanes (w : LaneWord) (c : LCtx) (s : State) (ps : List LaneAt) : Perf :=
  let size := elemSize w.typ
  let fs := farOf ps
  if ps.any (fun p => p.isFar || p.place == .light) && decide (63 ≤ c.w.ldCount) then .wait s
  else
    let s := s.acquireL1 c.core (laneAcq w) (wideScope w)
    let now := s.nowReads size ps
    let (hits, lines) := s.l1Lanes c size (fs.filter (fun p => p.1.isGlobal))
    let far := (fs.filter (fun p => !p.1.isGlobal)).map (fun p => (p.1.elem size 0 0, p.2))
    let s := c.give s w (now ++ hits)
    let c := c.again s
    let (id, s) := s.newId
    let s := c.put s (c.track w id false (lines.length + far.length) (!far.isEmpty))
    let u : User := ⟨c.w.ident.uid, id, [], .vector w.dst.toNat, w.typ, c.tag w, c.slot⟩
    .done ((s.askLines c u lines).askRemotes c u .rd 0 0 far)

/-- VLD (R381). -/
def execVld (w : LaneWord) (s : State) : Result :=
  memOp (.vld w) s w false ⟨elemSize w.typ, 0, false, true, true, true, none, true⟩ false (LCtx.loadLanes w)

/-- VLDS (R377). -/
def execVlds (w : LaneWord) (s : State) : Result :=
  memOp (.vlds w) s w false ⟨elemSize w.typ, 0, false, false, false, true, some 0x20, true⟩ false (LCtx.loadLanes w)

/-- VACCRD: perform the lanes (R389). -/
def LCtx.accLanes (w : LaneWord) (c : LCtx) (s : State) (ps : List LaneAt) : Perf :=
  let exp : Int := ((c.intOpnd w.sc 0).extractLsb' 0 16).toInt
  let vals := ps.filterMap (fun p => match p.place with
    | .near cl a =>
      let x : Int := (BitVec.ofNat 128 (natOfBytes (s.cspRead cl a 16))).toInt
      some (p.elem 4 0 0, (fx2f32 x exp).setWidth 64)
    | _ => none)
  .done (c.give s w vals)

/-- VACCRD (R389). -/
def execVaccrd (w : LaneWord) (s : State) : Result :=
  memOp (.vaccrd w) s w false ⟨16, 0, false, false, false, true, some 0x20, true⟩ false (LCtx.accLanes w)

/-- The line of a lane of VPREF, for its checks. -/
def LaneAt.lineStart (p : LaneAt) : Nat := p.ea.toNat / 128 * 128

/-- VPREF: lanes in the global window whose page translates and which meet no lock ask for their lines (R384). It raises
no fault. -/
def execVpref (w : LaneWord) (s : State) : Result :=
  laneOp (.vpref w) s (fun c =>
    let f : MemForm := ⟨128, 4, false, true, false, false, some 0x20, true⟩
    let ps := (lanesOf c.mask).map (fun l =>
      let p : LaneAt := ⟨l, c.laneEa w l, .later⟩
      { p with place := if windowOf p.ea.toNat = .global then s.lanePlace c f p.lineStart else .later })
    if s.lanesWait c f ps then .next s
    else if ps.any (fun p => p.place == .miss) then
      .next (s.laneMisses c f ps)
    else
      let fs := farOf ps
      let ls := ((keysOf fs).map (fun k =>
        (((fs.filter (fun p => p.2 == k)).map (fun p => (p.1.elem 0 0 0).pa / 128)).eraseDups.map (fun n => (k, n))))).flatten
      let u : User := ⟨c.w.ident.uid, 0, [], .none, w.typ, c.tag w, c.slot⟩
      .next (c.complete (ls.foldl (fun s g =>
        if (s.l1Find c.core g.2 (BitVec.ofNat 10 g.1) c.w.ident.job).isSome then s
        else s.askLine c.core c.slot c.w.ident.job g.1 g.2
          (((fs.find? (fun p => (p.1.elem 0 0 0).pa / 128 == g.2)).map (fun p => p.1.lineStart)).getD 0) u) s) c.w))

/-! ### Stores (R377, R381) -/

/-- The element that a lane stores. -/
def LCtx.storeElem (c : LCtx) (w : LaneWord) (p : LaneAt) : Elem := p.elem (elemSize w.typ) (c.opnd w.sc w.typ p.lane) 0

/-- Write lanes at their scratch lines. DESIGN CHOICE (log 89): R74 orders nothing between the lines of one access, and the
model performs them in one step. -/
def State.nearStores (s : State) (c : LCtx) (w : LaneWord) (ps : List LaneAt) : State :=
  ps.foldl (fun s p => match p.place with
    | .near cl a => s.cspWrite cl a (bytesOfNat (elemSize w.typ) (c.opnd w.sc w.typ p.lane).toNat)
    | _ => s) s

/-- The first writes through translations set D (R18). -/
def State.dirtyLanes (s : State) (c : LCtx) (fs : List (LaneAt × Nat)) : State :=
  fs.foldl (fun s p => s.markDirty c.core c.w.ident.job p.1.ea.toNat) s

/-- VST and VSTS: perform the lanes (R53, R377, R381). -/
def LCtx.storeLanes (w : LaneWord) (c : LCtx) (s : State) (ps : List LaneAt) : Perf :=
  let fs := farOf ps
  if c.w.releaseWaits w || (!fs.isEmpty && decide (63 ≤ c.w.stCount)) then .wait s
  else
    let (ps, s) := s.laneOrder (elemSize w.typ) ps
    let s := s.nearStores c w ps
    let fs := farOf ps
    let s := s.dirtyLanes c fs
    let glob := fs.filter (fun p => p.1.isGlobal)
    let atoms := ((keysOf glob).map (fun k =>
      (byAtom ((glob.filter (fun p => p.2 == k)).map (fun p => c.storeElem w p.1))).map (fun g => (k, g)))).flatten
    let far := (fs.filter (fun p => !p.1.isGlobal)).map (fun p => (c.storeElem w p.1, p.2))
    let (id, s) := s.newId
    let s := c.put s ((c.again s).track w id true (atoms.length + far.length) (!far.isEmpty))
    let u : User := ⟨c.w.ident.uid, id, [], .none, w.typ, none, c.slot⟩
    let s := atoms.foldl (fun s g => s.askStore c.core c.slot c.w.ident.job g.1 { u with elems := g.2.2 } g.2.1 g.2.2) s
    .done (s.askRemotes c u .wr 1 0 far)

/-- VST (R381). -/
def execVst (w : LaneWord) (s : State) : Result :=
  memOp (.vst w) s w true ⟨elemSize w.typ, 1, true, true, true, true, some 0x21, true⟩ false (LCtx.storeLanes w)

/-- VSTS (R377). -/
def execVsts (w : LaneWord) (s : State) : Result :=
  memOp (.vsts w) s w true ⟨elemSize w.typ, 1, true, false, false, true, some 0x21, true⟩ false (LCtx.storeLanes w)

/-! ### Gathers and scatters (R38, R382) -/

/-- The elements of one stack and key in packets: each takes the elements within 32 MiB above the atom of the lowest one
left, in ascending lane order; the packet's base comes with them. -/
def packets : Nat → List Elem → List (Nat × List Elem)
  | 0, _ => []
  | fuel + 1, es =>
    match es with
    | [] => []
    | e :: _ =>
      let low := es.foldl (fun a x => min a x.pa) e.pa
      let base := low / 64 * 64
      let mine (x : Elem) : Bool := decide (x.pa + x.size ≤ base + 33554432)
      (base, es.filter mine) :: packets fuel (es.filter (fun x => !mine x))

/-- The packets of far lanes with their keys. -/
def packetsOf (fs : List (Elem × Nat)) : List (Nat × Nat × List Elem) :=
  let groups := (fs.map (fun p => (stackOf p.1.pa, p.2))).eraseDups
  (groups.map (fun g =>
    (packets 128 ((fs.filter (fun p => stackOf p.1.pa == g.1 && p.2 == g.2)).map (fun p => p.1))).map
      (fun q => (g.2, q)))).flatten

/-- Send packets, each once the earlier stores and atomics to its atoms have replied (R382). -/
def State.sendPackets (s : State) (c : LCtx) (op : PacketOp) (acc : BitVec 2) (u : User)
    (qs : List (Nat × Nat × List Elem)) : State :=
  qs.foldl (fun s q =>
    let (n, s) := s.newId
    let va := (match q.2.2 with | e :: _ => e.va | [] => 0)
    let t := mkTxn c.core c.slot c.w.ident.job op q.2.1 va q.1 { u with elems := q.2.2 }
    s.sendOrHold n { t with elems := q.2.2, cnt := q.2.2.length, esz := elemSize u.typ, acc := acc }) s

/-- VLDX: perform the lanes. -/
def LCtx.gatherLanes (w : LaneWord) (c : LCtx) (s : State) (ps : List LaneAt) : Perf :=
  let fs := (farOf ps).map (fun p => (p.1.elem (elemSize w.typ) 0 0, p.2))
  if !fs.isEmpty && decide (63 ≤ c.w.ldCount) then .wait s
  else
    let s := s.acquireL1 c.core (laneAcq w) (wideScope w)
    let qs := packetsOf fs
    let (id, s) := s.newId
    let s := c.put s (c.track w id false qs.length false)
    .done (s.sendPackets c .grd 0 ⟨c.w.ident.uid, id, [], .vector w.dst.toNat, w.typ, none, c.slot⟩ qs)

/-- VLDX (R382). -/
def execVldx (w : LaneWord) (s : State) : Result :=
  memOp (.vldx w) s w false ⟨elemSize w.typ, 0, false, true, false, false, some 0x20, true⟩ false (LCtx.gatherLanes w)

/-- VSTX: perform the lanes: their lines leave the L1 (R53). -/
def LCtx.scatterLanes (w : LaneWord) (c : LCtx) (s : State) (ps : List LaneAt) : Perf :=
  let fs := farOf ps
  if c.w.releaseWaits w || (!fs.isEmpty && decide (63 ≤ c.w.stCount)) then .wait s
  else
    let s := s.dirtyLanes c fs
    let es := fs.map (fun p => (c.storeElem w p.1, p.2))
    let s := es.foldl (fun s e => (s.l1Drop c.core e.1.pa).noFill c.core (e.1.pa / 128)) s
    let qs := packetsOf es
    let (id, s) := s.newId
    let s := c.put s ((c.again s).track w id true qs.length false)
    .done (s.sendPackets c .gwr 1 ⟨c.w.ident.uid, id, [], .none, w.typ, none, c.slot⟩ qs)

/-- VSTX (R382). -/
def execVstx (w : LaneWord) (s : State) : Result :=
  memOp (.vstx w) s w true ⟨elemSize w.typ, 1, true, true, false, false, some 0x21, true⟩ false (LCtx.scatterLanes w)

/-! ### Hand-off lines (R78, R79, R383) -/

/-- The lines that lanes name, each once. -/
def handLines (ps : List LaneAt) : List Nat :=
  (ps.filterMap (fun p => match p.place with | .near _ a => some (a / 128) | _ => none)).eraseDups

/-- VLDC and VSTP: wait until every line is in the state they wait for, then read or write the lanes and change the
lines' states. Each is a release and an acquire at its scope (R142, R383). -/
def LCtx.handLanes (w : LaneWord) (consume : Bool) (c : LCtx) (s : State) (ps : List LaneAt) : Perf :=
  let cl := clusterOf c.core
  let lines := handLines ps
  let x : LineWait := ⟨0, c.w.ident.uid, c.it.seq, lines, consume⟩
  if lines.isEmpty then .done s
  else if wideScope w && !c.w.work.outs.isEmpty then .wait s
  else if !x.ready (s.cluster cl) || !(s.cluster cl).goesFirst x then .wait (s.joinLines cl x)
  else
    let s := (s.leaveLines cl x).acquireL1 c.core true (wideScope w)
    if consume then
      let s := c.give s w (s.nowReads (elemSize w.typ) ps)
      .done (lines.foldl (fun s l => s.setLine cl l false) s)
    else
      let (ps, s) := s.laneOrder (elemSize w.typ) ps
      let s := s.nearStores c w ps
      .done (lines.foldl (fun s l => s.setLine cl l true) s)

/-- What VLDC does with the head of a lane queue. -/
def LCtx.vldc (c : LCtx) (s : State) (w : LaneWord) : Result :=
  c.memory s w false ⟨elemSize w.typ, 0, false, false, false, true, some 0x20, true⟩ true (LCtx.handLanes w true)
/-- What VSTP does. -/
def LCtx.vstp (c : LCtx) (s : State) (w : LaneWord) : Result :=
  c.memory s w true ⟨elemSize w.typ, 1, true, false, false, true, some 0x21, true⟩ true (LCtx.handLanes w false)

/-- VLDC (R383). -/
def execVldc (w : LaneWord) (s : State) : Result := laneOp (.vldc w) s (fun c => c.vldc s w)
/-- VSTP (R383). -/
def execVstp (w : LaneWord) (s : State) : Result := laneOp (.vstp w) s (fun c => c.vstp s w)

/-- LINE_STATE_TAKE: a waiting VLDC or VSTP takes its lines once every one is in the state it waits for (R78), unless a halt
or a pending trap has ended its wait (R79). -/
def execLineStateTake (core slot : Nat) (s : State) : Result :=
  match s.wave? core slot with
  | none => .next s
  | some wv =>
    match wv.lane.queue with
    | [] => .next s
    | it :: _ =>
      let c : LCtx := ⟨core, slot, wv, it⟩
      let waiting := (s.cluster (clusterOf core)).linew.find? (fun x => x.kind == 0 && x.id == wv.ident.uid && x.seq == it.seq)
      match waiting with
      | none => .next s
      | some x =>
        if s.stopped || wv.sched.halted || wv.dueAsync.isSome || !x.ready (s.cluster (clusterOf core)) then .next s
        else
          match decodeLane it.word with
          | .ok (.vldc w) => c.vldc s w
          | .ok (.vstp w) => c.vstp s w
          | _ => .next s

/-! ### Atomics (R385, R386) -/

/-- Perform lanes of a VATOM at their scratch lines, in one step (log 89): the old values. -/
def State.nearAtoms (s : State) (c : LCtx) (w : LaneWord) (aop : Nat) : List LaneAt → List (Elem × Word) × State
  | [] => ([], s)
  | p :: ps =>
    match p.place with
    | .near cl a =>
      let n := elemSize w.typ
      let k := c.opnd (w.dst.setWidth 9) w.typ p.lane
      let old := BitVec.ofNat 64 (natOfBytes (s.cspRead cl a n))
      let s := if aopWrites aop w.typ old k then
          s.cspWrite cl a (bytesOfNat n (aopNew aop w.typ old (c.opnd w.sc w.typ p.lane) k).toNat) else s
      let (vs, s) := State.nearAtoms s c w aop ps
      ((p.elem n 0 0, old) :: vs, s)
    | _ => State.nearAtoms s c w aop ps

/-- VATOM: perform the lanes. -/
def LCtx.atomLanes (w : LaneWord) (c : LCtx) (s : State) (ps : List LaneAt) : Perf :=
  let aop := w.mod.toNat
  let n := elemSize w.typ
  if c.w.releaseWaits w || (!(farOf ps).isEmpty && decide (63 ≤ c.w.ldCount)) then .wait s
  else
    let s := s.acquireL1 c.core (laneAcq w) (wideScope w)
    let (ps, s) := s.laneOrder n ps
    let fs := farOf ps
    let s := s.dirtyLanes c fs
    let (now, s) := s.nearAtoms c w aop ps
    let elemOf (p : LaneAt) : Elem :=
      p.elem n (c.opnd w.sc w.typ p.lane) (if aop = 8 then c.opnd (w.dst.setWidth 9) w.typ p.lane else 0)
    let es := fs.map (fun p => (p.1.isGlobal, elemOf p.1, p.2))
    let s := c.give s w now
    let c := c.again s
    let (id, s) := s.newId
    let s := c.put s (c.track w id false es.length (es.any (fun e => !e.1)))
    let u : User := ⟨c.w.ident.uid, id, [], .vector w.dst.toNat, w.typ, none, c.slot⟩
    .done (es.foldl (fun s e =>
      if e.1 then s.askAtomic c.core c.slot c.w.ident.job e.2.2 aop u e.2.1
      else s.askRemote c.core c.slot c.w.ident.job e.2.2 aop .atm 2 u e.2.1) s)

/-- VATOM (R386). -/
def execVatom (w : LaneWord) (s : State) : Result :=
  memOp (.vatom w) s w true ⟨elemSize w.typ, 2, true, true, true, true, some 0x21, true⟩ false (LCtx.atomLanes w)

/-! ### Reductions (R238, R387, R388) -/

/-- The contributions of lanes, one for each location in the order of its first lane. -/
def LCtx.contributions (c : LCtx) (w : LaneWord) (ps : List LaneAt) : List (Word × Word) :=
  let op := (w.mod.extractLsb' 0 4).toNat
  (ps.map (·.ea)).eraseDups.map (fun ea =>
    let vs := (ps.filter (fun p => p.ea == ea)).map (fun p => c.opnd w.sc w.typ p.lane)
    (ea, match vs with | v :: r => r.foldl (fun a x => aopNew op w.typ a x 0) v | [] => 0))

/-- An entry takes contributions of the same location, operation and type. -/
def RedEntry.takes (e : RedEntry) (w : LaneWord) (ea : Word) : Bool := e.va == ea && e.aop == w.mod && e.typ == w.typ

/-- Add a contribution to a wave's buffer (R387). -/
def Wave.contribute (w : Wave) (f : LaneWord) (ea v : Word) : Wave :=
  let red := w.work.red
  let next := red.foldl (fun a e => max a (e.order + 1)) 0
  let new := if red.any (fun e => e.takes f ea) then
      red.map (fun e => if e.takes f ea then { e with value := aopNew e.op e.typ e.value v 0 } else e)
    else red ++ [⟨ea, v, 0x241, f.typ, f.mod, next⟩]
  { w with work := { w.work with red := new } }

/-- Entries in use in a quarter of a core. -/
def State.quarterRed (s : State) (core slot : Nat) : Nat :=
  (s.waves.filter (fun e => e.1 / Config.slots == core && e.1 % Config.slots / 24 == slot / 24)).foldl
    (fun a e => a + e.2.work.red.length) 0

/-- A VRED drains the entries that its wave holds before it adds its own, until all have been performed (R238). -/
def Wave.redAt (w : Wave) (n : Option Nat) : Wave := { w with sched := { w.sched with redFor := n } }

/-- VRED: perform the lanes: if there is no room, every entry that the wave holds drains first (R238). A retry after a fault of
the drain goes on with it (R388). -/
def LCtx.redLanes (w : LaneWord) (c : LCtx) (s : State) (ps : List LaneAt) : Perf :=
  let vs := c.contributions w ps
  let new := (vs.filter (fun v => !c.w.work.red.any (fun e => e.takes w v.1))).length
  let add (s : State) : State := c.put s (vs.foldl (fun wv v => wv.contribute w v.1 v.2) ((c.again s).w.redAt none))
  let forced := c.w.sched.redFor == some c.it.seq
  if !forced && decide (c.w.work.red.length + new ≤ 128 ∧ s.quarterRed c.core c.slot + new ≤ 512) then .done (add s)
  else if c.w.trapHeld then .wait s
  else
    let s := c.put s (c.w.redAt (some c.it.seq))
    match s.sendRed c.core c.slot true 129 with
    | (.wait, s) => .wait s
    | (.trap t, s) => .trap { t with lane := true, mask := c.taking w true } s
    | (.ok (), s) =>
      if (c.again s).w.redOut || decide (512 < s.quarterRed c.core c.slot + vs.length) then .wait s else .done (add s)

/-- VRED (R387). -/
def execVred (w : LaneWord) (s : State) : Result :=
  memOp (.vred w) s w true ⟨elemSize w.typ, 2, true, true, false, true, some 0x21, false⟩ false (LCtx.redLanes w)

end Sys2Proof.Machine
end

