-- ==== Sys2Proof/Machine/Tree.lean ====
section
/-!
DEFINITION. The reduction tree (R91 to R95, R390): VTRSEND and VTRRECV, the acceptance of contributions, the combining
orders of Table 8, timeouts and the delivery of results.
-/
namespace Sys2Proof.Machine

/-! ### TREESEL (Table 6) -/

/-- The fields of TREESEL. -/
def selCount (v : Word) : Nat := bits v 56 48
def selFirst (v : Word) : Nat := bits v 47 40
def selNel (v : Word) : Nat := bits v 29 24
def selOp (v : Word) : Nat := bits v 19 16
def selShape (v : Word) : Nat := bits v 9 8
def selSid (v : Word) : Nat := bits v 2 0

/-- Whether two contributions agree in FIRST, COUNT, NEL, OP and SHAPE (R94). -/
def selAgrees (a b : Word) : Bool :=
  selCount a == selCount b && selFirst a == selFirst b && selNel a == selNel b && selOp a == selOp b &&
    selShape a == selShape b

/-- A TREESEL that TREESESSION stops at VTRSEND and VTRRECV, and the one that stops a VTRSEND on a core (R95). -/
def selMalformed (v : Word) : Bool :=
  let n := selCount v
  n == 0 || decide (256 < selFirst v + n) || selNel v == 0 || decide (32 < selNel v) || decide (11 ≤ selOp v)
def selBad (v : Word) (core : Nat) : Bool :=
  selMalformed v || decide (core < selFirst v) || decide (selFirst v + selCount v ≤ core)

/-! ### Combining (R92, R93) -/

/-- The combine of Table 7. -/
def treeOp (op : Nat) (x y : Word32) : Word32 :=
  match op with
  | 0 => f32add x y
  | 1 => x + y
  | 2 => f32minMax false x y
  | 3 => f32minMax true x y
  | 4 => minS x y
  | 5 => maxS x y
  | 6 => minN x y
  | 7 => maxN x y
  | 8 => x &&& y
  | 9 => x ||| y
  | _ => x ^^^ y

/-- A combine of values that may be absent. -/
def treeAdd (op : Nat) (x y : Option Word32) : Option Word32 :=
  match x, y with
  | some a, some b => some (treeOp op a b)
  | some a, none => some a
  | none, b => b

/-- Four values combined in a row, or in pairs. -/
def inRow (op : Nat) (f : Nat → Option Word32) : Option Word32 :=
  treeAdd op (treeAdd op (treeAdd op (f 0) (f 1)) (f 2)) (f 3)
def inPairs (op : Nat) (f : Nat → Option Word32) : Option Word32 :=
  treeAdd op (treeAdd op (f 0) (f 1)) (treeAdd op (f 2) (f 3))

/-- The clusters of quadrant `q` of a die, in ascending index. -/
def quadCluster (q j : Nat) : Nat := q / 2 * 8 + q % 2 * 2 + j / 2 * 4 + j % 2

/-- The die value of Table 8 from the cores' values. -/
def dieValue (op shape : Nat) (core : Nat → Option Word32) (d : Nat) : Option Word32 :=
  let k (i j : Nat) : Option Word32 := core (d * 64 + i * 4 + j)
  match shape with
  | 0 => inRow op (fun y => inRow op (fun x => inRow op (k (y * 4 + x))))
  | 1 => inRow op (fun x => inRow op (fun y => inRow op (k (y * 4 + x))))
  | 2 => inPairs op (fun a => inPairs op (fun b => inPairs op (k (a * 4 + b))))
  | _ => inPairs op (fun q => inPairs op (fun j => inPairs op (k (quadCluster q j))))

/-- The device value: the spine combines the dies (Table 8). -/
def treeValue (op shape : Nat) (core : Nat → Option Word32) : Option Word32 :=
  inRow op (dieValue op shape core)

/-- A word of the missing mask: bit b of word j is contributor 32j + b (Table 9). -/
def missingWord (first count : Nat) (here : Nat → Bool) (j : Nat) : Word32 :=
  BitVec.ofNat 32 ((List.range 32).foldl (fun a b =>
    let i := 32 * j + b
    if i < count && !here (first + i) then a + 2 ^ b else a) 0)

/-- Lanes 0 to 40 of Table 9 of a generation, with a status. -/
def TreeGen.lanes (g : TreeGen) (status : Word32) : List Word32 :=
  let nel := selNel g.sel
  let elem (e core : Nat) : Option Word32 := (g.inputs.get? core).map (fun l => (l[e]?).getD 0)
  (List.range 32).map (fun e =>
    if e < nel then (treeValue (selOp g.sel) (selShape g.sel) (elem e)).getD 0 else 0) ++
  (List.range 8).map (missingWord (selFirst g.sel) (selCount g.sel) g.inputs.has) ++ [status]

/-! ### Generations (R94) -/

/-- Generations of a session opened so far. -/
def State.genCount (s : State) (grid sid : Nat) : Nat := (s.tree.next.get? (grid * 8 + sid)).getD 0

/-- The generation to which a VTRSEND of a core belongs now (R94, R401): the one that is open; else one that has completed,
whose result has still to reach the core, and to which the core has sent nothing; else the next. -/
def State.sendGen (s : State) (grid sid core : Nat) : Nat :=
  let mine := s.tree.gens.filter (fun g => g.grid == grid && g.sid == sid)
  match mine.find? (fun g => g.result.isNone || (g.cores.contains core && !g.sent.contains core)) with
  | some g => g.gen
  | none => s.genCount grid sid

/-- Change the sends of waves of a grid, resident or absent, that await a generation. -/
def State.mapSends (s : State) (grid sid gen : Nat) (f : WaveId → TreeSend → TreeSend) : State :=
  let go (i : WaveId) (t : Tab TreeSend) : Tab TreeSend :=
    if i.grid = grid then t.mapAll (fun k x => if k = sid ∧ x.gen = gen then f i x else x) else t
  { s with
    waves := s.waves.mapAll (fun _ w => { w with work := { w.work with sends := go w.ident w.work.sends } })
    away := s.away.mapAll (fun _ a => { a with sends := go a.ident a.sends }) }

/-- Whether a generation is this one. -/
def TreeGen.isOf (g : TreeGen) (grid sid gen : Nat) : Bool := g.grid == grid && g.sid == sid && g.gen == gen

/-- Put a generation back. -/
def State.setGen (s : State) (g : TreeGen) : State :=
  let old := s.tree.gens
  let new := if old.any (fun x => x.isOf g.grid g.sid g.gen) then
      old.map (fun x => if x.isOf g.grid g.sid g.gen then g else x)
    else old ++ [g]
  { s with tree := { s.tree with gens := new } }

/-- The contributors of a session. -/
def selCores (v : Word) : List Nat := (List.range (selCount v)).map (selFirst v + ·)

/-- The session of a contribution on its way. -/
def TreeMsg.isOf (m : TreeMsg) (g : TreeGen) : Bool := m.grid == g.grid && selSid m.sel == g.sid && m.gen == g.gen

/-- A status for the send of one wave. -/
def State.markSend (s : State) (m : TreeMsg) (st : Nat) : State :=
  s.mapSends m.grid (selSid m.sel) m.gen (fun i x => if i.uid = m.uid then { x with status := st } else x)

/-- A generation completes with a status (R94): its result goes to every contributor's core position, and to those of
rejected contributions and of those that come too late, which are on their way. -/
def State.completeGen (s : State) (g : TreeGen) (status : Word32) : State :=
  let late := (s.tree.msgs.filter (fun e => e.2.isOf g)).map (fun e => e.2)
  let s := late.foldl (fun s m => s.markSend m 3) s
  let sent := (g.sent ++ late.map (·.core)).eraseDups
  let to_ : List Nat := sortBy (fun a b => decide (a ≤ b)) (selCores g.sel ++ sent).eraseDups
  s.setGen { g with result := some (g.lanes status), cores := to_, sent := sent }

/-- A tree contribution was accepted, or a result delivered, for a grid: it has moved (R212). -/
def State.treeMoved (s : State) (grid : Nat) : State := s.updGrid grid (fun g => { g with moved := true })

/-- A node accepts a contribution: it completes the generation if it is the last. -/
def State.acceptTree (s : State) (g : TreeGen) (m : TreeMsg) : State :=
  let g := { g with inputs := g.inputs.set m.core m.elems, sent := g.sent ++ [m.core] }
  (if (selCores g.sel).all g.inputs.has then s.completeGen g 0 else s.setGen g).treeMoved m.grid

/-- TREE_CONTRIBUTION: a contribution reaches its node (R94): it opens a generation, is accepted, is rejected, or comes
after completion and is dropped. -/
def execTreeContribution (id : Nat) (s : State) : Result :=
  match s.tree.msgs.get? id with
  | none => .next s
  | some m =>
    let sid := selSid m.sel
    let s := { s with tree := { s.tree with msgs := s.tree.msgs.del id } }
    match s.tree.gens.find? m.isOf with
    | none =>
      if m.gen < s.genCount m.grid sid then .next s
      else
        let s := { s with tree := { s.tree with next := s.tree.next.set (m.grid * 8 + sid) (m.gen + 1) } }
        .next (s.acceptTree ⟨m.grid, sid, m.gen, m.sel, 0, m.time.toNat % 2 ^ 32, [], none, [], []⟩ m)
    | some g =>
      match g.result with
      | some _ => .next s
      | none =>
        if g.inputs.has m.core || !selAgrees g.sel m.sel then .next ((s.markSend m 2).setGen { g with sent := g.sent ++ [m.core] })
        else .next (s.acceptTree g m)

/-- TREE_TIMEOUT: CLOCKS of the opening contribution have elapsed (R94). -/
def execTreeTimeout (grid sid : Nat) (s : State) : Result :=
  match s.tree.gens.find? (fun g => g.grid == grid && g.sid == sid && g.result.isNone) with
  | none => .next s
  | some g => if g.limit ≤ g.clocks then .next (s.completeGen g 1) else .next s

/-- The result that a wave receives: its status is the highest that applies (Table 9). -/
def sendResult (x : TreeSend) (l : List Word32) : List Word32 :=
  l.take 40 ++ [BitVec.ofNat 32 (max x.status ((l[40]?).getD 0).toNat)]

/-- The tree-result slot of a context image (R210): it holds one session's result. -/
def State.imgTree (s : State) (a : Away) (sid : Nat) (l : List Word32) : State :=
  let (bs, s) := s.imgRead (dieOf a.core) a.ident.job (a.image + 0x1000) 8
  if (wordOfBytes bs).getLsbD 63 then s
  else s.imgWrite (dieOf a.core) a.ident.job (a.image + 0x1000)
    (bytesOfWord (BitVec.ofNat 64 (2 ^ 63 + sid)) ++ (l.map (fun x => bytesOfNat 4 x.toNat)).flatten)

/-- TREE_RESULT: a result reaches a core position and serves every wave there that awaits it, or is discarded (R401); for an
absent wave it goes to its image (R94, R118, R122), and it is held while such a wave is being resumed (R126). -/
def execTreeResult (grid sid core : Nat) (s : State) : Result :=
  match s.tree.gens.find? (fun g => g.grid == grid && g.sid == sid && g.result.isSome && g.cores.contains core) with
  | none => .next s
  | some g =>
    let l := g.result.getD []
    let hit (x : TreeSend) : Bool := x.core == core && x.gen == g.gen && x.result.isNone
    let away := (s.away.filter (fun e => e.2.ident.grid == grid && (match e.2.sends.get? sid with
      | some x => hit x
      | none => false))).map (fun e => e.2)
    let here := (s.waves.filter (fun e => e.2.ident.grid == grid && (match e.2.work.sends.get? sid with
      | some x => hit x
      | none => false))).map (fun e => e.2.ident.uid)
    if (away.map (·.ident.uid) ++ here).any (fun u => s.rdivClosed u || !s.awayClear u [(0x1000, 256)]) then .next s
    else
    let s := if away.isEmpty && here.isEmpty then s else s.treeMoved grid
    let s := here.foldl (fun s u => s.outFalls (3, u * 8 + sid)) s
    let s := s.mapSends grid sid g.gen (fun _ x => if hit x then { x with result := some (sendResult x l) } else x)
    let s := away.foldl (fun s a => match a.sends.get? sid with
      | some x => (s.imgTree a sid (sendResult x l)).diverted a (3, a.ident.uid * 8 + sid)
      | none => s) s
    let g := { g with cores := g.cores.filter (· != core) }
    if g.cores.isEmpty then
      .next { s with tree := { s.tree with gens := s.tree.gens.filter (fun x => !(x.isOf grid sid g.gen)) } }
    else .next (s.setGen g)

/-! ### VTRSEND and VTRRECV (R390) -/

/-- TREESESSION at a tree word. -/
def treeFault (c : LCtx) : Trap := { cause := 0x36, tval := c.it.treesel, lane := true, mask := c.mask }

/-- VTRSEND (R95, R390): a release at dev. -/
def execVtrsend (w : LaneWord) (s : State) : Result :=
  laneOp (.vtrsend w) s (fun c =>
    let v := c.it.treesel
    let sid := selSid v
    if selBad v c.core || c.w.work.sends.has sid then laneTrapOr s c (treeFault c)
    else if !c.w.work.outs.isEmpty then .next s
    else
      let gen := s.sendGen c.w.ident.grid sid c.core
      let late := s.tree.gens.any (fun g => g.isOf c.w.ident.grid sid gen && g.result.isSome)
      let s := { s with tree := { s.tree with gens := s.tree.gens.map (fun (g : TreeGen) =>
        if late && g.isOf c.w.ident.grid sid gen then { g with sent := g.sent ++ [c.core] } else g) } }
      let elems := (List.range (selNel v)).map (fun l => (c.opnd w.sa w.typ l).setWidth 32)
      let (id, s) := s.newId
      let msg : TreeMsg := ⟨c.w.ident.uid, c.core, c.w.ident.grid, v, c.it.trtime, gen, elems⟩
      let s := { s with tree := { s.tree with msgs := s.tree.msgs.set id msg } }
      .next (c.complete s { c.w with work := { c.w.work with
        sends := c.w.work.sends.set sid ⟨c.core, gen, if late then 3 else 0, none⟩ } }))

/-- VTRRECV (R95, R390): an acquire at dev. -/
def execVtrrecv (w : LaneWord) (s : State) : Result :=
  laneOp (.vtrrecv w) s (fun c =>
    let sid := selSid c.it.treesel
    if selMalformed c.it.treesel then laneTrapOr s c (treeFault c)
    else
    match c.w.work.sends.get? sid with
    | none => laneTrapOr s c (treeFault c)
    | some x =>
      match x.result with
      | none => .next s
      | some l =>
        let wv := { c.w with work := { c.w.work with sends := c.w.work.sends.del sid } }
        let wv := wv.putVec w.dst.toNat c.mask (fun i => (l[i]?).getD 0)
        .next (c.complete (s.emptyL1 c.core) wv))

end Sys2Proof.Machine
end

