-- ==== Sys2Proof/Machine/Packets.lean ====
section
/-!
DEFINITION. Requests at the base dies and their replies (R36 to R44, R60): RD, WR, WRM, ATM, GRD, GWR, crossing notices,
replies, the ports' queues, and the replies of other devices and the host.
-/
namespace Sys2Proof.Machine

/-! ### Packets as they cross a port (R37, R39) -/

/-- The codes of the element types in an ATM's header (R385). -/
def atmType (t : BitVec 5) : Nat :=
  match t.toNat with
  | 0x07 => 0 | 0x03 => 1 | 0x08 => 2 | 0x04 => 3 | _ => 4

/-- Codes of Table 2. -/
def PacketOp.code : PacketOp → Nat
  | .rd => 1 | .wr => 2 | .wrm => 3 | .atm => 4 | .grd => 5 | .gwr => 6

/-- The header words of a request (Table 1): CNT counts atoms or entries less 1. -/
def Txn.header (t : Txn) : List Word :=
  let cnt := (match t.op with | .wrm | .atm => 0 | _ => t.cnt - 1)
  let aop := if t.op = .atm then t.aop.toNat % 16 + atmType t.typ * 16 else 0
  let esz := (match t.op with | .grd | .gwr => Nat.log2 t.esz | _ => 0)
  [BitVec.ofNat 64 (t.op.code * 2 ^ 60 + t.die * 2 ^ 58 + t.tag * 2 ^ 49 + t.key.toNat * 2 ^ 39 + cnt * 2 ^ 32 + aop * 2 ^ 24 +
     esz * 2 ^ 22),
   BitVec.ofNat 64 t.pa] ++ (if t.op = .wrm then [t.bmask] else [])

/-- The header word of a reply (R39). -/
def Txn.replyHeader (t : Txn) : Word :=
  let cnt := (match t.op with | .wrm | .atm => 0 | _ => t.cnt - 1)
  BitVec.ofNat 64 (t.op.code * 2 ^ 60 + t.die * 2 ^ 58 + t.tag * 2 ^ 49 + t.status.code * 2 ^ 45 + cnt * 2 ^ 38)

/-- The two words of PMASK that a GRD's reply carries (R39). -/
def Txn.pmaskWords (t : Txn) : List Word :=
  (List.range 2).map (fun w =>
    BitVec.ofNat 64 ((t.pmask.filter (fun i => i / 64 == w)).foldl (fun a i => a + 2 ^ (i % 64)) 0))

/-- A header that a base die answers with BADPKT (R37): a reserved code, a nonzero rsv field, or an alignment that breaks
Table 2. -/
def badHeader (w0 w1 : Word) : Bool :=
  let op := bits w0 63 60
  let pa := bits w1 51 0
  let cnt := bits w0 38 32
  op == 0 || decide (6 < op) || bits w0 21 0 != 0 || bits w1 63 52 != 0 ||
    (match op with
     | 1 | 2 => decide (1 < cnt) || pa % (64 * (cnt + 1)) != 0
     | 3 => pa % 64 != 0 || cnt != 0
     | 5 | 6 => pa % 64 != 0
     | _ => cnt != 0)

/-- A request that a base die answers so; an ATM's natural alignment goes by its element. -/
def Txn.badPacket (t : Txn) : Bool :=
  badHeader (wordAt t.header 0) (wordAt t.header 1) || (t.op == .atm && t.pa % aopSize t.typ != 0) ||
    ((t.op == .grd || t.op == .gwr) && t.elems.any (fun e => e.pa % e.size != 0))

/-! ### Performing a request (R40, R44) -/

/-- The waves that a request, or the Lens entry it reads for, serves. -/
def State.requesters (s : State) (id : Nat) (t : Txn) : List Nat :=
  let own := t.users.map (·.uid)
  match s.net.lens.get? id with
  | none => own
  | some e => own ++ (e.reqs.map (fun r => (((s.txn? r).map (fun x => x.users.map (·.uid))).getD []))).flatten

/-- The origin of a request (R49). -/
def State.originOf (s : State) (id : Nat) (t : Txn) : Origin :=
  { src := t.die, job := t.job, orig := t.orig, uids := s.requesters id t }

/-- Requests that waited for older ones of their core are sent once none is left (R138, R382). -/
def State.sendWaiting (s : State) : State :=
  s.net.txns.foldl (fun s e =>
    match s.txn? e.1 with
    | some t => if t.phase = .waiting ∧ !s.mustWait e.1 t then s.sendTxn e.1 t else s
    | none => s) s

/-- A write that no slice passed and no wave or engine waits for: the task unit's. -/
def Txn.unit (t : Txn) : Bool := t.users.isEmpty && !t.owner && t.acc == 1

/-- A base die performs a request that it has accepted, in its order: `f` gives the state and the request with its reply;
`notice`: its crossing notices come before its reply (R60). A malformed one performs nothing (R37). -/
def State.perform (s : State) (id : Nat) (op : PacketOp) (notice : Bool) (f : State → Txn → Origin → Txn × State) : Result :=
  match s.txn? id with
  | none => .next s
  | some t =>
    match t.phase with
    | .sent n =>
      if t.op ≠ op ∨ !s.mayPerform t n then .next s
      else
        let o := s.originOf id t
        let (t, s) := if t.badPacket then ({ t with status := .badPkt }, s.logEvent 7 t.pa t.key o) else f s t o
        .next (s.setTxn id { t with phase := .performed (notice || t.unit) }).sendWaiting
    | _ => .next s

/-- RD (R40): the atoms of a line. -/
def execRd (id : Nat) (ecc : Ecc) (s : State) : Result :=
  s.perform id .rd false (fun s t o =>
    let (st, bs, s) := s.dieRead t.pa (t.cnt * 64) t.key ecc o
    ({ t with status := st, data := bs }, s.addFlaws (Ecc.beyond ecc t.pa (t.cnt * 64))))

/-- What a write of a packet leaves: the errors of atoms that it does not touch stay there. -/
def State.packetWrite (s : State) (t : Txn) (mask : Nat) (ecc : Ecc) (o : Origin) : Txn × State :=
  let (st, s) := s.dieWrite t.pa t.data mask t.key ecc o
  ({ t with status := st }, s.addFlaws (Ecc.beyond ecc t.pa t.data.length))

/-- WR (R40): whole atoms. -/
def execWr (id : Nat) (s : State) : Result :=
  s.perform id .wr false (fun s t o => s.packetWrite t (allBytes t.data.length) [] o)

/-- WRM (R41): the enabled bytes of one atom: with all enabled it is a WR, with none it performs nothing. -/
def execWrm (id : Nat) (ecc : Ecc) (s : State) : Result :=
  s.perform id .wrm false (fun s t o =>
    if t.bmask = 0 then ({ t with status := .ok }, s.addFlaws ecc) else s.packetWrite t t.bmask.toNat ecc o)

/-- ATM (R40, R385): the old value is its reply's data. -/
def execAtm (id : Nat) (ecc : Ecc) (s : State) : Result :=
  s.perform id .atm true (fun s t o =>
    match t.elems with
    | e :: _ =>
      let (st, old, s) := s.dieAtomic t.pa (t.aop.toNat % 16) t.typ e.data e.cmp t.key ecc o
      ({ t with status := st, data := bytesOfWord old }, s.addFlaws (Ecc.beyond ecc t.pa (aopSize t.typ)))
    | [] => (t, s))

/-- The status of each entry of a packet: by the live map, then by what its atom's read meets. -/
def State.entryStatus (s : State) (t : Txn) (ecc : Ecc) (e : Elem) : Status :=
  match s.liveStatus e.pa t.key with
  | .ok => eccStatus (s.errors ecc) e.pa e.size
  | st => st

/-- The highest status of some. -/
def worst (l : List Status) : Status := l.foldl (fun a b => if a.code < b.code then b else a) .ok

/-- The entries whose status satisfies `p`. -/
def entriesThat (l : List Status) (p : Status → Bool) : List Nat :=
  (l.zipIdx.filter (fun x => p x.1)).map (fun x => x.2)

/-- What a packet's entries leave in the error log and the interrupts: each atom's errors once, each refused region
once. -/
def State.packetEvents (s : State) (t : Txn) (ecc : Ecc) (write : Bool) (o : Origin) : State :=
  let atoms := ((t.elems.filter (fun e => s.liveStatus e.pa t.key == .ok)).map (fun e => e.pa / 64)).eraseDups
  let touched (e : AtomError) : Bool := t.elems.any (fun x => x.pa / 64 == e.atom)
  let bad := t.elems.filter (fun e => s.liveStatus e.pa t.key != .ok)
  let first := bad.filter (fun e => (bad.find? (fun x => regionOf x.pa == regionOf e.pa)) == some e)
  let refuse := first.map (fun e => (e.pa, s.liveStatus e.pa t.key))
  let all := s.errors ecc
  let s := atoms.foldl (fun s a => s.eccEvents all (a * 64) 64 t.key o) s
  refuse.foldl (fun s r =>
    if write then s.writeRefused r.2 r.1 t.key o
    else if r.2 = .retired then s.logEvent 4 r.1 t.key o else s) (s.addFlaws (ecc.filter (fun e => !touched e)))

/-- GRD (R38, R39): the elements packed in entry order, with the entries that read zero. -/
def execGrd (id : Nat) (ecc : Ecc) (s : State) : Result :=
  s.perform id .grd false (fun s t o =>
    let sts := t.elems.map (s.entryStatus t ecc)
    let data := (t.elems.map (fun e =>
      if (s.entryStatus t ecc e).good then s.mem.read e.pa e.size else List.replicate e.size 0)).flatten
    ({ t with
        status := worst sts
        data := data
        pmask := entriesThat sts (fun x => x == .poison || x == .retired)
        mism := entriesThat sts (· == .keyMismatch) },
      s.packetEvents t ecc false o))

/-- GWR (R38): the elements are written in entry order; entries of refused regions, and of atoms with an uncorrectable error
(R41), are discarded. -/
def execGwr (id : Nat) (s : State) : Result :=
  s.perform id .gwr true (fun s t o =>
    let u := s
    let sts := t.elems.map (u.entryStatus t [])
    let s := s.packetEvents t [] true o
    let s := t.elems.foldl (fun s e =>
      if (u.entryStatus t [] e).good then { s with mem := s.mem.write e.pa (bytesOfNat e.size e.data.toNat) } else s) s
    ({ t with
        status := worst sts
        pmask := entriesThat sts (fun x => x == .poison || x == .retired)
        mism := entriesThat sts (· == .keyMismatch) }, s))

/-- CROSSING_NOTICE (R60): the notices of a performed request close every open entry for its lines. -/
def execCrossingNotice (id : Nat) (s : State) : Result :=
  match s.txn? id with
  | none => .next s
  | some t =>
    match t.phase with
    | .performed true =>
      let s := t.lines.eraseDups.foldl (fun s l => s.closeLine (l * 128)) s
      .next (s.setTxn id { t with phase := .performed false })
    | _ => .next s

/-! ### Replies (R39, R43, R297, R379) -/

/-- The elements of a user whose reply failed. -/
def Txn.failed (t : Txn) (u : User) : List Elem :=
  if t.status.cause.isNone then []
  else match t.op with
    | .grd | .gwr => (t.elems.zipIdx.filter (fun x => t.pmask.contains x.2)).map (fun x => x.1)
    | _ => u.elems

/-- The entries of a gather's data. -/
def packedElems (size : Nat) : List Elem → List Byte → List (Elem × Word)
  | [], _ => []
  | e :: es, bs => (e, BitVec.ofNat 64 (natOfBytes (bs.take size))) :: packedElems size es (bs.drop size)

/-- What a reply gives a user's elements: a failed reply gives zeros. -/
def Txn.values (t : Txn) (u : User) : List (Elem × Word) :=
  match u.dest, t.op with
  | .none, _ => []
  | _, .grd => packedElems t.esz t.elems t.data
  | _, .rd => if t.status.good then readElems t.pa t.data u.elems else u.elems.map (fun e => (e, 0))
  | _, _ =>
    let v := BitVec.ofNat 64 (natOfBytes (t.data.take 8))
    u.elems.map (fun e => (e, if t.status.good then v else 0))

/-- The pages in which a user's access met a foreign key, each with its first address (R26). -/
def Txn.mismatched (t : Txn) (u : User) : List PageFault :=
  if t.status ≠ .keyMismatch then []
  else
    let es : List Elem := (match t.op with
      | .grd | .gwr => (t.elems.zipIdx.filter (fun x => t.mism.contains x.2)).map (fun x => x.1)
      | _ => u.elems)
    distinctFaults (es.map (fun e => ⟨e.va, 0x26, 7, 0⟩))

/-- Where the wave of a user is. -/
inductive UserAt where
  /-- in a slot: its replies land in the register file -/
  | here
  /-- evicted: they go to its register image -/
  | away (a : Away)
  /-- its reply-diversion entry is closed for a resume (R126): they are held -/
  | closed
  /-- ended: they are dropped -/
  | gone
  deriving DecidableEq, Repr

/-- Find the wave of a user. -/
def State.userAt (s : State) (u : User) : UserAt :=
  if s.rdivClosed u.uid then .closed
  else if (s.findWave u.uid).isSome then .here
  else match s.away.get? u.uid with
    | some a => .away a
    | none => .gone

/-- The record of a user's access (R26): it names the wave that made it, by the slot that it had then. -/
def Txn.recordFor (s : State) (t : Txn) (u : User) : RecordOf :=
  { die := dieOf t.core, core := t.core, slot := u.slot, job := t.job, agent := 5, acc := t.acc, absent := s.away.has u.uid }

/-- The records of a user's access that met a foreign key (R26). -/
def State.recordMismatch (s : State) (t : Txn) (u : User) : State :=
  let fs := t.mismatched u
  if fs.isEmpty then s else (s.record (t.recordFor s u) fs).2

/-- Give a reply to a user whose wave is in a slot. -/
def State.deliver (s : State) (t : Txn) (u : User) : State :=
  (s.recordMismatch t u).land u (t.values u) ((t.status.cause).getD 0) (t.failed u)

/-- One answer to an access of an evicted wave is in: the access counts down (R118). -/
def Away.answered (a : Away) (out : Nat) : Away :=
  { a with outs := (a.outs.map (fun o => if o.id = out then { o with left := o.left - 1 } else o)).filter (fun o => o.left != 0) }

/-- Write a reply's elements to a register image. -/
def State.imgElems (s : State) (a : Away) (d : Dest) (typ : BitVec 5) (vals : List (Elem × Word)) : State :=
  vals.foldl (fun s p =>
    match d with
    | .none | .record _ => s
    | .scalar r n => s.imgScalar a r n (extendElem typ p.1.size p.2)
    | .vector r => s.imgLane a typ r p.1.lane (extendElem typ p.1.size p.2)) s

/-- Give a reply to a user whose wave is evicted: it lands in the register image, and a failure joins the list of faults
(R118, R124). -/
def State.divert (s : State) (t : Txn) (u : User) (a : Away) : State :=
  match a.outs.find? (fun o => o.id == u.out) with
  | none => s
  | some o =>
    let s := (s.recordMismatch t u).imgElems a u.dest u.typ (t.values u)
    let s := (match t.status.cause, t.failed u with
      | some k, e :: _ =>
        let ea := if o.scl || o.red then o.tval else BitVec.ofNat 64 e.va
        s.absentFault a ⟨absentWord 0 k (if o.scl then 1 else 0) 0, ea⟩
      | _, _ => s)
    let s := { s with away := s.away.set u.uid (a.answered u.out) }
    if u.dest.isReg then s.diverted a (0, u.out) else s

/-- Records that some users' answers will write, by die and job. -/
def State.canAnswer (s : State) (t : Txn) (us : List User) : Bool :=
  let n := (us.map (fun u => (t.mismatched u).length)).foldl (· + ·) 0
  n == 0 || s.canRecord (dieOf t.core) t.job n

/-- Answer the users of a request that are in a slot; of one that has ended only its record is written (R26); those left are
evicted or closed. -/
def State.answerHere (s : State) (t : Txn) : List User × State :=
  let rest := t.users.filter (fun u => match s.userAt u with | .away _ | .closed => true | _ => false)
  (rest, t.users.foldl (fun s u => match s.userAt u with
    | .here => s.deliver t u
    | .gone => s.recordMismatch t u
    | _ => s) s)

/-- A request has been answered for its users in slots: it ends, or waits for REPLY_DIVERSION with the others. -/
def State.closeTxn (s : State) (id : Nat) (t : Txn) (rest : List User) : State :=
  if rest.isEmpty then s.delTxn id else s.setTxn id { t with users := rest, phase := .replied }

/-- PACKET_REPLY (R39): a reply frees its tag; a Lens entry's reply goes to its slice, an engine's to the engine, any other to
its users. -/
def execPacketReply (id : Nat) (s : State) : Result :=
  match s.txn? id with
  | none => .next s
  | some t =>
    match t.phase with
    | .performed false =>
      if s.net.lens.has id || t.owner then .next (s.setTxn id { t with phase := .replied })
      else if !s.canAnswer t t.users then .next s
      else
        let (rest, s) := s.answerHere t
        .next (s.closeTxn id t rest).sendWaiting
    | _ => .next s

/-- The ranges of a context image that the answer to a user's access writes (R118, R124): its registers, and the list of faults
if it failed. -/
def Txn.imageRanges (t : Txn) (u : User) : List (Nat × Nat) :=
  (match u.dest with
   | .none | .record _ => []
   | .scalar r n => (ctxScalar r n).toList.map (fun o => (o, 8))
   | .vector r => (u.elems.map (fun e =>
       (ctxVector r e.lane, 4) :: (if is64 u.typ then [(ctxVector (r + 1) e.lane, 4)] else []))).flatten) ++
  (if t.status.cause.isSome then [ctxFaultList] else [])

/-- REPLY_DIVERSION (R118): a reply for an evicted wave writes its register image; one that was held while its entry was
closed goes to the wave's new place (R126). -/
def execReplyDiversion (id : Nat) (s : State) : Result :=
  match s.txn? id with
  | none => .next s
  | some t =>
    match t.phase with
    | .replied =>
      if s.net.lens.has id || t.owner || !s.canAnswer t t.users || t.users.any (fun u => !s.awayClear u.uid (t.imageRanges u)) then .next s
      else
        let (rest, s) := s.answerHere t
        let s := rest.foldl (fun s u => match s.userAt u with | .away a => s.divert t u a | _ => s) s
        let held := rest.filter (fun u => s.userAt u == .closed)
        .next (s.closeTxn id t held)
    | _ => .next s

/-- The request that a port sends next: the one held there longest. -/
def State.portHead (s : State) (die stack : Nat) : Option (Nat × Txn) :=
  s.net.txns.foldl (fun best e =>
    match e.2.phase with
    | .held n =>
      if e.2.die = die ∧ e.2.stack = stack then
        match best with
        | some (_, b) => (match b.phase with | .held m => if n < m then some e else best | _ => best)
        | none => some e
      else best
    | _ => best) none

/-- PORT_QUEUE_RELEASE (R36): the oldest request held at a port is sent, once a tag is free and the port is not held. -/
def execPortQueueRelease (die stack : Nat) (s : State) : Result :=
  match s.portHead die stack with
  | none => .next s
  | some (id, t) =>
    if s.portBusy die stack then .next s
    else
      let (n, s) := s.newId
      .next (s.setTxn id { t with phase := .sent n, tag := s.freeTag die stack })

/-! ### Accesses of the peer and host windows (R10, R124) -/

/-- An access of the peer window that names this device: it is looped back and performed here (R10, R60). -/
def State.performOwn (s : State) (id : Nat) (t : Txn) : Txn × State :=
  let o := s.originOf id t
  match t.op, t.elems with
  | .rd, e :: _ =>
    let (st, bs, s) := s.dieRead t.pa e.size t.key [] o
    ({ t with status := st, data := bs }, s)
  | .atm, e :: _ =>
    let (st, old, s) := s.dieAtomic t.pa (t.aop.toNat % 16) t.typ e.data e.cmp t.key [] o
    ({ t with status := st, data := bytesOfWord old }, s.closeLine t.pa)
  | _, e :: _ =>
    let (st, s) := s.dieWrite t.pa (bytesOfNat e.size e.data.toNat) (allBytes e.size) t.key [] o
    ({ t with status := st }, s.closeLine t.pa)
  | _, [] =>
    let (st, s) := s.dieWrite t.pa t.data (allBytes t.data.length) t.key [] o
    ({ t with status := st }, s.closeLine t.pa)

/-- What another device or the host answers: bytes that the answer leaves out are free values. -/
def Txn.answer (s : State) (t : Txn) (ext : Remote) : Txn × State :=
  match ext with
  | .data bs =>
    let (more, s) := s.freeBytes (8 - bs.length)
    ({ t with status := .ok, data := bs ++ more }, s)
  | .keyMismatch => ({ t with status := .keyMismatch }, s)
  | .linkError => ({ t with status := .link }, s)

/-- REMOTE_REPLY (R124, R10, R26): the reply to an access of the peer or host window; a wave's accesses to one line keep
their order (R138). -/
def execRemoteReply (id : Nat) (ext : Remote) (s : State) : Result :=
  match s.txn? id with
  | none => .next s
  | some t =>
    let older := s.net.txns.any (fun e => decide (e.1 < id) && e.2.core == t.core && e.2.phase == .remote && e.2.meets t)
    let own := t.own
    let held := own && !s.portsClear t.die t.pa (max 1 (max t.data.length (t.elems.foldl (fun a e => max a e.size) 0)))
    let counts := (match s.recordOfGrid id with | some (_, g) => s.countClear g.task | none => true)
    if t.phase ≠ .remote ∨ older ∨ held ∨ !counts then .next s
    else
      let (t, s') := if own then s.performOwn id t else t.answer s ext
      if !s'.canAnswer t t.users || (t.users.isEmpty && !s'.canRecord (dieOf t.core) t.job 1) then .next s
      else
        let s' := if t.users.isEmpty && t.status == .keyMismatch then
            (s'.record { die := dieOf t.core, core := 0, slot := 0, job := t.job, agent := 5, acc := t.acc }
              [⟨t.va, 0x26, 7, 0⟩]).2
          else s'
        let s' := if !own && t.status == .keyMismatch && t.acc != 0 then s'.raiseMcheck else s'
        let (rest, s') := s'.answerHere t
        .next ((s'.closeTxn id t rest).recordAnswered id)

end Sys2Proof.Machine
end

