-- ==== Sys2Proof/Machine/Lens.lean ====
section
/-!
DEFINITION. The Lens slices (R56 to R62): read requests, the intake, write passages, and an entry's reply.
-/
namespace Sys2Proof.Machine

/-- Offsets of a convoy's counters (Table 2 of R62). -/
def cvReg (c o : Nat) : Nat := 0x200000 + c * 0x10 + o

/-- The convoy tags that a request carries (R61): one for each wave that shared it when it left its core, by the first of the
wave's accesses; an engine's or a fetcher's has one, unconvoyed. -/
def Txn.tags (t : Txn) : List (Option Nat) :=
  let us := t.users.take t.seen
  if t.owner then [none]
  else (us.map (·.uid)).eraseDups.map (fun i => ((us.find? (fun u => u.uid == i)).map (·.cv)).getD none)

/-- Count one of the two counters of each tag's convoy (R61). -/
def State.countTags (s : State) (o : Nat) (l : List (Option Nat)) : State :=
  l.foldl (fun s t => match t with | some c => s.bump (cvReg c o) | none => s) s

/-- A request has reached a slice: each wave that shares it is counted (R61). -/
def State.countArrival (s : State) (slice : Nat) (l : List (Option Nat)) : State :=
  (s.bump (lensReg slice 0) l.length).countTags 0 l

/-- A request is attached to an entry, or opens one: its first wave as the one, its further waves as attached (R61). -/
def State.countTaken (s : State) (slice : Nat) (l : List (Option Nat)) (opens split : Bool) : State :=
  let merged := if opens then l.drop 1 else l
  let s := if opens then s.bump (lensReg slice 0x10) else s
  let s := if split then s.bump (lensReg slice 0x20) else s
  let s := if merged.isEmpty then s else s.bump (lensReg slice 8) merged.length
  s.countTags 8 merged

/-- The open entries for a request's line, key and job. -/
def State.openEntries (s : State) (t : Txn) : List (Nat × LensEntry) :=
  s.net.lens.filter (fun e => e.2.line == t.pa / 128 && e.2.key == t.key && e.2.job == t.job && e.2.isOpen)

/-- A slice's intake holds a request. -/
def State.intakeBusy (s : State) (slice : Nat) : Bool :=
  s.net.txns.any (fun e => e.2.stack == slice && (match e.2.phase with | .intake _ => true | _ => false))

/-- A slice takes a read request: it joins an open entry with room, or opens one and sends its RD; none: no entry is free,
or, for a request that has just arrived, others wait in the intake before it (R57). -/
def State.takeRead (s : State) (id : Nat) (t : Txn) (fresh : Bool) : Option State :=
  let us := t.tags
  let opened := s.openEntries t
  match opened.find? (fun e => decide (e.2.reqs.length < 64)) with
  | some (k, e) =>
    let s := { s with net := { s.net with lens := s.net.lens.set k { e with reqs := e.reqs ++ [id] } } }
    some ((s.setTxn id { t with phase := .entry k }).countTaken t.stack us false false)
  | none =>
    if decide (8192 ≤ s.lensUsed t.stack) || (fresh && s.intakeBusy t.stack) then none
    else
      let (k, s) := s.newId
      let e : LensEntry := ⟨t.stack, t.pa / 128, t.key, t.job, [id], true⟩
      let s := { s with net := { s.net with lens := s.net.lens.set k e } }
      let s := (s.setTxn id { t with phase := .entry k }).countTaken t.stack us true (!opened.isEmpty)
      some (s.sendTxn k { t with users := [], fill := false, seen := 0, owner := false })

/-- A load waits for the replies of every earlier store of its core to the line (R53). -/
def State.readWaits (s : State) (id : Nat) (t : Txn) : Bool :=
  !t.owner && s.net.txns.any (fun e => decide (e.1 < id) && e.2.core == t.core && !e.2.users.isEmpty && e.2.acc != 0 && e.2.meets t &&
    (match e.2.phase with | .replied | .remote => false | _ => true))

/-- LENS_READ_REQUEST (R57): a core's read request reaches its slice. -/
def execLensReadRequest (id : Nat) (s : State) : Result :=
  match s.txn? id with
  | none => .next s
  | some t =>
    if t.phase ≠ .made ∨ t.op ≠ .rd ∨ s.readWaits id t then .next s
    else
      let t := { t with seen := t.users.length }
      let s := s.countArrival t.stack t.tags
      match s.takeRead id t true with
      | some s => .next s
      | none =>
        let (n, s) := s.newId
        .next (s.setTxn id { t with phase := .intake n })

/-- The place of a request in its slice's intake, if it is held there. -/
def Txn.intakeAt (t : Txn) : Option Nat := match t.phase with | .intake n => some n | _ => none

/-- The requests that a slice's intake holds, in the order in which they arrived. -/
def State.intake (s : State) (slice : Nat) : List (Nat × Txn) :=
  sortBy (fun a b => decide (a.2.intakeAt.getD 0 ≤ b.2.intakeAt.getD 0))
    (s.net.txns.filter (fun e => e.2.stack == slice && e.2.intakeAt.isSome))

/-- LENS_INTAKE_RELEASE (R57): of the requests that an intake holds the oldest that can be taken is: any of them once an entry
frees; one that would attach to an open entry even before. -/
def execLensIntakeRelease (slice : Nat) (s : State) : Result :=
  match (s.intake slice).findSome? (fun e => s.takeRead e.1 e.2 false) with
  | some s => .next s
  | none => .next s

/-- LENS_WRITE_PASSAGE (R59): a line write passes its slice, closes the open entries for its line, and is sent after
their reads. -/
def execLensWritePassage (id : Nat) (s : State) : Result :=
  match s.txn? id with
  | none => .next s
  | some t =>
    if t.phase ≠ .made ∨ (t.op ≠ .wr ∧ t.op ≠ .wrm) ∨ (!t.owner && s.mustWait id t) then .next s
    else .next ((s.closeLine t.pa).sendTxn id t)

/-- LENS_ENTRY_REPLY (R58): an entry's line goes to every requester in join order, and the entry is freed; the L1 of a
requester takes a good line (R52); an engine takes its copy from its request. -/
def execLensEntryReply (id : Nat) (s : State) : Result :=
  match s.net.lens.get? id, s.txn? id with
  | some e, some t =>
    if t.phase ≠ .replied then .next s
    else
      let reqs := e.reqs.filterMap (fun r => (s.txn? r).map (fun x => (r, { x with status := t.status, data := t.data })))
      let total := (reqs.map (fun r => (r.2.users.map (fun u => (r.2.mismatched u).length)).foldl (· + ·) 0)).foldl (· + ·) 0
      if total ≠ 0 ∧ reqs.any (fun r => !s.canRecord (dieOf r.2.core) r.2.job total) then .next s
      else
        let s := reqs.foldl (fun s r =>
          let fill := (match s.txn? r.1 with | some x => x.fill | none => false)
          let s := if fill && t.status.good then s.l1Fill r.2.core (t.pa / 128) t.key t.job t.data else s
          if r.2.owner then s.setTxn r.1 { r.2 with phase := .replied }
          else
            let (rest, s) := s.answerHere r.2
            s.closeTxn r.1 r.2 rest) s
        let s := s.delTxn id
        .next { s with net := { s.net with lens := s.net.lens.del id } }
  | _, _ => .next s

end Sys2Proof.Machine
end

