-- ==== Sys2Proof/Machine/Walks.lean ====
section
/-!
DEFINITION. Table walks (R16 to R21), invalidation (R22, R55) and the drain of held fault records (R32).
-/
namespace Sys2Proof.Machine

/-! ### Walks -/

/-- Whether a walk has one of its cluster's 64 walkers (R20). -/
def State.walking (s : State) (id : Nat) (w : Walk) : Bool :=
  decide ((s.xlate.walks.filter (fun e => decide (e.1 < id) && e.2.cluster == w.cluster)).length < 64)

/-- A walk failed: each wave that waits for it learns how. -/
def Wave.walkFailed (w : Wave) (lane : Bool) (f : WalkFail) : Wave :=
  { w with sched :=
      if lane then { w.sched with lfails := w.sched.lfails ++ [f] } else { w.sched with fails := w.sched.fails ++ [f] } }

/-- Remove walks that a leaf of a level for an address completes: the walk itself, and with a larger leaf every queued
miss within it (R20). -/
def State.walksDone (s : State) (id : Nat) (w : Walk) (level : Nat) : State :=
  { s with xlate := { s.xlate with walks := s.xlate.walks.keep (fun k x =>
      !(k == id || (x.cluster == w.cluster && x.job == w.job && pageOf level x.va == pageOf level w.va))) } }

/-- An entry of a cluster's miss queue has freed: its cores issue translated accesses again (R20). -/
def State.freeMiss (s : State) (cl : Nat) : State :=
  { s with cores := s.cores.mapAll (fun k c => if clusterOf k = cl then { c with noMiss := false } else c) }

/-- A walk that failed ends: those that wait for it take its result (R20). -/
def State.walkFails (s : State) (id : Nat) (w : Walk) (f : WalkFail) : State :=
  let s := w.users.foldl (fun s u => s.updWave (u / 2) (·.walkFailed (u % 2 == 1) f)) s
  { s with xlate := { s.xlate with walks := s.xlate.walks.del id, failed := s.xlate.failed ++ w.askers.map (fun a => (a, f)) } }

/-- TABLE_WALK (R16, R18, R20): a walker reads the levels, one request for each entry that no cache holds, and installs the
translation, or fails. It waits for its request's reply (R57), for room for a record (R32), and for the port that its update of A takes (R36). -/
def execTableWalk (id : Nat) (ecc : Ecc) (s : State) : Result :=
  let s := s.addFlaws ecc
  match s.xlate.walks.get? id with
  | none => .next s
  | some w =>
    if !s.walking id w then .next s
    else
      let (r, m, t) := s.walk id w
      if m ≠ 0 ∧ !s.canRecord (dieOf w.core) w.job m then .next s
      else
        let t := t.walkRecords w.core w.slot w.job w.va m
        match r with
        | .wait => .next t
        | .fail cause level entry =>
          .next ((t.walkFails id w ⟨w.va / 65536, w.acc, cause, level, entry⟩).freeMiss w.cluster)
        | .leaf e level pa =>
          if !t.leafClear w.cluster pa then .next s
          else
            let t := if e.getLsbD 7 then t else t.leafOr w.cluster w.job pa leafA
            let cores := ((w.users.filterMap (fun u => t.findWave (u / 2))).map (fun x => x.1)).eraseDups
            let t := t.tlbInstall w.cluster cores ⟨w.job, level, pageOf level w.va, e ||| leafA, pa⟩
            .next ((t.walksDone id w level).freeMiss w.cluster)

/-! ### Invalidation (R22) -/

/-- The fields of TLBINVC. -/
def tlbOp (v : Word) : Nat := bits v 1 0
def tlbJob (v : Word) : Nat := bits v 21 12
def tlbCount (v : Word) : Nat := max 1 (bits v 47 32)

/-- Whether a translation matches an operation on the range from `a`. -/
def tlbMatches (v a : Word) (e : TlbEntry) : Bool :=
  match tlbOp v with
  | 1 => true
  | 2 => e.job == tlbJob v
  | _ =>
    let lo := bits a 56 16
    let n := 2 ^ levelShift e.level / 65536
    e.job == tlbJob v && decide (e.page * n < lo + tlbCount v) && decide (lo < e.page * n + n)

/-- Whether a pointer-cache entry goes. -/
def ptrMatches (v : Word) (e : PtrEntry) : Bool := tlbOp v == 1 || e.job == tlbJob v

/-- Whether some cache holds a matching entry. -/
def State.tlbHolds (s : State) (v a : Word) : Bool :=
  s.cores.any (fun c => c.2.tlb.any (tlbMatches v a)) ||
    s.clusters.any (fun c => c.2.tlb.any (tlbMatches v a) || c.2.ptr.any (ptrMatches v))

/-- Remove the matching entries from every cache, and every word from the instruction caches (R239). -/
def State.tlbRemove (s : State) (v a : Word) : State :=
  { s with
    cores := s.cores.mapAll (fun _ c => { c with tlb := c.tlb.filter (fun e => !tlbMatches v a e), icache := [], lcache := [] })
    clusters := s.clusters.mapAll (fun _ c => { c with
      tlb := c.tlb.filter (fun e => !tlbMatches v a e)
      ptr := c.ptr.filter (fun e => !ptrMatches v e) }) }

/-- A write to TLBINVC: while BUSY it is ignored; a nonzero rsv field starts nothing (R22). -/
def State.tlbWrite (s : State) (v : Word) : State :=
  if s.ctl.tlbCmd.isSome then s
  else
    let fields := maskBits 47 32 ||| maskBits 21 12 ||| 3
    let s := s.setReg 0x008 (v &&& fields)
    if v &&& ~~~fields ≠ 0 ∨ tlbOp v = 0 then s
    else
      let a := s.reg 0x000
      let s := s.tlbRemove v a
      { s with ctl := { s.ctl with tlbCmd := some (v, a, s.net.nextId) } }

/-- TLB_INVALIDATE_ALL: TLBINVC with OP 01 (R22). -/
def execTlbInvalidateAll (v : Word) (s : State) : Result := if tlbOp v = 1 then .next (s.tlbWrite v) else .next s
/-- TLB_INVALIDATE_JOB: OP 10. -/
def execTlbInvalidateJob (v : Word) (s : State) : Result := if tlbOp v = 2 then .next (s.tlbWrite v) else .next s
/-- TLB_INVALIDATE_RANGE: OP 11. -/
def execTlbInvalidateRange (v : Word) (s : State) : Result := if tlbOp v = 3 then .next (s.tlbWrite v) else .next s

/-- Requests made before number `n`, of the job or of any, that are still to be performed, and walks that have not
discarded what such a request of theirs reads. -/
def State.oldAccesses (s : State) (v : Word) (n : Nat) : Bool :=
  let mine (job : Nat) : Bool := tlbOp v == 1 || job == tlbJob v
  s.net.txns.any (fun e => decide (e.1 < n) && mine e.2.job &&
    (match e.2.phase with | .performed _ | .replied => false | _ => true)) ||
  s.xlate.walks.any (fun e => mine e.2.job && e.2.req.any (fun r => decide (r < n)))

/-- TLB_INVALIDATE_COMPLETE (R22, R55): BUSY clears once no cache holds a matching entry, every access translated
through one has been performed, and every walk that read one has discarded it; every L1, and every instruction cache (R239), is emptied first. -/
def execTlbInvalidateComplete (s : State) : Result :=
  match s.ctl.tlbCmd with
  | none => .next s
  | some (v, a, n) =>
    if s.tlbHolds v a then
      let s := s.tlbRemove v a
      .next { s with ctl := { s.ctl with tlbCmd := some (v, a, s.net.nextId) } }
    else if s.oldAccesses v n then .next s
    else
      let s := s.emptyL1s.emptyCode
      .next { s with ctl := { s.ctl with tlbCmd := none } }

/-! ### Held records (R32) -/

/-- The first record held at a die that its job's ring, and the port to it (R36), can take, with those before it and after it. -/
def State.drainable (s : State) (die : Nat) (seen : List HeldRecord) : List HeldRecord → Option (HeldRecord × List HeldRecord)
  | [] => none
  | r :: rs =>
    if r.die = die ∧ 0 < s.ringRoom r.job ∧ !seen.any (fun x => x.job == r.job) ∧
        s.portsClear die (s.ringPlace r.job 0) 32 then some (r, seen ++ rs)
    else State.drainable s die (seen ++ [r]) rs

/-- FAULT_RECORD_DRAIN (R32): a record held at a die is written once the ring has room; a job's records keep their
order. -/
def execFaultRecordDrain (die : Nat) (s : State) : Result :=
  match s.drainable die [] s.xlate.held with
  | none => .next s
  | some (r, rest) => .next (State.ringWrite { s with xlate := { s.xlate with held := rest } } r.die r.job r.words)

end Sys2Proof.Machine
end

