-- ==== Sys2Proof/Machine/Xts.lean ====
section
/-!
DEFINITION. What the stacks hold (R25, R27): an atom under a key slot from 1 to 1,023 is stored as its AES-256-XTS
ciphertext. The machine keeps the clear bytes, which every access under the binding key sees (R26), and this file derives
the stored ones. PRESUMED (log 86): the spec names IEEE 1619 AES-256-XTS; FIPS 197 and IEEE 1619 give its steps.
-/
namespace Sys2Proof.Machine

/-! ### The field of 256 elements -/

/-- A byte times x modulo x^8 + x^4 + x^3 + x + 1. -/
def aesTwice (b : Byte) : Byte := b <<< 1 ^^^ (if b.getLsbD 7 then 0x1B else 0)

/-- A product in the field, over the `n` low bits of the second factor. -/
def aesMul (a b : Byte) : Nat → Byte
  | 0 => 0
  | n + 1 => (if b.getLsbD 0 then a else 0) ^^^ aesMul (aesTwice a) (b >>> 1) n

/-- A byte to the power 254, its inverse: squares of 1 to 7 doublings multiplied. -/
def aesInv (b : Byte) : Byte :=
  ((List.range 7).foldl (fun (x : Byte × Byte) _ =>
    let q := aesMul x.1 x.1 8
    (q, aesMul x.2 q 8)) (b, 1)).2

/-- SubBytes of one byte. -/
def aesSub (b : Byte) : Byte :=
  let x := aesInv b
  x ^^^ x.rotateLeft 1 ^^^ x.rotateLeft 2 ^^^ x.rotateLeft 3 ^^^ x.rotateLeft 4 ^^^ 0x63

/-! ### AES-256 on a block of 16 bytes -/

/-- Two lists of bytes added in the field. -/
def aesXor (a b : List Byte) : List Byte := List.zipWith (· ^^^ ·) a b

/-- SubBytes and ShiftRows: byte 4c + r comes from column c + r. -/
def aesShift (b : List Byte) : List Byte :=
  (List.range 16).map (fun i => aesSub ((b[(i + 4 * (i % 4)) % 16]?).getD 0))

/-- MixColumns. -/
def aesMix (b : List Byte) : List Byte :=
  (List.range 16).map (fun i =>
    let at_ (k : Nat) : Byte := (b[i / 4 * 4 + (i + k) % 4]?).getD 0
    aesTwice (at_ 0) ^^^ aesTwice (at_ 1) ^^^ at_ 1 ^^^ at_ 2 ^^^ at_ 3)

/-- The next word of the key schedule, from the eight before it, the latest first: word `i`. -/
def aesNextWord (i : Nat) (w : List (List Byte)) : List Byte :=
  let last := (w[0]?).getD []
  let t := if i % 8 = 0 then
      aesXor ((last.drop 1 ++ last.take 1).map aesSub) [((List.range (i / 8 - 1)).foldl (fun c _ => aesTwice c) 1), 0, 0, 0]
    else if i % 8 = 4 then last.map aesSub
    else last
  aesXor ((w[7]?).getD []) t

/-- The words of the key schedule, the latest first: `n` more. -/
def aesExpand : Nat → List (List Byte) → List (List Byte)
  | 0, w => w
  | n + 1, w => aesExpand n (aesNextWord w.length w :: w)

/-- The bytes of the key schedule of a key of 32 bytes: fifteen round keys of 16. -/
def aesSchedule (key : List Byte) : List Byte :=
  (aesExpand 52 ((List.range 8).map (fun i => (key.drop (4 * i)).take 4)).reverse).reverse.flatten

/-- The rounds of a block after its first key: thirteen whole ones and the last. -/
def aesRounds : Nat → List Byte → List Byte → List Byte
  | 0, ks, b => aesXor (aesShift b) (ks.take 16)
  | n + 1, ks, b => aesRounds n (ks.drop 16) (aesXor (aesMix (aesShift b)) (ks.take 16))

/-- Encrypt a block under a key schedule. -/
def aesEncrypt (ks b : List Byte) : List Byte := aesRounds 13 (ks.drop 16) (aesXor b (ks.take 16))

/-! ### XTS -/

/-- A tweak of 16 bytes, little-endian, times x modulo x^128 + x^7 + x^2 + x + 1. -/
def xtsTwice (t : BitVec 128) : BitVec 128 := t <<< 1 ^^^ (if t.getLsbD 127 then 0x87 else 0)

/-- Encrypt blocks from a tweak on. -/
def xtsBlocks (ks : List Byte) : Nat → BitVec 128 → List Byte → List Byte
  | 0, _, _ => []
  | n + 1, t, b =>
    let tw := bytesOfNat 16 t.toNat
    aesXor (aesEncrypt ks (aesXor (b.take 16) tw)) tw ++ xtsBlocks ks n (xtsTwice t) (b.drop 16)

/-- Encrypt an atom under 64 bytes of key material, data key first, with a data unit number (R27). -/
def xtsAtom (key : List Byte) (unit : Nat) (atom : List Byte) : List Byte :=
  let tweak := aesEncrypt (aesSchedule (key.drop 32)) (bytesOfNat 16 unit)
  xtsBlocks (aesSchedule (key.take 32)) 4 (BitVec.ofNat 128 (natOfBytes tweak)) atom

/-- What a stack holds of the atom at a PA (R25, R27): clear bytes in a region bound to slot 0, the ciphertext under the
slot's key pair in another. The tweak is PA<51:6>. -/
def State.stored (s : State) (pa : Nat) : List Byte :=
  let clear := s.mem.read (pa / 64 * 64) 64
  let key := (s.liveEntry (regionOf pa)).key
  if key = 0 then clear else xtsAtom (bytesOfNat 64 (s.ctl.keys.get key.toNat).toNat) (pa / 64 % 2 ^ 46) clear

end Sys2Proof.Machine
end

