-- ==== Sys2Proof/Machine/Keys.lean ====
section
/-!
DEFINITION. Key commands (R25 to R29) and live-map commands (R46), with the emptying of the L1s (R55).
-/
namespace Sys2Proof.Machine

/-! ### Keys -/

/-- The key pair that KMAT0 to KMAT7 hold (R27). -/
def State.kmat (s : State) : BitVec 512 :=
  BitVec.ofNat 512 (natOfBytes (bytesOfWords ((List.range 8).map (fun i => s.reg (0x100 + 8 * i)))))

/-- Zero KMAT0 to KMAT7. -/
def State.zeroKmat (s : State) : State := (List.range 8).foldl (fun s i => s.setReg (0x100 + 8 * i) 0) s

/-- The slot of a KCMD value. -/
def kcmdSlot (v : Word) : Nat := bits v 11 2

/-- A slot is the JOBKEY of a job that exists (R24). -/
def State.keyInUse (s : State) (slot : Nat) : Bool :=
  (List.range 1024).any (fun j =>
    (s.jobState j == 1 || s.jobState j == 2) && bits (s.reg (jobReg j 0x08)) 9 0 == slot)

/-- Why a KCMD write is refused (Table 10), 0 if it is not. -/
def State.keyRefusal (s : State) (v : Word) : Nat :=
  let slot := kcmdSlot v
  if s.ctl.keyCmd.isSome then 5
  else if bits v 63 12 ≠ 0 then 4
  else if bits v 1 0 = 0 then 0
  else if slot = 0 then 1
  else if bits v 1 0 = 3 then (if s.keyInUse slot then 2 else 0)
  else if s.ctl.keys.get slot ≠ 0 then 3
  else if bits v 1 0 = 1 ∧ s.kmat.toNat % 2 ^ 256 = s.kmat.toNat / 2 ^ 256 then 6
  else 0

/-- A random pair: an empty slot is one that holds 0. -/
def drawnKey (n : Nat) : BitVec 512 := if Config.randomKey n = 0 then 1 else Config.randomKey n

/-- Mark every region bound to a slot not live (R29). -/
def State.unlive (s : State) (slot : Nat) : State :=
  { s with ctl := { s.ctl with live := s.ctl.live.mapAll (fun _ e =>
      if e.key.toNat = slot then { e with live := false } else e) } }

/-- What an accepted key command does to the slot (R28, R29). -/
def State.keyRun (s : State) (v : Word) : State :=
  let slot := kcmdSlot v
  match bits v 1 0 with
  | 1 => { s with ctl := { s.ctl with keys := s.ctl.keys.set slot s.kmat } }
  | 2 => { s with ctl := { s.ctl with keys := s.ctl.keys.set slot (drawnKey s.free) }, free := s.free + 1 }
  | _ => State.unlive { s with ctl := { s.ctl with keys := s.ctl.keys.set slot 0 } } slot

/-- A write to KCMD (R28): a refusal sets ERR and ECODE. -/
def State.keyWrite (s : State) (v : Word) : State :=
  let code := s.keyRefusal v
  if code ≠ 0 then s.setReg 0x148 (BitVec.ofNat 64 (code * 256 + 2))
  else
    let s := s.setReg 0x140 v
    if bits v 1 0 = 0 then s
    else
      let s := s.keyRun v
      { s with ctl := { s.ctl with keyCmd := some v } }

/-- KEY_LOAD: KCMD with OP 01 (R28). -/
def execKeyLoad (v : Word) (s : State) : Result := if bits v 1 0 = 1 then .next (s.keyWrite v) else .next s
/-- KEY_GEN: OP 10. -/
def execKeyGen (v : Word) (s : State) : Result := if bits v 1 0 = 2 then .next (s.keyWrite v) else .next s
/-- KEY_DESTROY: OP 11 (R29). -/
def execKeyDestroy (v : Word) (s : State) : Result := if bits v 1 0 = 3 then .next (s.keyWrite v) else .next s

/-- KEY_COMMAND_COMPLETE: ERR and ECODE clear, KMAT is zeroed, and BUSY returns to 0, after DESTROY with every L1 empty
(R28, R29, R55). -/
def execKeyCommandComplete (s : State) : Result :=
  match s.ctl.keyCmd with
  | none => .next s
  | some v =>
    let s := (s.zeroKmat).setReg 0x148 0
    let s := if bits v 1 0 = 3 then s.emptyL1s else s
    .next { s with ctl := { s.ctl with keyCmd := none } }

/-! ### The live map -/

/-- The regions of a live-map command. -/
def State.lmFirst (s : State) : Nat := bits (s.reg 0x408) 30 0
def State.lmCount (s : State) : Nat := bits (s.reg 0x410) 16 0

/-- Why an LMCMD write is refused, in the order of R46; 0 if it is not. -/
def State.lmRefusal (s : State) (v : Word) : Nat :=
  if s.ctl.lmCmd.isSome then 5
  else if bits v 63 12 ≠ 0 then 6
  else if bits v 1 0 = 3 then 1
  else if s.lmCount = 0 ∨ 65536 < s.lmCount then 2
  else if s.populated < (s.lmFirst + s.lmCount) * 2097152 then 3
  else if bits v 1 0 = 1 ∧ kcmdSlot v ≠ 0 ∧ s.ctl.keys.get (kcmdSlot v) = 0 then 4
  else 0

/-- BIND one region: if it is not retired it takes the key, is zeroed, and is live (R46). Its atoms are written whole, so no
earlier error stands in them (log 90). -/
def State.bindOne (s : State) (key r : Nat) : State :=
  let e := s.liveEntry r
  if e.ret then s
  else
    let s := s.dropFlaws (r * 2097152) 2097152
    { s with
    mem := s.mem.zero (r * 2097152) 2097152
    ctl := { s.ctl with live := s.ctl.live.set r ⟨true, BitVec.ofNat 10 key, false⟩ } }

/-- UNBIND one region: LIVE clears. -/
def State.unbindOne (s : State) (r : Nat) : State :=
  let e := s.liveEntry r
  if e.live then { s with ctl := { s.ctl with live := s.ctl.live.set r { e with live := false } } } else s

/-- A write to LMCMD (R46). DESIGN CHOICE (log 83): after a refused write, and after one with OP 00 while BUSY, LMCMD reads
as before; the rule states neither. -/
def State.lmWrite (s : State) (v : Word) : State :=
  if bits v 1 0 = 0 ∧ bits v 63 12 = 0 then (if s.ctl.lmCmd.isSome then s else s.setReg 0x400 v)
  else
    let code := s.lmRefusal v
    if code ≠ 0 then s.setReg 0x418 (BitVec.ofNat 64 (code * 256 + 2))
    else
      let s := (s.setReg 0x400 v).setReg 0x418 0
      let first := s.lmFirst
      let n := s.lmCount
      let rs := (List.range n).map (first + ·)
      let s := if bits v 1 0 = 1 then rs.foldl (fun s r => s.bindOne (kcmdSlot v) r) s
        else rs.foldl (fun s r => s.unbindOne r) s
      { s with ctl := { s.ctl with lmCmd := some (v, first, n) } }

/-- BIND: LMCMD with OP 01 (R46). -/
def execBindRegions (v : Word) (s : State) : Result := if bits v 1 0 = 1 then .next (s.lmWrite v) else .next s
/-- UNBIND: OP 10. -/
def execUnbindRegions (v : Word) (s : State) : Result := if bits v 1 0 = 2 then .next (s.lmWrite v) else .next s

/-- LIVE_MAP_COMMAND_COMPLETE: every region has changed in every base die; every L1 is emptied and BUSY returns to 0
(R46, R55). -/
def execLiveMapCommandComplete (s : State) : Result :=
  match s.ctl.lmCmd with
  | none => .next s
  | some _ =>
    let s := s.emptyL1s
    .next { s with ctl := { s.ctl with lmCmd := none } }

end Sys2Proof.Machine
end

