-- ==== Sys2Proof/Machine/Link.lean ====
section
/-!
DEFINITION. Interface points and eye margins (R47, R48).
-/
namespace Sys2Proof.Machine

/-- Offset of register `o` of a stack's monitor (Table 8). -/
def eyeReg (stack o : Nat) : Nat := 0x1000 + stack * 0x20 + o

/-- Set MPSTAT.ERR. -/
def State.mpErr (s : State) (e : Bool) : State := s.setReg 0x428 (setBits (s.reg 0x428) 1 1 (if e then 1 else 0))

/-- A memory command is BUSY, so that MPOINT and EYECMD are refused (R48): a switch, a retrain or a live-map command. -/
def State.memBusy (s : State) : Bool := s.mpBusy || s.ctl.lmCmd.isSome

/-- A write to MPOINT (R47): the ports hold. -/
def State.mpointWrite (s : State) (v : Word) : State :=
  if s.memBusy ∨ bits v 1 0 = 3 then s.mpErr true
  else
    let s := (s.setReg 0x420 (v &&& 3)).mpErr false
    { s with ctl := { s.ctl with mpoint := some (v.setWidth 2) } }

/-- MPOINT_SWITCH (R47). -/
def execMpointSwitch (v : Word) (s : State) : Result := .next (s.mpointWrite v)

/-- MPOINT_RELEASE (R47): once every accepted request has completed, the clock changes and the ports release. -/
def execMpointRelease (s : State) : Result :=
  match s.ctl.mpoint with
  | none => .next s
  | some pt =>
    if s.net.txns.any (fun e => e.2.tagged) then .next s
    else
      let s := s.setReg 0x428 (setBits (s.reg 0x428) 6 2 pt.toNat)
      .next { s with ctl := { s.ctl with mpoint := none } }

/-- Whether both spares of a channel are in use (EYEREP). -/
def State.sparesUsed (s : State) (stack chan : Nat) : Bool := bits (s.reg (eyeReg stack 0x18)) (2 * chan + 1) (2 * chan) == 3

/-- A write to EYECMD (R48): RETRAIN holds the stack's requests; REPAIR moves the named lane onto the channel's first spare
that is not in use. -/
def State.eyeWrite (s : State) (stack : Nat) (v : Word) : State :=
  let chan := bits v 12 8
  if s.memBusy ∨ bits v 1 0 = 3 ∨ (bits v 1 0 = 2 ∧ s.sparesUsed stack chan) then s.mpErr true
  else
    let s := (s.setReg (eyeReg stack 0x10) (v &&& maskBits 12 0)).mpErr false
    match bits v 1 0 with
    | 1 => { s with ctl := { s.ctl with retrain := s.ctl.retrain ++ [stack] } }
    | 2 =>
      let rep := s.reg (eyeReg stack 0x18)
      let i := if rep.getLsbD (2 * chan) then 2 * chan + 1 else 2 * chan
      let s := s.setReg (eyeReg stack 0x18) (setBits rep i 1 1)
      { s with ctl := { s.ctl with repairs := s.ctl.repairs ++ [(stack, i, bits v 7 2)] } }
    | _ => s

/-- RETRAIN: EYECMD with OP 01 (R48). -/
def execRetrain (stack : Nat) (v : Word) (s : State) : Result :=
  if stack < 12 ∧ bits v 1 0 = 1 then .next (s.eyeWrite stack v) else .next s

/-- RETRAIN_DONE: the stack's requests are released. -/
def execRetrainDone (stack : Nat) (s : State) : Result :=
  .next { s with ctl := { s.ctl with retrain := s.ctl.retrain.filter (· != stack) } }

/-- REPAIR: OP 10: the lane moves onto a spare of its channel, which EYEREP then shows in use. -/
def execRepair (stack : Nat) (v : Word) (s : State) : Result :=
  if stack < 12 ∧ bits v 1 0 = 2 then .next (s.eyeWrite stack v) else .next s

/-- EYE_MARGIN_MEASUREMENT: the smallest margin since the last read stays, with its lane; where it falls below the
threshold with the interrupt enabled, ALERT is set and the alert is due (R48). -/
def execEyeMarginMeasurement (stack : Nat) (chan : BitVec 5) (lane : BitVec 6) (margin : BitVec 8) (s : State) : Result :=
  let v := s.reg (eyeReg stack 0)
  let thr := s.reg (eyeReg stack 8)
  if stack < 12 ∧ margin.toNat < bits v 7 0 then
    let v' := setBits (setBits (setBits v 19 5 chan.toNat) 13 6 lane.toNat) 0 8 margin.toNat
    if thr.getLsbD 8 ∧ margin.toNat < bits thr 7 0 ∧ bits thr 7 0 ≤ bits v 7 0 then
      let s := s.setReg (eyeReg stack 0) (setBits v' 8 1 1)
      .next { s with ctl := { s.ctl with alerts := s.ctl.alerts ++ [(stack, chan.toNat)] } }
    else .next (s.setReg (eyeReg stack 0) v')
  else .next s

/-- The log entry of an eye alert (R49): the base die's own; no rule gives its atom, which is a free value. -/
def State.logEye (s : State) (stack chan : Nat) : State :=
  let (x, s) := s.draw
  let tail := (s.reg 0x438).toNat
  let head := (s.reg 0x440).toNat
  let atom := x &&& maskBits 51 6
  let prev := tail - 1
  if tail ≠ head ∧ bits (s.reg (logReg prev 1)) 63 56 = 6 ∧ s.reg (logReg prev 0) = atom then
    s.setReg (logReg prev 3) (BitVec.ofNat 64 (min 65535 ((s.reg (logReg prev 3)).toNat + 1)))
  else if tail = head + 64 then s.bump 0x448
  else
    let s := s.setReg (logReg tail 0) atom
    let s := s.setReg (logReg tail 1) (BitVec.ofNat 64 (6 * 2 ^ 56 + stack * 2 ^ 52 + chan * 2 ^ 47 + 4 * 2 ^ 22))
    let s := s.setReg (logReg tail 2) (BitVec.ofNat 64 (s.clk.toNat % 2 ^ 32))
    let s := s.setReg (logReg tail 3) 0
    s.setReg 0x438 (BitVec.ofNat 64 (tail + 1))

/-- EYE_ALERT: an alert that a measurement has made is logged and raises the host's eye interrupt (R48), whatever has become
of ALERT since. -/
def execEyeAlert (stack : Nat) (s : State) : Result :=
  match s.ctl.alerts.find? (fun a => a.1 == stack) with
  | some a =>
    let s := s.logEye stack a.2
    .next { s with
      ctl := { s.ctl with alerts := s.ctl.alerts.erase a }
      host := { s.host with eye := s.host.eye + 1 } }
  | none => .next s

/-- A read of EYESTAT clears ALERT and restarts MARGIN at 255 (R48). -/
def State.eyeRead (s : State) (stack : Nat) : State :=
  let v := s.reg (eyeReg stack 0)
  s.setReg (eyeReg stack 0) (setBits (setBits v 8 1 0) 0 8 255)

/-- EYESTAT_READ (R48). -/
def execEyestatRead (stack : Nat) (s : State) : Result := if stack < 12 then .next (s.eyeRead stack) else .next s

end Sys2Proof.Machine
end

