-- ==== Sys2Proof/Machine/Sm.lean ====
section
/-!
DEFINITION. The hash SM3 and the check of an SM2 signature that R218 names. PRESUMED (log 41): the spec names the two and
describes neither; the standards GB/T 32905 and GB/T 32918 give the algorithms and the curve.
-/
namespace Sys2Proof.Machine

/-! ### SM3 -/

/-- A big-endian number as `n` bytes, the most significant first. -/
def bigBytes : Nat → Nat → List Byte
  | 0, _ => []
  | n + 1, v => BitVec.ofNat 8 (v / 256 ^ n) :: bigBytes n v
/-- The number that bytes spell, the most significant first. -/
def bigNat (b : List Byte) : Nat := b.foldl (fun a x => a * 256 + x.toNat) 0

/-- A message padded to whole blocks of 64 bytes: a 1 bit, zeros, and its length in bits. -/
def sm3Pad (m : List Byte) : List Byte :=
  m ++ [0x80] ++ List.replicate ((119 - m.length % 64) % 64) 0 ++ bigBytes 8 (8 * m.length)

/-- The words of a block. -/
def sm3Words : Nat → List Byte → List Word32
  | 0, _ => []
  | n + 1, b => BitVec.ofNat 32 (bigNat (b.take 4)) :: sm3Words n (b.drop 4)

def sm3P0 (x : Word32) : Word32 := x ^^^ x.rotateLeft 9 ^^^ x.rotateLeft 17
def sm3P1 (x : Word32) : Word32 := x ^^^ x.rotateLeft 15 ^^^ x.rotateLeft 23

/-- Expand the words of a block, the latest first, by `n` more. -/
def sm3Expand : Nat → List Word32 → List Word32
  | 0, w => w
  | n + 1, w =>
    let at_ (k : Nat) : Word32 := (w[k - 1]?).getD 0
    sm3Expand n ((sm3P1 (at_ 16 ^^^ at_ 9 ^^^ (at_ 3).rotateLeft 15) ^^^ (at_ 13).rotateLeft 7 ^^^ at_ 6) :: w)

/-- The eight words of a chaining value. -/
structure Sm3 where
  a : Word32
  b : Word32
  c : Word32
  d : Word32
  e : Word32
  f : Word32
  g : Word32
  h : Word32
  deriving DecidableEq, Repr

/-- The initial value. -/
def Sm3.init : Sm3 := ⟨0x7380166f, 0x4914b2b9, 0x172442d7, 0xda8a0600, 0xa96f30bc, 0x163138aa, 0xe38dee4d, 0xb0fb0e4e⟩

/-- Round `j` of the compression, with the expanded words Wj and Wj+4. -/
def Sm3.round (x : Sm3) (j : Nat) (w w4 : Word32) : Sm3 :=
  let early := decide (j < 16)
  let t : Word32 := if early then 0x79cc4519 else 0x7a879d8a
  let a12 := x.a.rotateLeft 12
  let ss1 := (a12 + x.e + t.rotateLeft (j % 32)).rotateLeft 7
  let ff := if early then x.a ^^^ x.b ^^^ x.c else (x.a &&& x.b) ||| (x.a &&& x.c) ||| (x.b &&& x.c)
  let gg := if early then x.e ^^^ x.f ^^^ x.g else (x.e &&& x.f) ||| (~~~x.e &&& x.g)
  let tt1 := ff + x.d + (ss1 ^^^ a12) + (w ^^^ w4)
  let tt2 := gg + x.h + ss1 + w
  ⟨tt1, x.a, x.b.rotateLeft 9, x.c, sm3P0 tt2, x.e, x.f.rotateLeft 19, x.g⟩

/-- The rounds from `j` on, one for each word that has a fourth after it. -/
def Sm3.rounds (x : Sm3) (j : Nat) : List Word32 → Sm3
  | w :: ws => match ws[3]? with
    | some w4 => Sm3.rounds (x.round j w w4) (j + 1) ws
    | none => x
  | [] => x

/-- Compress one block. -/
def Sm3.block (x : Sm3) (b : List Byte) : Sm3 :=
  let y := x.rounds 0 (sm3Expand 52 (sm3Words 16 b).reverse).reverse
  ⟨x.a ^^^ y.a, x.b ^^^ y.b, x.c ^^^ y.c, x.d ^^^ y.d, x.e ^^^ y.e, x.f ^^^ y.f, x.g ^^^ y.g, x.h ^^^ y.h⟩

/-- Compress `n` blocks. -/
def Sm3.blocks (x : Sm3) : Nat → List Byte → Sm3
  | 0, _ => x
  | n + 1, b => Sm3.blocks (x.block (b.take 64)) n (b.drop 64)

/-- The digest of some bytes, as 32 bytes. -/
def sm3Bytes (m : List Byte) : List Byte :=
  let p := sm3Pad m
  let x := Sm3.init.blocks (p.length / 64) p
  ([x.a, x.b, x.c, x.d, x.e, x.f, x.g, x.h].map (fun w => bigBytes 4 w.toNat)).flatten

/-- The digest of some bytes, byte i in bits 8i + 7 to 8i. -/
def sm3 (m : List Byte) : BitVec 256 := BitVec.ofNat 256 (bigNat (sm3Bytes m).reverse)

/-! ### SM2 -/

/-- The prime of the field. -/
def sm2P : Nat := 0xFFFFFFFEFFFFFFFFFFFFFFFFFFFFFFFFFFFFFFFF00000000FFFFFFFFFFFFFFFF
/-- The coefficients of the curve. -/
def sm2A : Nat := sm2P - 3
def sm2B : Nat := 0x28E9FA9E9D9F5E344D5A9E4BCF6509A7F39789F515AB8F92DDBCBD414D940E93
/-- The order of the base point. -/
def sm2N : Nat := 0xFFFFFFFEFFFFFFFFFFFFFFFFFFFFFFFF7203DF6B21C6052B53BBF40939D54123
/-- The base point. -/
def sm2G : Nat × Nat :=
  (0x32C4AE2C1F1981195F9904466A39C9948FE30BBFF2660BE1715A4589334C74C7,
    0xBC3736A2F4F6779C59BDCEE36B692153D0A9877CC62A474002DF32E52139F0A0)

/-- `b` to the power `e`, of which the `n` low bits count, modulo the prime. -/
def sm2Pow (b e : Nat) : Nat → Nat
  | 0 => 1
  | n + 1 =>
    let h := sm2Pow b e n
    h * h % sm2P * (if e.testBit (256 - (n + 1)) then b else 1) % sm2P

/-- The inverse modulo the prime. -/
def sm2Inv (a : Nat) : Nat := sm2Pow (a % sm2P) (sm2P - 2) 256

/-- The sum of two points; none is the point at infinity. -/
def sm2Add : Option (Nat × Nat) → Option (Nat × Nat) → Option (Nat × Nat)
  | none, q => q
  | p, none => p
  | some (x1, y1), some (x2, y2) =>
    if x1 = x2 ∧ (y1 + y2) % sm2P = 0 then none
    else
      let l := if x1 = x2 then (3 * x1 * x1 + sm2A) * sm2Inv (2 * y1) % sm2P
        else (y2 + sm2P - y1) * sm2Inv (x2 + sm2P - x1) % sm2P
      let x := (l * l + 2 * sm2P - x1 - x2) % sm2P
      some (x, (l * (x1 + sm2P - x) + sm2P - y1) % sm2P)

/-- The multiple of a point by the `n` high bits of a number of 256 bits. -/
def sm2Mul (k : Nat) (p : Option (Nat × Nat)) : Nat → Option (Nat × Nat)
  | 0 => none
  | n + 1 =>
    let q := sm2Mul k p n
    let q2 := sm2Add q q
    if k.testBit (256 - (n + 1)) then sm2Add q2 p else q2

/-- A public key is a point of the curve. -/
def sm2OnCurve (x y : Nat) : Bool :=
  decide (x < sm2P) && decide (y < sm2P) && decide (y * y % sm2P = (x * x * x + sm2A * x + sm2B) % sm2P)

/-- Whether `sig`, r then s, is a valid signature of `msg` under the public key, x then y, and the signer's identity. -/
def sm2Valid (pubkey signid msg sig : List Byte) : Bool :=
  let x := bigNat (pubkey.take 32)
  let y := bigNat (pubkey.drop 32)
  let r := bigNat (sig.take 32)
  let s := bigNat (sig.drop 32)
  let za := sm3Bytes (bigBytes 2 (8 * signid.length) ++ signid ++
    ([sm2A, sm2B, sm2G.1, sm2G.2, x, y].map (bigBytes 32)).flatten)
  let e := bigNat (sm3Bytes (za ++ msg))
  let t := (r + s) % sm2N
  if sm2OnCurve x y && decide (1 ≤ r) && decide (r < sm2N) && decide (1 ≤ s) && decide (s < sm2N) && decide (t ≠ 0) then
    match sm2Add (sm2Mul s (some sm2G) 256) (sm2Mul t (some (x, y)) 256) with
    | some (x1, _) => decide ((e + x1) % sm2N = r)
    | none => false
  else false

end Sys2Proof.Machine
end

