-- ==== Sys2Proof/Machine/Firmware.lean ====
section
/-!
DEFINITION. Firmware images and commands (R218, R219), fatal errors and the dump (R220, R221), and the two resets (R50,
R222).
-/
namespace Sys2Proof.Machine

/-! ### Spans of memory -/

/-- The parts of `n` bytes at `pa` that lie in one region each, with their places in the span. -/
def regionParts (pa n : Nat) : List (Nat × Nat × Nat) :=
  if n = 0 then []
  else (List.range ((pa + n - 1) / 2097152 - pa / 2097152 + 1)).map (fun i =>
    let lo := max pa ((pa / 2097152 + i) * 2097152)
    let hi := min (pa + n) ((pa / 2097152 + i + 1) * 2097152)
    (lo, hi - lo, lo - pa))

/-- Read a span under a key. -/
def State.spanRead (s : State) (key : BitVec 10) (o : Origin) : List (Nat × Nat × Nat) → List Byte × State
  | [] => ([], s)
  | (lo, n, _) :: ps =>
    let (_, bs, s) := s.dieRead lo n key [] o
    let (rest, s) := State.spanRead s key o ps
    (bs ++ rest, s)

/-- Write a span under a key; open Lens entries of its lines close (R60). -/
def State.spanWrite (s : State) (key : BitVec 10) (o : Origin) (bs : List Byte) (ps : List (Nat × Nat × Nat)) : State :=
  ps.foldl (fun s p =>
    let part := (bs.drop p.2.2).take p.2.1
    let (_, s) := s.dieWrite p.1 part (allBytes part.length) key [] o
    s.closeLines p.1 part.length) s

/-- The firmware's accesses, which no job makes. -/
def firmwareOrigin : Origin := { src := 0, job := 0, orig := 1 }

/-! ### Images (R218) -/

/-- A little-endian field of an image. -/
def imgField (b : List Byte) (off n : Nat) : Nat := natOfBytes ((b.drop off).take n)

/-- "SXD1FWIM" as a little-endian number. -/
def fwMagic : Nat := 0x4D49574631445853

/-- The code of the first check that an image fails, in the order of R218; 0 if it passes all. DESIGN CHOICE (log 101): bytes
beyond 256 + BODYLEN are ignored, and a body that ends early is hashed as far as it goes. -/
def imageCode (minSvn : Nat) (b : List Byte) : BitVec 8 :=
  let len := imgField b 0x18 8
  let body := (b.drop 256).take len
  let pub := (b.drop 0x40).take 64
  if imgField b 0 8 ≠ fwMagic ∨ imgField b 8 4 ≠ 1 then 1
  else if len % 64 ≠ 0 ∨ len < 65536 ∨ 33554432 < len then 2
  else if sm3 pub ≠ Config.fusedKeyDigest then 3
  else if !(sm2Valid pub ((b.drop 0x80).take 16) (b.take 0xC0) ((b.drop 0xC0).take 64)) then 5
  else if imgField b 0x10 4 < minSvn then 6
  else if (sm3 body).toNat ≠ imgField b 0x20 32 then 4
  else 0

/-- The code of a stored image: the image that the part was delivered with passes (log 21). -/
def Firmware.codeOf (f : Firmware) (i : Nat) : BitVec 8 :=
  match f.flash[i]? with
  | some (some b) => imageCode f.minSvn.toNat b
  | some none => 0
  | none => 1

/-- The security version of a stored image. -/
def Firmware.svnOf (f : Firmware) (i : Nat) : Nat :=
  match f.flash[i]? with | some (some b) => imgField b 0x10 4 | _ => 0

/-- The boot check (R218, R219): the newer image first, the other second; the minimum rises to the image's SVN. DESIGN CHOICE
(log 101): FWSTAT shows the code of the image tried last, so 0 if either passes. -/
def Firmware.boot (f : Firmware) : Firmware × BitVec 8 :=
  let start (i : Nat) : Firmware :=
    { f with running := some i, cmd := none, minSvn := BitVec.ofNat 32 (max f.minSvn.toNat (f.svnOf i)) }
  let other := 1 - f.newer
  if f.codeOf f.newer = 0 then (start f.newer, 0)
  else if f.codeOf other = 0 then (start other, 0)
  else ({ f with running := none, cmd := none }, f.codeOf other)

/-- FWSTAT and DEVSTAT after a boot check (Table 16). -/
def State.booted (s : State) : State :=
  let (f, code) := s.fw.boot
  let s := { s with fw := f }
  let s := s.setReg 0x508
    (BitVec.ofNat 64 (s.fwVersion.1 * 2 ^ 32 + code.toNat * 2 ^ 24 + (if code = 0 then 0 else 2)))
  s.setReg 0x520 (if f.running.isSome then 0 else 2)

/-! ### Commands (R219) -/

/-- The staged image. -/
def State.staged (s : State) : List Byte × State :=
  s.spanRead 0 firmwareOrigin (regionParts (bits (s.reg 0x510) 51 12 * 4096) (bits (s.reg 0x518) 31 0))

/-- A command is refused with code 7. -/
def State.fwRefused (s : State) : State := s.setReg 0x508 (setBits (setBits (s.reg 0x508) 24 8 7) 1 1 1)

/-- INSTALL writes a passing image over the image not running; in RECOVERY it starts it at once (R219). In FATAL, which only a
reset leaves (R220), it starts nothing. -/
def State.fwInstall (s : State) (b : List Byte) : State :=
  let i := (match s.fw.running with | some r => 1 - r | none => 1 - s.fw.newer)
  let f := { s.fw with flash := listSet s.fw.flash i (some b), newer := i }
  if bits (s.reg 0x520) 1 0 ≠ 2 then
    let s := { s with fw := f }
    s.setReg 0x508 (setBits (s.reg 0x508) 2 1 1)
  else
    let s := { s with fw := { f with running := some i, minSvn := BitVec.ofNat 32 (max f.minSvn.toNat (imgField b 0x10 4)) } }
    let s := s.setReg 0x520 (setBits (s.reg 0x520) 0 2 0)
    s.setReg 0x508 (setBits (s.reg 0x508) 32 32 s.fwVersion.1)

/-- A write to FWCMD: while BUSY, or with OP 11, it is refused. -/
def State.fwWrite (s : State) (v : Word) : State :=
  let op := bits v 1 0
  if op = 0 then (if s.fw.cmd.isSome then s else s.setReg 0x500 0)
  else if s.fw.cmd.isSome ∨ op = 3 then s.fwRefused
  else
    let s := s.setReg 0x500 (v &&& 3)
    let (b, s) := s.staged
    let code := imageCode s.fw.minSvn.toNat b
    let s := if op = 2 ∧ code = 0 then s.fwInstall b else s
    { s with fw := { s.fw with cmd := some (BitVec.ofNat 2 op, code) } }

/-- VERIFY: FWCMD with OP 01. -/
def execVerify (v : Word) (s : State) : Result := if bits v 1 0 = 1 then .next (s.fwWrite v) else .next s
/-- INSTALL: OP 10. -/
def execInstall (v : Word) (s : State) : Result := if bits v 1 0 = 2 then .next (s.fwWrite v) else .next s

/-- FW_COMMAND_COMPLETE: the command's code stands in FWSTAT and BUSY clears. -/
def execFwCommandComplete (s : State) : Result :=
  match s.fw.cmd with
  | none => .next s
  | some (_, code) =>
    let s := s.setReg 0x508 (setBits (setBits (s.reg 0x508) 24 8 code.toNat) 1 1 (if code = 0 then 0 else 1))
    .next { s with fw := { s.fw with cmd := none } }

/-- A write to DUMPSTAT with bit 0 set clears VALID and TRUNC. -/
def State.dumpClear (s : State) (v : Word) : State :=
  if v.getLsbD 0 then s.setReg 0x538 (setBits (s.reg 0x538) 0 2 0) else s

/-- DUMPSTAT_CLEAR (R219). -/
def execDumpstatClear (v : Word) (s : State) : Result := .next (s.dumpClear v)

/-! ### Fatal errors (R220, R221) -/

/-- `n` management registers from an offset on. -/
def State.regsFrom (s : State) (off n : Nat) : List Word := (List.range n).map (fun i => s.mgmtRead (off + 8 * i))

/-- A wave in the dump's wave table: JOB, GRID, GANG, RANK and mode; SPC, of the handler's fragment or the lowest live one;
LPC; TCAUSE. -/
def Wave.dumpWords (w : Wave) : List Word :=
  let spc := match (if w.trap.sup then w.frags.get? w.trap.slot else none), w.frags with
    | some f, _ => f.spc
    | none, (_, f) :: _ => f.spc
    | none, [] => 0
  [BitVec.ofNat 64 (w.ident.job * 2 ^ 54 + w.ident.grid % 2 ^ 32 * 2 ^ 22 + w.ident.gang % 2 ^ 8 * 2 ^ 14 +
      w.ident.rank % 2 ^ 9 * 2 ^ 5 + (if w.trap.sup then 1 else 0)),
    spc, w.lane.lpc, w.trap.tcause]

/-- A convoy in the dump: its number, grid, SLIP and PAT, its high-water mark, and its members by number: position, and
whether parked or held. -/
def State.convoyDump (s : State) (n : Nat) (c : Convoy) : List Word :=
  [BitVec.ofNat 64 n, BitVec.ofNat 64 c.grid, c.slip.setWidth 64, c.pat.setWidth 64, c.hwm, BitVec.ofNat 64 c.mem.length] ++
  (c.mem.map (fun m => [BitVec.ofNat 64 m.1, m.2.pos,
    BitVec.ofNat 64 ((if m.2.parked then 2 else 0) + (if s.heldMember c m.2 then 1 else 0))])).flatten

/-- The words of a section of the dump (Table 15). DESIGN CHOICE (log 85): the rules give no layout within the sections but
the 32 bytes of a wave; a section holds its registers in ascending offset, and what has none in the order named. -/
def State.dumpWords (s : State) (type : Nat) : List Word :=
  match type with
  | 1 => s.regsFrom 0x438 3 ++ s.regsFrom 0x800 256
  | 2 => ((List.range (Config.cores * Config.slots)).map (fun k => match s.waves.get? k with
      | some w => w.dumpWords
      | none => [0, 0, 0, 0])).flatten
  | 3 => s.regsFrom 0x420000 512 ++ s.regsFrom 0x421000 7 ++
      (s.sched.deps.map (fun d => [BitVec.ofNat 64 d.1, s.mgmtRead (0x440000 + 8 * d.1)])).flatten
  | 4 => s.regsFrom 0x280000 65536 ++ s.regsFrom 0x300000 131072
  | 5 => (s.convoys.map (fun c => s.convoyDump c.1 c.2)).flatten ++ s.regsFrom 0x2000 96
  | 6 => s.regsFrom 0x100000 32768
  | _ => []

/-- The bytes of a section: those of its words; the firmware's trace is 64 KiB that no rule describes. -/
def State.dumpSection (s : State) (type : Nat) : List Byte × State :=
  if type = 7 then s.freeBytes 65536 else (bytesOfWords (s.dumpWords type), s)

/-- The sections that fit a region of `room` bytes whole, in ascending TYPE: each with its type and bytes. `k` is the
number taken so far and `used` their bytes. -/
def State.dumpSections (s : State) (room : Nat) : List Nat → Nat → Nat → List (Nat × List Byte) × State
  | [], _, _ => ([], s)
  | t :: ts, k, used =>
    let (bs, s) := s.dumpSection t
    if 0x40 + 16 * (k + 1) + used + bs.length ≤ room then
      let (r, s) := s.dumpSections room ts (k + 1) (used + bs.length)
      ((t, bs) :: r, s)
    else ([], s)

/-- The directory of a dump from an offset on. -/
def dumpDir : Nat → List (Nat × List Byte) → List Word
  | _, [] => []
  | off, (t, bs) :: r =>
    BitVec.ofNat 64 (t * 2 ^ 48 + bs.length % 2 ^ 32) :: BitVec.ofNat 64 off :: dumpDir (off + bs.length) r

/-- Write the dump (R221): header, directory, and the sections that fit. -/
def State.writeDump (s : State) (src : BitVec 8) (info : BitVec 56) : State :=
  let room := bits (s.reg 0x530) 31 0 * 65536
  let base := bits (s.reg 0x528) 51 16 * 65536
  if room = 0 then s
  else
    let seq := (bits (s.reg 0x538) 31 16 + 1) % 2 ^ 16
    let (secs, s) := s.dumpSections room [1, 2, 3, 4, 5, 6, 7] 0 0
    let head := 0x40 + 16 * secs.length
    let body := (secs.map (fun x => x.2)).flatten
    let total := head + body.length
    let words : List Word := [BitVec.ofNat 64 (2 ^ 48 + secs.length * 2 ^ 32 + total % 2 ^ 32), s.clk,
      BitVec.ofNat 64 (src.toNat * 2 ^ 56 + info.toNat), BitVec.ofNat 64 seq, 0, 0, 0, 0] ++ dumpDir head secs
    let s := s.spanWrite 0 firmwareOrigin (bytesOfWords words ++ body) (regionParts base total)
    s.setReg 0x538 (BitVec.ofNat 64 (total % 2 ^ 32 * 2 ^ 32 + seq * 2 ^ 16 + (if secs.length < 7 then 2 else 0) + 1))

/-- FATAL_ERROR (R220): issue and the engines stop, the dump is written, the host fatal interrupt is raised. -/
def execFatalError (src : BitVec 8) (info : BitVec 56) (s : State) : Result :=
  let s := s.setReg 0x520 (BitVec.ofNat 64 (src.toNat * 2 ^ 8 + 1))
  let s := s.writeDump src info
  .next { s with host := { s.host with fatal := s.host.fatal + 1 } }

/-! ### Resets (R50, R222) -/

/-- The registers that a warm reset keeps (Table 16). -/
def keptWarm (off : Nat) : Bool :=
  [0x420, 0x430, 0x438, 0x440, 0x448, 0x450, 0x528, 0x530, 0x538].contains off ||
    (decide (0x800 ≤ off) && decide (off < 0x1000)) ||
    (decide (0x1000 ≤ off) && decide (off < 0x1180) && off % 0x20 == 0x18)

/-- WARM_RESET: stack contents, slot-0 regions, retired regions, repair maps, the point in force and the error log stay;
keys are zeroized; every other register takes its reset value and the image is checked again. -/
def State.warm (s : State) : State :=
  let kept := (s.mreg.filter (fun e => keptWarm e.1)).reverse
  let r := kept.foldl (fun (r : State) e => r.setReg e.1 e.2) State.reset
  let mp := setBits (setBits (s.reg 0x428 &&& maskBits 7 5) 2 1 1) 0 2 0
  let r := (r.setReg 0x428 mp).setReg 0x420 (BitVec.ofNat 64 (bits (s.reg 0x428) 7 6))
  let live := s.ctl.live.mapAll (fun _ e => if e.key = 0 then e else { e with live := false })
  let r := { r with
    mem := s.mem
    ctl := { r.ctl with live := live, routes := s.ctl.routes, repairs := s.ctl.repairs, flaws := s.ctl.flaws }
    host := { s.host with irqFault := false, reply := none, peer := none }
    fw := { s.fw with cmd := none }
    agenda := s.agenda
    free := s.free }
  r.booted

/-- WARM_RESET. -/
def execWarmReset (s : State) : Result := .next s.warm

/-- COLD_RESET: nothing of the memory side is kept; training gives the ECC mode, the repair maps, the device number and
the routes. DESIGN CHOICE (log 84): the retest of the regions in training (R50) leaves every region not retired; no rule says
whether it can retire one. -/
def State.cold (s : State) (t : Training) : State :=
  let r := State.reset
  let r := r.setReg 0x428 (if t.eccm then 0x20 else 0)
  let r := r.setReg 0x450 (t.num.setWidth 64)
  let r := t.reps.foldl (fun (r : State) e => if e.1 < 12 then r.setReg (eyeReg e.1 0x18) e.2 else r) r
  let r := { r with
    ctl := { r.ctl with routes := t.routes }
    host := { s.host with irqFault := false, reply := none, peer := none }
    fw := { s.fw with cmd := none }
    agenda := s.agenda
    free := s.free }
  r.booted

/-- COLD_RESET. -/
def execColdReset (training : Training) (s : State) : Result := .next (s.cold training)

end Sys2Proof.Machine
end

