-- ==== Sys2Proof/Machine/Host.lean ====
section
/-!
DEFINITION. What the host and other devices do (R10, R12, R13, R23, R24, R151, R183, R184, R188, R204, R215, R333, R406):
register writes, job life, queues, the debugger, and accesses to device memory.
-/
namespace Sys2Proof.Machine

/-! ### Jobs (R24) -/

/-- Set JOBCTL with a state and ERR. -/
def State.setJobctl (s : State) (job st : Nat) (err : Bool) : State :=
  s.setReg (jobReg job 0x88) (BitVec.ofNat 64 (st + (if err then 16 else 0)))

/-- A write to JOBCTL: CMD 00 changes nothing; what is not accepted sets ERR and changes nothing else. -/
def State.jobWrite (s : State) (job : Nat) (v : Word) : State :=
  let st := s.jobState job
  let cmd := bits v 3 2
  if cmd = 0 then s
  else if bits v 63 5 ≠ 0 then s.setJobctl job st true
  else if cmd = 1 ∧ (st = 0 ∨ st = 3) then
    ((s.setJobctl job 1 false).setReg (jobReg job 0x70) 0).setReg (jobReg job 0x78) 0
  else if cmd = 2 ∧ st = 1 then
    ((s.setJobctl job 1 false).endJob job 2).setEndCause job 0 4 0 0
  else s.setJobctl job st true

/-- CREATE: JOBCTL with CMD 01. -/
def execCreate (job : Nat) (v : Word) (s : State) : Result :=
  if job < 1024 ∧ bits v 3 2 = 1 then .next (s.jobWrite job v) else .next s
/-- END: CMD 10. -/
def execEndJob (job : Nat) (v : Word) (s : State) : Result :=
  if job < 1024 ∧ bits v 3 2 = 2 then .next (s.jobWrite job v) else .next s

/-- Whether something of a job remains on the device (R24). -/
def State.jobRemains (s : State) (job : Nat) : Bool :=
  s.waves.any (fun e => e.2.ident.job == job) || s.away.any (fun e => e.2.ident.job == job) ||
    s.engines.any (fun e => e.2.ident.job == job) || s.sched.grids.any (fun e => e.2.job == job) ||
    s.clusters.any (fun c => c.2.ships.any (fun x => x.2.job == job)) ||
    s.cores.any (fun c => c.2.rdiv.any (fun r => r.2.job == job))

/-- JOB_ENDED: an ENDING job of which nothing remains is ENDED. -/
def execJobEnded (job : Nat) (s : State) : Result :=
  if s.jobState job = 2 ∧ !s.jobRemains job then .next (s.setJobState job 3) else .next s

/-! ### Queues (R183) and counters (R188) -/

/-- A write to QCFG: while EN is 1 only clearing EN acts, and changes EN alone; setting EN empties the ring's counts. Either way
no turn has skipped the queue's next head (R190). -/
def State.qcfgWrite (s : State) (q : Nat) (v : Word) : State :=
  let old := s.reg (queueReg q 0)
  if old.getLsbD 0 then (if v.getLsbD 0 then s else (s.setReg (queueReg q 0) (setBits old 0 1 0)).clearSkips q)
  else
    let s := (s.setReg (queueReg q 0) (v &&& maskBits 15 0)).clearSkips q
    if v.getLsbD 0 then (s.setReg (queueReg q 0x18) 0).setReg (queueReg q 0x20) 0 else s

/-- A write to QBASE or QSIZE: ignored while EN is 1. -/
def State.qringWrite (s : State) (q o : Nat) (v : Word) : State :=
  if (s.reg (queueReg q 0)).getLsbD 0 then s
  else s.setReg (queueReg q o) (v &&& (if o = 8 then maskBits 51 12 else maskBits 31 0))

/-- QUEUE_ENABLE: QCFG with EN 1. -/
def execQueueEnable (q : Nat) (v : Word) (s : State) : Result :=
  if q < 64 ∧ v.getLsbD 0 then .next (s.qcfgWrite q v) else .next s
/-- QUEUE_DISABLE: QCFG with EN 0. -/
def execQueueDisable (q : Nat) (v : Word) (s : State) : Result :=
  if q < 64 ∧ !v.getLsbD 0 then .next (s.qcfgWrite q v) else .next s

/-- QUEUE_APERTURE_STORE (R184): a store of the host to a queue's page. -/
def execQueueApertureStore (q off : Nat) (bytes : List Byte) (s : State) : Result :=
  if q < 64 then .next (s.queueStore q off bytes none) else .next s

/-- DEPCNT_FREE (R188). -/
def execDepcntFree (c : Nat) (s : State) : Result := .next (s.depFree c)

/-! ### The debugger (R204, R333) -/

/-- Halt a wave at its boundary: its membership parks (R64). A wave with an unresolved prediction halts at the resolution
(R177). -/
def State.halt (s : State) (uid : Nat) : State :=
  match s.findWave uid with
  | none => s
  | some (core, slot, _) => s.haltResolved core slot

/-- Release a halted wave: one halted at BKPT goes on at the next word. -/
def State.release (s : State) (uid : Nat) : State :=
  match s.findWave uid with
  | none => s
  | some (core, slot, w) =>
    if !w.sched.halted then s
    else
      let w := (match w.sched.atBkpt with | some n => w.advance n 4 | none => w)
      (s.setWave core slot { w with sched := { w.sched with halted := false, atBkpt := none } }).unpark uid

/-- The resident waves of a job. -/
def State.jobWaves (s : State) (job : Nat) : List Nat :=
  (s.waves.filter (fun e => e.2.ident.job == job)).map (fun e => e.2.ident.uid)

/-- A write to DBGCTL: HALT 1 halts every wave of the job, HALT 0 releases every halted wave. HALTED shows whether some
wave is halted. -/
def State.dbgWrite (s : State) (job : Nat) (v : Word) : State :=
  let off := jobReg job 0x80
  let ws := s.jobWaves job
  if v.getLsbD 1 then
    let some_ := s.waves.any (fun e => e.2.ident.job == job && e.2.sched.halted)
    ws.foldl (fun s u => s.halt u) (s.setReg off ((v &&& 3) ||| (if some_ then 4 else 0)))
  else (ws.foldl (fun s u => s.release u) s).setReg off (v &&& 1)

/-- DEBUG_HALT: DBGCTL with HALT 1. -/
def execDebugHalt (job : Nat) (v : Word) (s : State) : Result :=
  if job < 1024 ∧ v.getLsbD 1 then .next (s.dbgWrite job v) else .next s
/-- DEBUG_RELEASE: HALT 0. -/
def execDebugRelease (job : Nat) (v : Word) (s : State) : Result :=
  if job < 1024 ∧ !v.getLsbD 1 then .next (s.dbgWrite job v) else .next s

/-! ### Register writes (R23, R215, R406) -/

/-- A host write of a management register: those with effects of their own, then the plain ones; others ignore it. -/
def State.hostReg (s : State) (off : Nat) (v : Word) : State :=
  if off = 0x008 then s.tlbWrite v
  else if off = 0x140 then s.keyWrite v
  else if off = 0x400 then s.lmWrite v
  else if off = 0x420 then s.mpointWrite v
  else if off = 0x500 then s.fwWrite v
  else if off = 0x538 then s.dumpClear v
  else if 0x1000 ≤ off ∧ off < 0x1180 ∧ off % 0x20 = 0x10 then s.eyeWrite ((off - 0x1000) / 0x20) v
  else if 0x100000 ≤ off ∧ off < 0x140000 ∧ off % 0x100 = 0x80 then s.dbgWrite ((off - 0x100000) / 0x100) v
  else if 0x100000 ≤ off ∧ off < 0x140000 ∧ off % 0x100 = 0x88 then s.jobWrite ((off - 0x100000) / 0x100) v
  else if 0x420000 ≤ off ∧ off < 0x421000 ∧ off % 0x40 = 0 then s.qcfgWrite ((off - 0x420000) / 0x40) v
  else if 0x420000 ≤ off ∧ off < 0x421000 ∧ (off % 0x40 = 8 ∨ off % 0x40 = 0x10) then
    s.qringWrite ((off - 0x420000) / 0x40) (off % 0x40) v
  else if 0x440000 ≤ off ∧ off < 0x4C0000 ∧ off % 8 = 0 then
    (if v.toNat % 2 ^ 32 = 0 then s.depFree ((off - 0x440000) / 8) else s)
  else s.mgmtPlain off v

/-- A host write that goes nowhere is discarded and logged (R12, R406). -/
def State.hostDrop (s : State) : State := { s with host := { s.host with drops := s.host.drops + 1 } }

/-- A host write in the management window: an aligned 8-byte word (R406). -/
def State.hostMgmt (s : State) (off : Nat) (bytes : List Byte) : State :=
  if bytes.length = 8 ∧ off % 8 = 0 then s.hostReg off (wordOfBytes bytes) else s.hostDrop

/-- REGISTER_WRITE (R23). -/
def execRegisterWrite (off : Nat) (bytes : List Byte) (s : State) : Result := .next (s.hostMgmt off bytes)

/-! ### Host accesses (R12) -/

/-- Read device memory for the host, each part under its region's key; none: an uncorrectable error (R43). -/
def State.hostRead (s : State) (ecc : Ecc) : List (Nat × Nat × Nat) → Option (List Byte) × State
  | [] => (some [], s)
  | (lo, n, _) :: ps =>
    let (st, bs, s) := s.dieRead lo n (s.liveEntry (regionOf lo)).key ecc .host
    let (rest, s) := State.hostRead s ecc ps
    (if st = .poison then none else rest.map (bs ++ ·), s)

/-- What a host read returns; none is an error completion. -/
def State.hostData (s : State) (off size : Nat) (ecc : Ecc) : Option (List Byte) × State :=
  if off + size ≤ s.populated then s.hostRead ecc (regionParts off size)
  else if 0x20000000000 ≤ off ∧ off + size ≤ 0x20000040000 then (some (List.replicate size 0), s)
  else if 0x20000100000 ≤ off ∧ off + size ≤ 0x20000110000 then (some (s.lightBytes (off - 0x20000100000) size), s)
  else if 0x20001000000 ≤ off ∧ off + size ≤ 0x20002000000 then
    let o := off - 0x20001000000
    let bs := (List.range size).map (fun i => ((s.mgmtBytes (o + i) 1).head?).getD 0)
    let eyes := (List.range 12).filter (fun k => decide (o < eyeReg k 8) && decide (eyeReg k 0 < o + size))
    (some bs, eyes.foldl (fun s k => s.eyeRead k) s)
  else (none, s)

/-- HOST_MEMORY_READ (R12). -/
def execHostMemoryRead (off size : Nat) (ecc : Ecc) (s : State) : Result :=
  let (r, s) := s.hostData off size ecc
  .next { s with host := { s.host with reply := some r } }

/-- A host write to device memory: each part under its region's key, with its crossing notices (R60). -/
def State.hostStore (s : State) (off : Nat) (bytes : List Byte) : State :=
  (regionParts off bytes.length).foldl (fun s p =>
    let part := (bytes.drop p.2.2).take p.2.1
    let (_, s) := s.dieWrite p.1 part (allBytes part.length) (s.liveEntry (regionOf p.1)).key [] .host
    s.closeLines p.1 part.length) s

/-- HOST_MEMORY_WRITE (R12, R13): performed in the order of arrival on its module. -/
def execHostMemoryWrite (off : Nat) (bytes : List Byte) (uciemod : Nat) (s : State) : Result :=
  let _ := uciemod
  let n := bytes.length
  if off + n ≤ s.populated then .next (s.hostStore off bytes)
  else if 0x20000000000 ≤ off ∧ off + n ≤ 0x20000040000 then
    let o := off - 0x20000000000
    .next (s.queueStore (o / 4096) (o % 4096) bytes none)
  else if 0x20000100000 ≤ off ∧ off + n ≤ 0x20000110000 then .next s
  else if 0x20001000000 ≤ off ∧ off + n ≤ 0x20002000000 then .next (s.hostMgmt (off - 0x20001000000) bytes)
  else .next s.hostDrop

/-! ### Accesses from peers (R10, R26, R151) -/

/-- PEER_ACCESS_ARRIVAL: performed under the key it carries, ordered like a host access; its status goes back to the
issuing device, which writes the record of a mismatch. -/
def execPeerAccessArrival (acc : PeerAccess) (s : State) : Result :=
  let o : Origin := .host
  let (st, bs, s) : Status × List Byte × State := (match acc.op with
    | .read n => s.dieRead acc.pa n acc.key acc.ecc o
    | .write bytes =>
      let (st, s) := s.dieWrite acc.pa bytes (allBytes bytes.length) acc.key acc.ecc o
      (st, [], s.closeLines acc.pa bytes.length)
    | .atomic aop typ x c =>
      let (st, old, s) := s.dieAtomic acc.pa (aop.toNat % 16) typ x c acc.key acc.ecc o
      (st, bytesOfWord old, s.closeLine acc.pa))
  .next { s with host := { s.host with peer := some (st, bs) } }

end Sys2Proof.Machine
end

