-- ==== Sys2Proof/Machine/Ends.lean ====
section
/-!
DEFINITION. The watchdog (R211, R212) and the limit on a wave that does not reach a blocking point (R207).
-/
namespace Sys2Proof.Machine

/-- WATCHDOG (R212): a grid's count of clocks in which all its waves wait internally has reached the period: WDFIRE counts,
and every waiting wave takes WATCHDOG. -/
def execWatchdog (grid : Nat) (s : State) : Result :=
  match s.sched.grids.get? grid with
  | none => .next s
  | some g =>
    let p := s.wdPeriod g.job
    if p = 0 ∨ g.wd < p then .next s
    else
      let fire (w : Wave) : Wave :=
        if w.ident.grid = grid ∧ !(w.work.pending.any (fun x => x.cause == 0x09)) then
          { w with work := { w.work with pending := w.work.pending ++ [⟨0x09, BitVec.ofNat 64 p⟩] } }
        else w
      let s := s.bump (jobReg g.job 0x70)
      let s := { s with waves := s.waves.mapAll (fun _ w => fire w) }
      .next (s.updGrid grid (fun g => { g with wd := 0 }))

/-- A wave stands where it can be evicted (R171, R206): every live fragment at a blocking point or an RCV, or in a
handler the handler's fragment at a blocking point; every lane instruction of its active queue has completed. -/
def Wave.atStop (w : Wave) : Bool :=
  w.laneAll.isEmpty && w.spec.isEmpty && !w.trapHeld &&
    (if w.trap.sup then
      (match w.frags.get? w.trap.slot with | some f => w.blocking f | none => false)
    else w.frags.any (fun e => w.blocking e.2) && w.frags.all (fun e => w.blocking e.2 || e.2.rcv.isSome))

/-- SLICECEIL in force (R207). -/
def State.sliceCeil (s : State) : Nat := max 4096 (bits (s.reg 0x421030) 31 0)

/-- SLICEOVER (R207): a chosen wave has not reached a blocking point within SLICECEIL clocks of the choice. -/
def execSliceover (core slot : Nat) (s : State) : Result :=
  match s.wave? core slot with
  | none => .next s
  | some w =>
    if !s.gridChosen w.ident.grid || w.atStop || decide (w.sched.overRun < s.sliceCeil) || w.sched.overTrap.isSome ||
        w.work.pending.any (fun p => p.cause == 0x08) then .next s
    else
      let p : Pending := ⟨0x08, BitVec.ofNat 64 w.sched.overRun⟩
      .next (s.setWave core slot { w with work := { w.work with pending := w.work.pending ++ [p] } })

/-- SLICEOVER_END (R207): SLICECEIL clocks after the trap the wave has still not reached a blocking point: its grid ends. -/
def execSliceoverEnd (core slot : Nat) (s : State) : Result :=
  match s.wave? core slot with
  | none => .next s
  | some w =>
    match w.sched.overTrap with
    | none => .next s
    | some n =>
      if n < s.sliceCeil ∨ w.atStop then .next s else .next (s.forcedEnd w.ident core slot 3 0x08)

end Sys2Proof.Machine
end

