-- ==== Sys2Proof/Machine/Save.lean ====
section
/-!
DEFINITION. What an eviction saves and a resume restores of a wave: liveness records (R208, R209) and the context image
(R210).
-/
namespace Sys2Proof.Machine

/-! ### Liveness records (R208, R209) -/

/-- What an eviction saves: the registers by bit, groups of eight vector registers, predicates, ranges of scratch. -/
structure Live where
  full   : Bool
  /-- VA of the record used for the first live slot -/
  recVa  : Nat
  scl    : BitVec 192
  vec    : BitVec 32
  pred   : BitVec 16
  ranges : List (Nat × Nat)
  deriving DecidableEq, Repr

/-- The wave for whose eviction the records are read. -/
structure Evictee where
  core : Nat
  slot : Nat
  uid  : Nat
  job  : Nat
  deriving DecidableEq, Repr

/-- A full save. -/
def Live.all : Live := ⟨true, 0, BitVec.allOnes 192, BitVec.allOnes 32, BitVec.allOnes 16, []⟩

/-- The union of two fragments' records. -/
def Live.join (a b : Live) : Live :=
  if a.full || b.full then .all
  else ⟨false, a.recVa, a.scl ||| b.scl, a.vec ||| b.vec, a.pred ||| b.pred, a.ranges ++ b.ranges⟩

/-- A range of a record (Table 5): first byte and length; none if it is malformed or leaves the allocation. -/
def liveRange (len : Nat) (w : Word) : Option (Nat × Nat) :=
  let off := bits w 41 18
  let n := bits w 17 0 * 128
  if bits w 63 42 ≠ 0 ∨ off % 128 ≠ 0 ∨ n = 0 ∨ 131072 * 128 < n ∨ len < off + n then none else some (off, n)

/-- The first five words of a record for an SPC (Table 5): none if they are malformed. -/
def liveHead (va : Nat) (spc : Word) (ws : List Word) : Option Live :=
  let w4 := wordAt ws 4
  if wordAt ws 0 ≠ spc ∨ (wordAt ws 1).getLsbD 0 ∨ w4.getLsbD 16 ∨ bits w4 7 0 ≠ 0 then none
  else some ⟨false, va, wordAt ws 3 ++ wordAt ws 2 ++ wordAt ws 1, w4.extractLsb' 32 32, w4.extractLsb' 16 16, []⟩

/-- Read words of the global window for the eviction of a wave (R209): none while a walk or a port keeps it waiting; `some none`
where a read fails. -/
def State.liveWords (s : State) (r : Evictee) (va : Nat) : Nat → Option (Option (List Word)) × State
  | 0 => (some (some []), s)
  | n + 1 =>
    if windowOf va ≠ .global then (some none, s)
    else
      match s.xlateNow r.core r.slot r.job va 0 false (.save r.uid) with
      | (.miss, s) => (none, s)
      | (.fault _ _ _, s) => (some none, s)
      | (.ok pa leaf, s) =>
        if !s.portsClear (dieOf r.core) pa 8 then (none, s)
        else
          let (st, bs, s) := s.dieRead pa 8 (BitVec.ofNat 10 (bits leaf 60 51)) []
            { src := dieOf r.core, job := r.job, orig := 0 }
          if !st.good then (some none, s)
          else
            match s.liveWords r (va + 8) n with
            | (some (some ws), s) => (some (some (wordOfBytes bs :: ws)), s)
            | x => x

/-- Find the record of an SPC among the index entries from `lo` up to `hi`, which ascend (R208). -/
def State.liveFind (s : State) (r : Evictee) (tab : Nat) (spc : Word) : Nat → Nat → Nat → Option (Option Nat) × State
  | 0, _, _ => (some none, s)
  | fuel + 1, lo, hi =>
    if hi ≤ lo then (some none, s)
    else
      let mid := (lo + hi) / 2
      match s.liveWords r (tab + 16 + 16 * mid) 2 with
      | (none, s) => (none, s)
      | (some (some [k, p]), s) =>
        if k = spc then (some (if bits p 63 57 ≠ 0 ∨ bits p 2 0 ≠ 0 then none else some p.toNat), s)
        else if spc < k then s.liveFind r tab spc fuel lo mid
        else s.liveFind r tab spc fuel (mid + 1) hi
      | (some _, s) => (some none, s)

/-- The record of a fragment's SPC, or a full save (R209); none while a read waits. -/
def State.liveOf (s : State) (r : Evictee) (grid len : Nat) (spc : Word) : Option Live × State :=
  let full (p : Option (Option (List Word)) × State) : Option Live × State := (p.1.map (fun _ => .all), p.2)
  match s.liveWords r (s.lbdir grid + 8) 1 with
  | (some (some [t]), s) =>
    let tab := bits t 56 4 * 16
    if tab = 0 then (some .all, s)
    else
      match s.liveWords r tab 1 with
      | (some (some [n]), s) =>
        match s.liveFind r tab spc 33 0 (bits n 31 0) with
        | (none, s) => (none, s)
        | (some none, s) => (some .all, s)
        | (some (some va), s) =>
          match s.liveWords r va 5 with
          | (some (some ws), s) =>
            match liveHead va spc ws with
            | none => (some .all, s)
            | some l =>
              match s.liveWords r (va + 40) (bits (wordAt ws 4) 15 8) with
              | (some (some rs), s) =>
                if rs.all (fun r => (liveRange len r).isSome) then
                  (some { l with ranges := rs.filterMap (liveRange len) }, s)
                else (some .all, s)
              | x => full x
          | x => full x
      | x => full x
  | x => full x

/-- What an eviction of a wave saves: the union over its live fragments; none while a read waits. -/
def State.liveWave (s : State) (core slot : Nat) (w : Wave) : Option Live × State :=
  let len := (s.gangLen w.ident.grid w.ident.gang).getD 0
  let r : Evictee := ⟨core, slot, w.ident.uid, w.ident.job⟩
  match w.frags with
  | [] => (some .all, s)
  | e :: es =>
    es.foldl (fun (p : Option Live × State) f =>
      let (l, s) := p.2.liveOf r w.ident.grid len f.2.spc
      ((match p.1, l with | some a, some b => some (a.join b) | _, _ => none), s))
      (s.liveOf r w.ident.grid len e.2.spc)

/-! ### Writing the context image (R210) -/

/-- A part of an image: its offset and bytes. -/
abbrev Part := Nat × List Byte

/-- Replace a part of some bytes. -/
def overlay (base : List Byte) (p : Part) : List Byte := base.take p.1 ++ p.2 ++ base.drop (p.1 + p.2.length)

/-- A mask as two words, low lanes first. -/
def maskWords (m : Mask) : List Word := [m.extractLsb' 0 64, m.extractLsb' 64 64]

/-- Words of a sparse file of 64-bit registers. -/
def sparseWords (f : Sparse 64) (lo n : Nat) : List Word := (List.range n).map (fun i => f.get (lo + i))

/-- COUNTS of an image. -/
def State.countsWord (s : State) (w : Wave) : Word :=
  BitVec.ofNat 64 (min 63 w.ldCount * 2 ^ 18 + min 63 w.stCount * 2 ^ 12 + min 63 (s.cpCount w.ident.uid) * 2 ^ 6 +
    min 63 w.tlCount)

/-- The header (Table 7). -/
def Wave.header (w : Wave) (core slot : Nat) (epoch : BitVec 8) (l : Live) : List Word :=
  [BitVec.ofNat 64 (2 ^ 56 + (if w.trap.sup then 2 ^ 51 else 0) + (if l.full then 2 ^ 50 else 0) + epoch.toNat * 2 ^ 40 +
      slot * 2 ^ 33 + core * 2 ^ 25),
   BitVec.ofNat 64 (w.ident.grid % 2 ^ 32 * 2 ^ 32 + w.ident.gang * 2 ^ 24 + w.ident.rank * 2 ^ 15 + w.ident.job),
   BitVec.ofNat 64 (if l.full then 0 else l.recVa),
   BitVec.ofNat 64 (w.vcount / 8 * 2 ^ 32 + ctxSize (w.vcount / 8)),
   0,
   BitVec.ofNat 64 w.stack.length,
   BitVec.ofNat 64 (min 64 w.trap.frozen.length),
   BitVec.ofNat 64 w.work.red.length]

/-- Special registers and trap state; `lim`: CVSLIP and CVPAT as they read. -/
def Wave.ctxSpecial (w : Wave) (lim : BitVec 16 × BitVec 32) (counts : Word) : List Part :=
  [(0x40, bytesOfWords [w.cv.pos, lim.1.setWidth 64, lim.2.setWidth 64, w.work.treesel, w.work.trtime, counts,
      w.hist.setWidth 64, w.mat.word]),
   (0x100, bytesOfWords ([w.trap.tcause, w.trap.tval, w.trap.tspc, w.trap.tlpc] ++ maskWords w.trap.lfmask ++
      [if w.trap.sup then 1 else 0])),
   (0x140, bytesOfWords (sparseWords w.trap.h 0 16))]

/-- A fragment slot, and its bank by the record. -/
def Wave.ctxFrag (w : Wave) (l : Live) (n : Nat) : List Part :=
  match w.frags.get? n with
  | none => [(0x200 + 64 * n + 32, bytesOfWord 0)]
  | some f =>
    let st : Nat := 2 ^ 63 + (match f.rcv with | some t => 2 ^ 62 + t.toNat * 2 ^ 58 | none => 0)
    (0x200 + 64 * n, bytesOfWords ([f.spc] ++ maskWords f.emask ++ [f.fmt.setWidth 64, BitVec.ofNat 64 st])) ::
    ((List.range 16).filter (fun i => l.scl.getLsbD (176 + i))).map (fun i =>
      (0xA00 + 128 * n + 8 * i, bytesOfWord (f.bank.get (176 + i))))

/-- A group. -/
def Wave.ctxGroup (w : Wave) (t : Nat) : Part :=
  (0x300 + 16 * t, match w.groups.get? t with
    | none => bytesOfWord 0
    | some g => bytesOfWords [BitVec.ofNat 64 (2 ^ 63 + (g.slots.foldl (fun a n => a + 2 ^ n) 0) * 2 ^ 59), g.fmt.setWidth 64])

/-- Scalar registers, predicates and vector registers by the record. -/
def Wave.ctxRegs (w : Wave) (l : Live) : List Part :=
  (0x400, bytesOfWord 0) ::
  ((List.range 176).filter (fun i => i != 0 && l.scl.getLsbD i)).map (fun i => (0x400 + 8 * i, bytesOfWord (w.scl.get i))) ++
  ((List.range 16).filter (fun i => l.pred.getLsbD i)).map (fun i => (0xC00 + 16 * i, bytesOfWords (maskWords (w.pmask i)))) ++
  ((List.range w.vcount).filter (fun r => l.vec.getLsbD (r / 8))).map (fun r =>
    (ctxVector r 0, bytesOfNat 512 (w.vec.get r).toNat))

/-- The list of absent faults still to be delivered. -/
def Wave.ctxFaults (w : Wave) : List Part :=
  [(0xD00, bytesOfWord (BitVec.ofNat 64 (w.work.lost % 2 ^ 32 * 2 ^ 32 + w.work.absent.length))),
   (0xD40, (w.work.absent.map (fun f => bytesOfWords [f.word0, f.tval])).flatten)]

/-- The tree-result slot: the first result that the wave has not taken. -/
def Wave.ctxTree (w : Wave) : Part :=
  (0x1000, match w.work.sends.find? (fun e => e.2.result.isSome) with
    | none => bytesOfWord 0
    | some (sid, x) => bytesOfWord (BitVec.ofNat 64 (2 ^ 63 + sid)) ++
        ((x.result.getD []).map (fun v => bytesOfNat 4 v.toNat)).flatten)

/-- Stack entries, oldest first. -/
def Wave.ctxStack (w : Wave) : List Part :=
  w.stack.reverse.zipIdx.map (fun (p : StackEntry × Nat) =>
    (0x1100 + 192 * p.2, bytesOfWords ([BitVec.ofNat 64 (p.1.owner * 2 ^ 62 + p.1.token.toNat * 2 ^ 58 +
        (if p.1.resume then 2 ^ 57 else 0)), p.1.spc] ++ maskWords p.1.emask ++ [p.1.fmt.setWidth 64] ++
      sparseWords p.1.bank 176 16)))

/-- Reduction-buffer entries. -/
def Wave.ctxRed (w : Wave) : List Part :=
  w.work.red.zipIdx.map (fun (p : RedEntry × Nat) =>
    (0x2000 + 32 * p.2, bytesOfWords [p.1.va, p.1.value,
      BitVec.ofNat 64 (p.1.opc.toNat * 2 ^ 52 + p.1.typ.toNat * 2 ^ 47 + p.1.aop.toNat * 2 ^ 39),
      BitVec.ofNat 64 (p.1.order % 512)]))

/-- Records of the frozen lane queue. -/
def Wave.ctxFrozen (w : Wave) : List Part :=
  (w.trap.frozen.take 64).zipIdx.map (fun (p : LaneItem × Nat) =>
    (0x3000 + 128 * p.2, bytesOfWords ([BitVec.ofNat 64 (2 ^ 63 + p.1.block.toNat * 2 ^ 47 + p.1.off.toNat * 2 ^ 37 +
        (if p.1.partMask.isSome then 2 ^ 36 else 0) + p.1.nfrag % 8 * 2 ^ 33)] ++
      (List.range 8).map (wordAt p.1.slots) ++ maskWords (p.1.partMask.getD p.1.emask) ++ [p.1.fmt.setWidth 64])))

/-- Every part of a wave's image that the rules fill. -/
def State.ctxParts (s : State) (core slot : Nat) (epoch : BitVec 8) (w : Wave) (l : Live) : List Part :=
  (0, bytesOfWords (w.header core slot epoch l)) :: w.ctxSpecial (s.cvLimits core w) (s.countsWord w) ++
  ((List.range 4).map (w.ctxFrag l)).flatten ++ (List.range 16).map w.ctxGroup ++ w.ctxRegs l ++ w.ctxFaults ++
  [w.ctxTree] ++ w.ctxStack ++ w.ctxRed ++ w.ctxFrozen

/-- The bytes of an image that goes to a PA: what no rule fills is unspecified bytes of the job (R5, R209, R210). -/
def State.ctxImage (s : State) (core slot : Nat) (epoch : BitVec 8) (w : Wave) (l : Live) (image : Nat) : List Byte × State :=
  let parts := s.ctxParts core slot epoch w l
  let (rest, s) := s.jobBytes w.ident.job (s.ownBytes w.ident.job image (ctxSize (w.vcount / 8)))
  (parts.foldl overlay rest, s)

/-! ### Reading it back (R126) -/

/-- The word, the number of `n` bytes, and the mask at an offset of an image. -/
def imgWord (bs : List Byte) (o : Nat) : Word := wordOfBytes ((bs.drop o).take 8)
def imgNat (bs : List Byte) (o n : Nat) : Nat := natOfBytes ((bs.drop o).take n)
def imgMask (bs : List Byte) (o : Nat) : Mask := BitVec.ofNat 128 (imgNat bs o 16)

/-- A sparse file of `n` registers from number `lo`. -/
def sparseOf {k : Nat} (lo n : Nat) (f : Nat → BitVec k) : Sparse k :=
  (List.range n).foldl (fun t i => Sparse.set t (lo + i) (f i)) []

/-- An SPC of an image: its reserved bits are ignored. -/
def spcMask : Word := 0x01FF_FFFF_FFFF_FFFC#64

/-- The live fragments. -/
def imgFrags (bs : List Byte) : Tab Frag :=
  (List.range 4).filterMap (fun n =>
    let o := 0x200 + 64 * n
    let st := imgWord bs (o + 32)
    if st.getLsbD 63 then
      some (n, ⟨imgMask bs (o + 8), imgWord bs o &&& spcMask, (imgWord bs (o + 24)).setWidth 16,
        sparseOf 176 16 (fun i => imgWord bs (0xA00 + 128 * n + 8 * i)),
        if st.getLsbD 62 then some (st.extractLsb' 58 4) else none, .run⟩)
    else none)

/-- The open groups. -/
def imgGroups (bs : List Byte) : Tab Group :=
  (List.range 16).filterMap (fun t =>
    let w := imgWord bs (0x300 + 16 * t)
    if w.getLsbD 63 then
      some (t, ⟨(List.range 4).filter (fun n => w.getLsbD (59 + n)), (imgWord bs (0x308 + 16 * t)).setWidth 16⟩)
    else none)

/-- The stack, newest first; `sups`: which entries a handler pushed. -/
def imgStack (bs : List Byte) (sups : List Bool) : List StackEntry :=
  ((List.range (bits (imgWord bs 0x28) 4 0)).map (fun i =>
    let o := 0x1100 + 192 * i
    let w := imgWord bs o
    (⟨bits w 63 62, w.extractLsb' 58 4, imgMask bs (o + 16), imgWord bs (o + 8) &&& spcMask,
      sparseOf 176 16 (fun k => imgWord bs (o + 40 + 8 * k)), (imgWord bs (o + 32)).setWidth 16, w.getLsbD 57,
      (sups[i]?).getD false⟩ : StackEntry))).reverse

/-- The reduction-buffer entries. -/
def imgRed (bs : List Byte) : List RedEntry :=
  (List.range (bits (imgWord bs 0x38) 7 0)).map (fun i =>
    let o := 0x2000 + 32 * i
    let w := imgWord bs (o + 16)
    ⟨imgWord bs o &&& 0x01FF_FFFF_FFFF_FFFF#64, imgWord bs (o + 8), w.extractLsb' 52 12, w.extractLsb' 47 5,
      w.extractLsb' 39 8, bits (imgWord bs (o + 24)) 8 0⟩)

/-- The frozen queue: the records, with the words and owners that were kept. -/
def imgFrozen (bs : List Byte) (kept : List LaneItem) : List LaneItem :=
  (kept.take (bits (imgWord bs 0x30) 6 0)).zipIdx.map (fun (p : LaneItem × Nat) =>
    let o := 0x3000 + 128 * p.2
    let w := imgWord bs o
    let m := imgMask bs (o + 72)
    { p.1 with
      slots := (List.range 8).map (fun k => imgWord bs (o + 8 + 8 * k))
      emask := if w.getLsbD 36 then p.1.emask else m
      fmt := (imgWord bs (o + 88)).setWidth 16
      nfrag := bits w 35 33
      block := w.extractLsb' 47 16
      off := w.extractLsb' 37 10
      partMask := if w.getLsbD 36 then some m else none })

/-- The list of absent faults: losses of memory first, `lost` before all (R128, R131, R213). -/
def imgFaults (bs : List Byte) (lost : Bool) : List AbsentFault :=
  let l := (List.range (bits (imgWord bs 0xD00) 5 0)).map (fun i =>
    (⟨imgWord bs (0xD40 + 16 * i), imgWord bs (0xD48 + 16 * i)⟩ : AbsentFault))
  let isLoss (f : AbsentFault) : Bool := f.word0.extractLsb' 40 8 == 0x07#8
  (if lost then [⟨absentWord 0 0x07 0 0, 0⟩] else []) ++ l.filter isLoss ++ l.filter (fun f => !isLoss f)

/-- The wave's sends, with the result that the image's slot holds. -/
def imgSends (bs : List Byte) (sends : Tab TreeSend) : Tab TreeSend :=
  let w := imgWord bs 0x1000
  if w.getLsbD 63 then
    sends.update (bits w 2 0) (fun x =>
      { x with result := some ((List.range 41).map (fun i => BitVec.ofNat 32 (imgNat bs (0x1008 + 4 * i) 4))) })
  else sends

/-- The trap state. -/
def imgTrap (bs : List Byte) (a : Away) : TrapRegs where
  sup := (imgWord bs 0x130).getLsbD 0
  tcause := imgWord bs 0x100
  tval := imgWord bs 0x108
  tspc := imgWord bs 0x110
  tlpc := imgWord bs 0x118
  lfmask := imgMask bs 0x120
  h := sparseOf 0 16 (fun i => imgWord bs (0x140 + 8 * i))
  slot := a.handler
  frozen := imgFrozen bs a.frozen
  frest := a.frest
  absent := a.absentOf

/-- A wave as its image and what was kept of it restore it; `bad`: part of the image was lost. Registers that replies are
still due for are pending through `outs` and `mat`. -/
def Away.restore (a : Away) (bs : List Byte) (bad : Bool) : Wave where
  ident := a.ident
  vcount := a.groups * 8
  scl := sparseOf 1 175 (fun i => imgWord bs (0x408 + 8 * i))
  vec := sparseOf 0 (a.groups * 8) (fun r => BitVec.ofNat 4096 (imgNat bs (ctxVector r 0) 512))
  pred := sparseOf 1 15 (fun i => imgMask bs (0xC10 + 16 * i))
  frags := imgFrags bs
  groups := imgGroups bs
  stack := imgStack bs a.stackSup
  trap := imgTrap bs a
  lane := ⟨[], [], a.lpc, a.next⟩
  work := ⟨a.outs, a.deferred, a.pending, imgRed bs, imgSends bs a.sends, imgWord bs 0x58, imgWord bs 0x60,
    imgFaults bs (a.memloss || bad), bits (imgWord bs 0xD00) 63 32, a.outs.map (·.id)⟩
  cv := if a.cv.mem then { a.cv with pos := imgWord bs 0x40 }
    else { a.cv with pos := imgWord bs 0x40, slip := (imgWord bs 0x48).setWidth 16, pat := (imgWord bs 0x50).setWidth 32 }
  mat := .ofWord (imgWord bs 0x78) a.mat.ops
  spec := []
  hist := (imgWord bs 0x70).setWidth 10
  sched := ⟨a.lastFrag, 0, 0, false, false, [], false, none, 0, none, a.yielded, [], [], [], [], false, none⟩

end Sys2Proof.Machine
end

