-- ==== Sys2Proof/Machine/Evict.lean ====
section
/-!
DEFINITION. Eviction and return (R117 to R121, R125 to R128): a wave leaves, its gang's scratch is saved, the entry is
retired, and the gang resumes.
-/
namespace Sys2Proof.Machine

/-! ### A wave leaves (R117) -/

/-- The replies still due for a wave's registers (R118). -/
def State.dueReplies (s : State) (w : Wave) : List (Nat × Nat) :=
  ((w.work.outs.filter (fun o => o.dest.isReg)).map (fun o => List.replicate o.left (0, o.id))).flatten ++
  (s.engines.filter (fun e => e.2.uid == w.ident.uid && e.2.d != 0)).map (fun e => (1, e.1)) ++
  w.mat.ops.map (fun _ => (2, w.ident.uid)) ++
  (w.work.sends.filter (fun e => e.2.result.isNone)).map (fun e => (3, w.ident.uid * 8 + e.1))

/-- What is kept of a wave that leaves. -/
def Wave.leave (w : Wave) (image core slot : Nat) (epoch : BitVec 8) : Away where
  ident := w.ident
  image := image
  groups := w.vcount / 8
  outs := w.work.outs
  mat := w.mat
  cv := w.cv
  memloss := false
  deferred := w.work.deferred
  pending := w.work.pending
  lpc := w.lane.lpc
  next := w.lane.next
  frozen := w.trap.frozen
  frest := w.trap.frest
  stackSup := w.stack.reverse.map (·.sup)
  lastFrag := w.sched.lastFrag
  handler := w.trap.slot
  yielded := (w.frags.filter (fun e => e.2.wait == .yielding)).map (fun e => e.1)
  absentOf := w.trap.absent
  sends := w.work.sends
  red := w.work.red
  core := core
  slot := slot
  epoch := epoch

/-- The wave's slot is free, its waits are left, its membership parked, the epoch of the slot is the next (R84, R64,
R117). -/
def State.vacate (s : State) (core slot : Nat) (w : Wave) : State :=
  let s := (s.leaveWaits w).park w.ident.uid w.blockedAt
  let c := s.core core
  let s := s.setCore core { c with epochs := c.epochs.set slot (c.epochs.get slot + 1) }
  let s := { s with
    waves := s.waves.del (slotKey core slot)
    xlate := { s.xlate with walks := s.xlate.walks.mapAll (fun _ k =>
      { k with users := k.users.filter (fun u => u / 2 != w.ident.uid) }) } }
  s.updGang w.ident.grid w.ident.gang (fun g =>
    { g with here := g.here.filter (· != w.ident.rank), gone := g.gone ++ [w.ident.rank] })

/-- A free reply-diversion entry of a core: 192 (R118). DESIGN CHOICE (log 98): the lowest-numbered. -/
def State.freeEntry (s : State) (core : Nat) : Option Nat :=
  (List.range 192).find? (fun e => !(Tab.has (s.core core).rdiv e))

/-- Whether a wave may be evicted now (R205, R206): its grid is chosen and it stands at a blocking point. -/
def State.mayLeave (s : State) (w : Wave) : Bool :=
  s.gridChosen w.ident.grid && w.atStop && (w.trap.sup || w.work.pending.isEmpty)

/-- WAVE_EVICTION (R117). -/
def execWaveEviction (core slot : Nat) (s : State) : Result :=
  match s.wave? core slot with
  | none => .next s
  | some w =>
    if !s.mayLeave w then .next s
    else
      let due := s.dueReplies w
      match s.saveRoom w.ident.job (s.savedRanges w.ident.job) (ctxSize (w.vcount / 8)) 1024, s.freeEntry core with
      | some image, entry =>
        if !due.isEmpty && entry.isNone then .next s
        else
          match (if s.imageClear (dieOf core) w.ident.job image (ctxSize (w.vcount / 8)) then s.liveWave core slot w
              else (none, s)) with
          | (none, s) => .next s
          | (some l, s) =>
          let s := s.forget (.save w.ident.uid)
          let epoch := (s.core core).epochs.get slot
          let (bs, s) := s.ctxImage core slot epoch w l image
          let s := (s.imgSave (dieOf core) w.ident.job image 0 8 bs).vacate core slot w
          let s := { s with away := s.away.set w.ident.uid (w.leave image core slot epoch) }
          let s := s.updGang w.ident.grid w.ident.gang (fun g =>
            { g with full := g.full || l.full, ranges := g.ranges ++ l.ranges })
          let s := (match entry with
            | some e =>
              if due.isEmpty then s
              else
                let c := s.core core
                s.setCore core { c with rdiv := c.rdiv.set e ⟨1, w.ident.job, slot, epoch, image, w.ident.uid, due⟩ }
            | none => s)
          .next (s.enterResume w.ident.grid)
      | none, _ => .next s

/-! ### The Lightship image (R119 to R121) -/

/-- A gang of a grid. -/
def State.gangOf (s : State) (grid gang : Nat) : Option (Grid × Gang) :=
  match s.sched.grids.get? grid with
  | none => none
  | some g => (g.gangs.get? gang).map (fun x => (g, x))

/-- Change a cluster's Lightship entry. -/
def State.updShip (s : State) (cl k : Nat) (f : Ship → Ship) : State :=
  let c := s.cluster cl
  s.setCluster cl { c with ships := c.ships.update k f }

/-- LIGHTSHIP_SAVE (R119, R120): the last wave of a gang has left; a free entry of its cluster goes to HOLD. DESIGN CHOICE
(log 98): the lowest-numbered free entry. -/
def execLightshipSave (grid gang : Nat) (s : State) : Result :=
  match s.gangOf grid gang with
  | none => .next s
  | some (g, x) =>
    if !x.here.isEmpty || x.gone.isEmpty || x.resuming || x.image.isSome || (s.shipOf grid gang).isSome then .next s
    else
      let c := s.cluster x.cluster
      match (List.range 256).find? (fun k => !(Tab.has c.ships k)),
          s.saveRoom g.job (s.savedRanges g.job) (shipSize x.len) 65536 with
      | some k, some pa =>
        let s := s.setCluster x.cluster { c with ships := c.ships.set k ⟨1, g.job, gang, grid, pa, x.len, 0⟩ }
        .next (s.updGang grid gang (fun x => { x with image := some pa }))
      | _, _ => .next s

/-- The bytes that a save copies of an allocation to an image of a job at a PA: all, or those of the records' ranges, with
unspecified bytes of the job between (R5, R209). -/
def State.savedScratch (s : State) (cl : Nat) (a : Alloc) (x : Gang) (job pa : Nat) : List Byte × State :=
  if x.full then (s.cspRead cl a.base a.len, s)
  else
    let (rest, s) := s.jobBytes job (s.ownBytes job pa a.len)
    (x.ranges.foldl (fun bs r => overlay bs (r.1, s.cspRead cl (a.base + r.1) r.2)) rest, s)

/-- The line states of an allocation as bits (Table 3). -/
def lineStates (full : List Nat) (first n : Nat) : List Byte :=
  (List.range (n / 8)).map (fun j => BitVec.ofNat 8 ((List.range 8).foldl (fun v i =>
    if full.contains (first + 8 * j + i) then v + 2 ^ i else v) 0))

/-- An arm record, and the arm that a record gives (R121). -/
def armBytes (a : Option Arm) : List Byte :=
  match a with
  | none => bytesOfWords [0, 0, 0, 0]
  | some a => bytesOfWords [BitVec.ofNat 64 (a.cur % 2 ^ 32 * 2 ^ 32 + a.len), BitVec.ofNat 64 (2 ^ 63 + a.base % 2 ^ 24), 0, 0]
def armOf (grid gang : Nat) (bs : List Byte) (o : Nat) : Option Arm :=
  let w0 := imgWord bs o
  let w1 := imgWord bs (o + 8)
  if w1.getLsbD 63 then some ⟨grid, gang, bits w1 23 0, bits w0 16 0, bits w0 63 32⟩ else none

/-- Where the line states and the arm records of an image of `len` bytes of scratch begin. -/
def imgLinesAt (len : Nat) : Nat := len
def imgArmsAt (len : Nat) : Nat := len + len / 1024

/-- The arms of a gang on a cluster. -/
def Cluster.armOf (c : Cluster) (grid gang side : Nat) : Option Arm :=
  match c.arms.get? side with
  | some a => if a.grid = grid ∧ a.gang = gang then some a else none
  | none => none

/-- LIGHTSHIP_OPEN (R119): bytes, line states and arms are copied, the entry goes to OPEN, and the allocation is freed.
The arms stay at their ports (R127). -/
def execLightshipOpen (grid gang : Nat) (s : State) : Result :=
  match s.gangOf grid gang, s.shipOf grid gang, s.gangAlloc grid gang with
  | some (g, x), some (cl, k, h), some (_, a) =>
    if h.state ≠ 1 || !s.imageClear (dieOfCluster cl) g.job h.image (shipSize h.len) then .next s
    else
      let c := s.cluster cl
      let (bs, s) := s.savedScratch cl a x g.job h.image
      let lines := lineStates c.full (a.base / 128) (a.len / 128)
      let arms := ((List.range 4).map (fun d => armBytes (c.armOf grid gang d))).flatten
      let s := s.imgSave (dieOfCluster cl) g.job h.image 3 258 (bs ++ lines ++ arms)
      let s := s.updShip cl k (fun h => { h with state := 2 })
      let c := s.cluster cl
      let s := s.setCluster cl { c with allocs := c.allocs.filter (fun y => !(y.grid == grid && y.gang == gang)) }
      .next ((s.bump (lsReg cl 0x28)).updGang grid gang (fun x => { x with full := false, ranges := [] }))
  | _, _, _ => .next s

/-- Remove a gang's entry and its arms at a cluster's ports. -/
def Cluster.retire (c : Cluster) (grid gang : Nat) : Cluster :=
  { c with
    ships := c.ships.keep (fun _ h => !(h.grid == grid && h.gang == gang))
    arms := c.arms.keep (fun _ a => !(a.grid == grid && a.gang == gang)) }

/-- The image of a retired gang goes into the context records of its waves (R125, Table 7 of R210). -/
def State.recordShip (s : State) (grid : Nat) (h : Ship) : State :=
  let w := BitVec.ofNat 64 (h.image / 65536 * 65536 + h.len / 65536)
  s.away.foldl (fun s e =>
    if e.2.ident.grid = grid ∧ e.2.ident.gang = h.gang then
      s.imgWrite (dieOf e.2.core) h.job (e.2.image + 0x20) (bytesOfWord w)
    else s) s

/-- The OPEN entries of a grid. -/
def State.openShips (s : State) (grid : Nat) : List (Nat × Ship) :=
  (s.clusters.map (fun c => (c.2.ships.filter (fun h => h.2.grid == grid && h.2.state == 2)).map (fun h => (c.1, h.2)))).flatten

/-- LIGHTSHIP_RETIRE (R125, R127): every wave of a grid has been evicted and the grid has no operation in flight: its
OPEN entries are retired, and their arms removed. -/
def execLightshipRetire (grid : Nat) (s : State) : Result :=
  match s.sched.grids.get? grid with
  | none => .next s
  | some g =>
    if g.gangs.any (fun e => !e.2.here.isEmpty || e.2.resuming) || s.engines.any (fun e => e.2.ident.grid == grid) ||
        s.arrivals.any (fun a => a.grid == grid) || s.away.any (fun e => e.2.ident.grid == grid && !s.awayClear e.1 [(0x20, 8)]) then .next s
    else
      .next ((s.openShips grid).foldl (fun s h =>
        (s.recordShip grid h.2).setCluster h.1 ((s.recordShip grid h.2).cluster h.1 |>.retire grid h.2.gang)) s)

/-! ### Return (R126 to R128) -/

/-- Close the reply-diversion entries of a gang's waves, or open them again (R126): one that is OPEN with no reply still due
is FREE (R118). -/
def State.setRdiv (s : State) (grid gang : Nat) (st : BitVec 2) : State :=
  let set (r : RDiv) : RDiv := if r.uid / 512 = grid * 256 + gang then { r with state := st } else r
  { s with cores := s.cores.mapAll (fun _ c => { c with
      rdiv := (c.rdiv.mapAll (fun _ r => set r)).keep (fun _ r => !(r.due.isEmpty && r.state == 1)) }) }

/-- A wave of a gang in resume takes its slot on a cluster with its registers restored (R126); on another die it leaves
its convoy (R67). -/
def State.bringBack (s : State) (cl : Nat) (a : Away) : State :=
  let core := rankCore cl a.ident.rank
  let (bad, bs, s) := s.imgLoad (dieOf core) a.ident.job a.image 0 8 (ctxSize a.groups)
  let s := { s with away := s.away.del a.ident.uid }
  let s := s.seat cl (a.restore bs bad)
  if a.cv.mem && dieOf a.core != dieOf core then s.eject a.ident.uid 4 else s

/-- The lines that an image lists as FULL, from line `first` on. -/
def imgFull (bs : List Byte) (len first : Nat) : List Nat :=
  ((List.range (len / 128)).filter (fun i =>
    (((bs[imgLinesAt len + i / 8]?).getD 0).getLsbD (i % 8)))).map (first + ·)

/-- The scratch of a gang in resume is restored into a new allocation through the Lightship restore path (R126). -/
def State.restoreScratch (s : State) (cl job grid gang len pa : Nat) : Bool × State :=
  let s := s.allocate cl grid gang len
  let (bad, bs, s) := s.imgLoad (dieOfCluster cl) job pa 3 258 (imgArmsAt len)
  match s.gangAlloc grid gang with
  | none => (bad, s)
  | some (_, a) =>
    let s := s.cspWrite cl a.base (bs.take len)
    let c := s.cluster cl
    (bad, s.setCluster cl { c with full := sortBy (fun a b => decide (a ≤ b)) (c.full ++ imgFull bs len (a.base / 128)) })

/-- GANG_RESUME (R126, steps 1 to 3): the entry goes to RESTORE, reply-diversion entries to CLOSED, and scratch and
registers are restored. Every arrival that has passed the diversion point is already in the image. -/
def execGangResume (grid gang : Nat) (s : State) : Result :=
  match s.gangOf grid gang with
  | none => .next s
  | some (g, x) =>
    match x.image with
    | none => .next s
    | some pa =>
      let ready := (match s.shipOf grid gang with | some (_, _, h) => h.state == 2 | none => true)
      let mine := (s.away.filter (fun e => e.2.ident.grid == grid && e.2.ident.gang == gang)).map (fun e => e.2)
      let die := dieOfCluster x.cluster
      let clear := s.imageClear die g.job pa (shipSize x.len) &&
        mine.all (fun a => s.imageClear die g.job a.image (ctxSize a.groups))
      if !x.resuming || (s.gangAlloc grid gang).isSome || !ready || !clear then .next s
      else
        let s := (match s.shipOf grid gang with
          | some (cl, k, _) => s.updShip cl k (fun h => { h with state := 3 })
          | none => s)
        let s := s.setRdiv grid gang 2
        let (bad, s) := s.restoreScratch x.cluster g.job grid gang x.len pa
        let mine := (s.away.filter (fun e => e.2.ident.grid == grid && e.2.ident.gang == gang)).map (fun e => e.2)
        let s := mine.foldl (fun s a => s.bringBack x.cluster { a with memloss := a.memloss || bad }) s
        .next (s.updGang grid gang (fun x => { x with here := x.gone, gone := [] }))

/-- The arms of a gang move with it (R127): `old` is the cluster of its entry, none if it was retired. -/
def State.moveArms (s : State) (grid gang cl : Nat) (old : Option Nat) (recs : List (Option Arm)) : State :=
  if old = some cl then s
  else
    let s := (match old with
      | some o => s.setCluster o ((s.cluster o).retire grid gang)
      | none => s)
    recs.zipIdx.foldl (fun (s : State) p =>
      let c := s.cluster cl
      match p.1 with
      | some a => if (neighbourOf cl p.2).isSome && !(Tab.has c.arms p.2) then
          s.setCluster cl { c with arms := c.arms.set p.2 a } else s
      | none => s) s

/-- RESUME_REOPEN (R126 step 4, R128): the entry is FREE, arms and later arrivals go to the new place, replies to the
register file, and the first absent fault of each wave is delivered. -/
def execResumeReopen (grid gang : Nat) (s : State) : Result :=
  match s.gangOf grid gang with
  | none => .next s
  | some (g, x) =>
    match x.image with
    | none => .next s
    | some pa =>
      if !x.resuming || (s.gangAlloc grid gang).isNone ||
          !s.imageClear (dieOfCluster x.cluster) g.job (pa + imgArmsAt x.len) 128 then .next s
      else
        let cl := x.cluster
        let (_, bs, s) := s.imgLoad (dieOfCluster cl) g.job (pa + imgArmsAt x.len) 3 2 128
        let recs := (List.range 4).map (fun d => armOf grid gang bs (32 * d))
        let old := (s.shipOf grid gang).map (fun h => h.1)
        let s := (s.moveArms grid gang cl old recs)
        let s := { s with clusters := s.clusters.mapAll (fun _ c =>
          { c with ships := c.ships.keep (fun _ h => !(h.grid == grid && h.gang == gang)) }) }
        let s := (s.updGang grid gang (fun x => { x with image := none, resuming := false })).setRdiv grid gang 1
        let s := s.bump (lsReg cl 0x30)
        let mine := s.waves.filter (fun e => e.2.ident.grid == grid && e.2.ident.gang == gang)
        .next (mine.foldl (fun s e => s.deliverAbsent (e.1 / Config.slots) (e.1 % Config.slots)) s)

/-- A wave of a gang in resume does not issue before the reopening. -/
def State.inResume (s : State) (w : Wave) : Bool :=
  match s.gangOf w.ident.grid w.ident.gang with
  | some (_, x) => x.resuming
  | none => false

end Sys2Proof.Machine
end

