-- ==== Sys2Proof/Machine/Divert.lean ====
section
/-!
DEFINITION. The diversion unit (R122, R123, R127, R130): an arrival held or queued at a gang's diversion point is performed
on the gang's image, or at its new place once the gang has reopened, or dropped if the gang has ended.
-/
namespace Sys2Proof.Machine

/-- Where an absent gang's image is, for the unit that performs its arrivals. -/
structure ImgAt where
  cl   : Nat
  entry : Nat
  job  : Nat
  grid : Nat
  gang : Nat
  pa   : Nat
  len  : Nat
  deriving DecidableEq, Repr

/-- The die whose base dies the unit's packets leave for. -/
def ImgAt.die (x : ImgAt) : Nat := dieOfCluster x.cl

/-- How an arrival ends: performed, or blocked with what is left of it. -/
inductive Arrived where
  | done
  | blocked (rest : ArrivalOp)
  deriving DecidableEq, Repr

/-- Bytes written into an image: DIVB and LSDIVB count them (R120, R132). -/
def State.divCount (s : State) (x : ImgAt) (n : Nat) : State :=
  (s.bump (lsReg x.cl 0) n).updShip x.cl x.entry (fun h => { h with divb := h.divb + BitVec.ofNat 64 n })

/-- Write scratch bytes of an image. -/
def State.divWrite (s : State) (x : ImgAt) (off : Nat) (bs : List Byte) : State :=
  (s.imgSave x.die x.job (x.pa + off) 3 258 bs).divCount x bs.length

/-- Change the operation that an arrival comes from, if it is still in flight, with bytes that it has written. -/
def State.credit (s : State) (a : Arrival) (n : Nat) (f : EngOp → EngOp) : State :=
  if a.isWave then s
  else
    match s.engines.get? a.sender with
    | none => s
    | some o =>
      let (o, s) := s.wrote (f o) n
      s.setOp a.sender o

/-- Whether a line of an image is FULL, and set it FULL. -/
def State.imgLine (s : State) (x : ImgAt) (line : Nat) : Bool × State :=
  let (bs, s) := s.imgRead x.die x.job (x.pa + imgLinesAt x.len + line / 8) 1
  (((bs.head?).getD 0).getLsbD (line % 8), s)
def State.setImgLine (s : State) (x : ImgAt) (line : Nat) : State :=
  let (bs, s) := s.imgRead x.die x.job (x.pa + imgLinesAt x.len + line / 8) 1
  s.imgWrite x.die x.job (x.pa + imgLinesAt x.len + line / 8) [((bs.head?).getD 0) ||| BitVec.ofNat 8 (2 ^ (line % 8))]

/-- Write lines in produce mode to an image until one is FULL (R122): what is left, and the state. -/
def State.imgProduce (s : State) (x : ImgAt) (a : Arrival) (off : Nat) : Nat → List Byte → (Nat × List Byte) × State
  | 0, bs => ((off, bs), s)
  | fuel + 1, bs =>
    if bs.isEmpty then ((off, bs), s)
    else
      match s.imgLine x (off / 128) with
      | (true, s) => ((off, bs), s)
      | (false, s) =>
        let s := ((s.divWrite x off (bs.take 128)).setImgLine x (off / 128)).credit a (bs.take 128).length id
        s.imgProduce x a (off + 128) fuel (bs.drop 128)

/-- The barrier object of an image, and its writing back (LSDIVO). -/
def State.imgBar (s : State) (x : ImgAt) (off : Nat) : Bar × State :=
  let (bs, s) := s.imgRead x.die x.job (x.pa + off) 32
  (.ofBytes bs, s)
def State.putImgBar (s : State) (x : ImgAt) (off : Nat) (b : Bar) : State :=
  (s.imgWrite x.die x.job (x.pa + off) b.bytes).bump (lsReg x.cl 8)

/-- Land bytes at the image copy of an object (R122, R82). -/
def State.imgLand (s : State) (x : ImgAt) (a : Arrival) (off n : Nat) : State :=
  let gone := (match s.engines.get? a.sender with | some o => s.absent o.uid | none => false)
  let (b, s) := s.imgBar x off
  match b.land n with
  | none => s.credit a 0 (·.landedAt false x.gang off gone)
  | some b => (s.putImgBar x off b).credit a 0 (·.landedAt true x.gang off gone)

/-! ### Barrier operations of waves (R122) -/

/-- The wave and fragment that an arrival's barrier operation holds at its instruction. -/
def State.barWaiter (s : State) (a : Arrival) : Option (Ctx × Nat) :=
  match s.findWave (a.sender / 4) with
  | none => none
  | some (core, slot, w) =>
    match w.frags.get? (a.sender % 4) with
    | none => none
    | some f =>
      match f.wait with
      | .diverted ea => some (⟨core, slot, a.sender % 4, w, f⟩, ea)
      | _ => none

/-- The instruction that waited completes, or takes the fault that its operation met: while a BRM of the wave is unresolved
the fault waits (R177). -/
def State.barAnswer (s : State) (a : Arrival) (fault : Option (BitVec 8)) : Arrived × State :=
  match s.barWaiter a, fault with
  | none, _ => (.done, s)
  | some (c, _), none => (.done, c.skip s 4)
  | some (c, ea), some k =>
    if c.w.spec.isEmpty then (.done, s.trapAt c (accessFault k (BitVec.ofNat 64 ea))) else (.blocked a.op, s)

/-- The operation of a wave on an object; none: it changes nothing (R83). -/
def ArrivalOp.barFun (o : ArrivalOp) (b : Bar) : Except (BitVec 8) (Option Bar) :=
  match o with
  | .barinit _ x y ext => (b.init x.toNat y.toNat ext).map some
  | .bararr _ n => b.arrive n.toNat
  | _ => .ok none

/-! ### On the image (Table 4 of R122) -/

/-- The ranges of an image that an arrival reads or writes: offsets and lengths. -/
def State.arrivalParts (s : State) (x : ImgAt) (o : ArrivalOp) : List (Nat × Nat) :=
  let bits (off n : Nat) : Nat × Nat := (imgLinesAt x.len + off / 1024, (off + n - 1) / 1024 - off / 1024 + 1)
  let bar (b : Option (Nat × Nat)) : List (Nat × Nat) := b.toList.map (fun p => (p.1, 32))
  match o with
  | .write off bs prod b => (off, bs.length) :: (if prod then [bits off bs.length] else []) ++ bar b
  | .status off _ => [(off, 8)]
  | .land off _ | .barinit off _ _ _ | .bararr off _ => [(off, 32)]
  | .accum off _ _ xs b => (off, xs.length * 16) :: bar b
  | .line cl side _ =>
    (imgArmsAt x.len + 32 * side, 32) ::
      (match (s.cluster cl).armOf x.grid x.gang side with
       | some m => let off := m.base + m.cur % m.len * 128; [(off, 128), bits off 128]
       | none => [])

/-- The flags of an accumulation. -/
def EngOp.sums (o : EngOp) (sat nan : Bool) : EngOp :=
  { o with flags := o.flags ||| (if sat then 32 else 0) ||| (if nan then 16 else 0) }

/-- Perform an arrival on an image. -/
def State.arriveImage (s : State) (x : ImgAt) (a : Arrival) : Arrived × State :=
  let land (s : State) (bar : Option (Nat × Nat)) : State :=
    (match bar with | some (p, n) => s.imgLand x a p n | none => s)
  match a.op with
  | .write off bs prod bar =>
    if prod then
      match s.imgProduce x a off 9 bs with
      | ((_, []), s) => (.done, land s bar)
      | ((off, bs), s) => (.blocked (.write off bs true bar), s)
    else (.done, land ((s.divWrite x off bs).credit a bs.length id) bar)
  | .status off v => (.done, s.divWrite x off (bytesOfWord v))
  | .land off n => (.done, s.imgLand x a off n)
  | .accum off exp int32 xs bar =>
    let n := xs.length * 16
    let (old, s) := s.imgRead x.die x.job (x.pa + off) n
    let (bs, sat, nan) := accumulateAll exp int32 old xs
    (.done, land ((s.divWrite x off bs).credit a n (·.sums sat nan)) bar)
  | .line cl side data =>
    let at_ := x.pa + imgArmsAt x.len + 32 * side
    let (r, s) := s.imgRead x.die x.job at_ 32
    match armOf x.grid x.gang r 0 with
    | none => (.blocked a.op, s)
    | some m =>
      let off := m.base + m.cur % m.len * 128
      match s.imgLine x (off / 128) with
      | (true, s) => (.blocked a.op, s)
      | (false, s) =>
        let m := { m with cur := (m.cur + 1) % 2 ^ 32 }
        let s := (s.divWrite x off (bytesOfNat 128 data.toNat)).setImgLine x (off / 128)
        let s := s.imgWrite x.die x.job at_ (armBytes (some m))
        -- the port's own copy of the cursor advances with the record (R127)
        let c := s.cluster cl
        let s := s.setCluster cl { c with arms := c.arms.update side (fun y =>
          if y.grid = x.grid ∧ y.gang = x.gang then { y with cur := m.cur } else y) }
        (.done, s.lineArrived a.sender)
  | .barinit off _ _ _ | .bararr off _ =>
    let (b, s) := s.imgBar x off
    match a.op.barFun b with
    | .error k => s.barAnswer a (some k)
    | .ok none => s.barAnswer a none
    | .ok (some b) => (s.putImgBar x off b).barAnswer a none

/-! ### At the gang's new place (R126), or for a gang that has ended (R130) -/

/-- Put a line back at the head of a port. -/
def State.returnLine (s : State) (cl side : Nat) (l : NlLine) : State :=
  let c := s.cluster cl
  s.setCluster cl { c with inq := c.inq.set side (l :: (c.inq.get? side).getD []) }

/-- Perform an arrival at resident scratch. -/
def State.arriveHere (s : State) (cl base : Nat) (a : Arrival) : Arrived × State :=
  let gone := (match s.engines.get? a.sender with | some o => s.absent o.uid | none => false)
  let land (s : State) (bar : Option (Nat × Nat)) : State :=
    (match bar with
     | none => s
     | some (p, n) =>
       -- the operation is seen to have landed before waiters wake (R316)
       let t := s.credit a 0 (·.landedAt true a.gang p gone)
       match t.landAt cl (base + p) a.grid a.gang p n with
       | (true, t) => t
       | (false, _) => s.credit a 0 (·.landedAt false a.gang p gone))
  match a.op with
  | .write off bs prod bar =>
    if prod then
      let (k, s) := s.produceLines a.sender a.gang cl (base + off) bs 9 0
      let n := min (k * 128) bs.length
      let s := s.credit a n id
      if k * 128 < bs.length then (.blocked (.write (off + k * 128) (bs.drop (k * 128)) true bar), s)
      else (.done, land s bar)
    else (.done, land ((s.cspWrite cl (base + off) bs).credit a bs.length id) bar)
  | .status off v => (.done, s.cspWrite cl (base + off) (bytesOfWord v))
  | .land off n => (.done, land s (some (off, n)))
  | .accum off exp int32 xs bar =>
    let n := xs.length * 16
    let (bs, sat, nan) := accumulateAll exp int32 (s.cspRead cl (base + off) n) xs
    (.done, land ((s.cspWrite cl (base + off) bs).credit a n (·.sums sat nan)) bar)
  | .line cl' side data =>
    match (s.cluster cl).armOf a.grid a.gang side with
    | none => (.done, s.returnLine cl' side ⟨a.sender, a.grid, data⟩)
    | some m =>
      let p := base + m.base + m.cur % m.len * 128
      let y : LineWait := ⟨1, a.sender, a.gang, [p / 128], false⟩
      if s.lineFull cl (p / 128) || !(s.cluster cl).goesFirst y then (.blocked a.op, s.joinLines cl y)
      else
        let s := ((s.leaveLines cl y).cspWrite cl p (bytesOfNat 128 data.toNat)).setLine cl (p / 128) true
        let c := s.cluster cl
        let s := s.setCluster cl { c with arms := c.arms.set side { m with cur := (m.cur + 1) % 2 ^ 32 } }
        (.done, s.lineArrived a.sender)
  | .barinit off _ _ _ | .bararr off _ =>
    match a.op.barFun (s.bar cl (base + off)) with
    | .error k => s.barAnswer a (some k)
    | .ok none => s.barAnswer a none
    | .ok (some b) => (s.putBar cl (base + off) a.grid a.gang off b).barAnswer a none

/-- An arrival for a gang that has ended is dropped (R130): LSGONE counts it (R132). The offset of a neighbour line in the
window of an arm that is gone is a free value: DESIGN CHOICE (log 99). -/
def State.arriveGone (s : State) (a : Arrival) : State :=
  let gone := (match s.engines.get? a.sender with | some o => s.absent o.uid | none => false)
  let drop (off n : Nat) : State := (s.credit a 0 (·.drop a.gang off n gone)).countGone a.grid a.gang
  match a.op with
  | .write off bs _ _ => drop off bs.length
  | .status off _ => drop off 8
  | .land off _ => drop off 0
  | .accum off _ _ xs _ => drop off (xs.length * 16)
  | .line .. =>
    let (v, s) := s.draw
    (s.credit a 0 (fun o => { o.drop a.gang (v.toNat % 2 ^ 24) 128 gone with lines := o.lines + 1 })).countGone a.grid a.gang
  | .barinit .. | .bararr .. => ((s.countGone a.grid a.gang).barAnswer a none).2

/-! ### The event (R123) -/

/-- What an arrival does now; none while its diversion point holds (HOLD, RESTORE, or a gang between its entries). -/
def State.arrive (s : State) (a : Arrival) : Option (Arrived × State) :=
  match s.scratchHome a.grid a.gang with
  | .here cl base => some (s.arriveHere cl base a)
  | .gone => some (.done, s.arriveGone a)
  | .away =>
    match s.shipOf a.grid a.gang with
    | some (cl, k, h) =>
      let x : ImgAt := ⟨cl, k, h.job, a.grid, a.gang, h.image, h.len⟩
      if h.state = 2 && s.partsClear x.die x.job x.pa (s.arrivalParts x a.op) then some (s.arriveImage x a) else none
    | none => none

/-- The arrivals of a gang one at a time, in order: one that a line blocks stops every later one of its sender, and the
others go on (R123). The first that gets anything done ends the turn. -/
def State.tryArrivals (s : State) : List (Arrival × Nat) → List (Nat × Bool) → Option State
  | [], _ => none
  | (a, i) :: rest, blocked =>
    if blocked.contains (a.sender, a.isWave) then s.tryArrivals rest blocked
    else
      match s.arrive a with
      | none => none
      | some (.done, t) => some { t with arrivals := t.arrivals.eraseIdx i }
      | some (.blocked op, t) =>
        if t.mem = s.mem ∧ t.clusters = s.clusters then s.tryArrivals rest ((a.sender, a.isWave) :: blocked)
        else some { t with arrivals := listSet t.arrivals i { a with op := op } }

/-- DIVERTED_ARRIVAL (R122, R123). -/
def execDivertedArrival (grid gang : Nat) (s : State) : Result :=
  match s.tryArrivals (s.arrivals.zipIdx.filter (fun p => p.1.grid == grid && p.1.gang == gang)) [] with
  | some t => .next t
  | none => .next s

end Sys2Proof.Machine
end

