-- ==== Sys2Proof/Machine/ScalarFp.lean ====
section
/-!
DEFINITION. Floating-point instructions of the scalar thread (R290 to R292): FP32 operands are the low 32 bits of their
registers, results are zero-extended, rounding and flushing follow FMT of the executing fragment.
-/
namespace Sys2Proof.Machine

/-- The FP32 operand of a register, as FTZ has it read. -/
def Ctx.fp (c : Ctx) (r : BitVec 8) : FVal := fread f32 (fmtFTZ c.f.fmt) (bits (c.get r) 31 0)

/-- An FP32 result in a register. -/
def Ctx.fpOut (c : Ctx) (v : FVal) : Word := BitVec.ofNat 64 (fround f32 (fmtRM c.f.fmt) (fmtFTZ c.f.fmt) v)

/-- FADD (R290). -/
def execFadd (d a b : BitVec 8) (s : State) : Result :=
  computeOp (.fadd d a b) s d (fun c => c.fpOut (FVal.add (fmtRM c.f.fmt) (c.fp a) (c.fp b)))

/-- FMUL (R290). -/
def execFmul (d a b : BitVec 8) (s : State) : Result :=
  computeOp (.fmul d a b) s d (fun c => c.fpOut (FVal.mul (c.fp a) (c.fp b)))

/-- FFMA: x × y + z rounded once, z the old destination (R290). -/
def execFfma (d a b : BitVec 8) (s : State) : Result :=
  computeOp (.ffma d a b) s d
    (fun c => c.fpOut (FVal.add (fmtRM c.f.fmt) (FVal.mul (c.fp a) (c.fp b)) (c.fp d)))

/-- The comparison word of FCMP (R291, Table 6): UN, LT, EQ in bits 2, 1, 0. -/
def fcmpWord (x y : FVal) : Word :=
  if x.isNaN || y.isNaN then 4
  else BitVec.ofNat 64 ((if x.lt y then 2 else 0) + (if x.eq y then 1 else 0))

/-- FCMP (R291). -/
def execFcmp (d a b : BitVec 8) (s : State) : Result :=
  computeOp (.fcmp d a b) s d (fun c => fcmpWord (c.fp a) (c.fp b))

/-- The result of FCVT by KIND (R292, Table 7). -/
def fcvt (k : BitVec 4) (rm : RM) (ftz : Bool) (a : Word) : Word :=
  let x := fread f32 ftz (bits a 31 0)
  match k.toNat with
  | 0 => BitVec.ofNat 64 (fround f32 rm ftz (.ofInt a.toInt))
  | 1 => BitVec.ofNat 64 (fround f32 rm ftz (.ofInt a.toNat))
  | 2 => x.toSigned 64 rm
  | 3 => x.toUnsigned 64 rm
  | 4 => (x.toSigned 32 rm).signExtend 64
  | 5 => (x.toUnsigned 32 rm).setWidth 64
  | 6 => BitVec.ofNat 64 (fround f16 rm ftz x)
  | 7 => BitVec.ofNat 64 (fround f32 rm ftz (fread f16 ftz (bits a 15 0)))
  | 8 => BitVec.ofNat 64 (fround bf16 rm ftz x)
  | _ => BitVec.ofNat 64 (fround f32 rm ftz (fread bf16 ftz (bits a 15 0)))

/-- FCVT (R292). -/
def execFcvt (d a : BitVec 8) (k : BitVec 4) (s : State) : Result :=
  computeOp (.fcvt d a k) s d (fun c => fcvt k (fmtRM c.f.fmt) (fmtFTZ c.f.fmt) (c.get a))

end Sys2Proof.Machine
end

