-- ==== Sys2Proof/Machine/ScalarInt.lean ====
section
/-!
DEFINITION. Integer instructions of the scalar thread: the 22 operations of R284 in their three forms, CLZ, POPC, SEL,
BFX, BFI, LI and LIH. Each computes one register from registers; none traps on an operand value.
-/
namespace Sys2Proof.Machine

/-- ADD, register form (R284). -/
def execAdd (d a b : BitVec 8) (s : State) : Result :=
  computeOp (.add d a b) s d (fun c => intOp .add (c.get a) (c.get b))

/-- ADD_IMM, immediate form, I8 sign-extended (R284). -/
def execAddImm (d a i : BitVec 8) (s : State) : Result :=
  computeOp (.addImm d a i) s d (fun c => intOp .add (c.get a) (i.signExtend 64))

/-- ADD_SX, SX form, the literal sign-extended (R284). -/
def execAddSx (d a i : BitVec 8) (lit : Word32) (s : State) : Result :=
  computeOp (.addSx d a i lit) s d (fun c => intOp .add (c.get a) (lit.signExtend 64))

/-- SUB, register form (R284). -/
def execSub (d a b : BitVec 8) (s : State) : Result :=
  computeOp (.sub d a b) s d (fun c => intOp .sub (c.get a) (c.get b))

/-- SUB_IMM, immediate form, I8 sign-extended (R284). -/
def execSubImm (d a i : BitVec 8) (s : State) : Result :=
  computeOp (.subImm d a i) s d (fun c => intOp .sub (c.get a) (i.signExtend 64))

/-- SUB_SX, SX form, the literal sign-extended (R284). -/
def execSubSx (d a i : BitVec 8) (lit : Word32) (s : State) : Result :=
  computeOp (.subSx d a i lit) s d (fun c => intOp .sub (c.get a) (lit.signExtend 64))

/-- MUL, register form (R284). -/
def execMul (d a b : BitVec 8) (s : State) : Result :=
  computeOp (.mul d a b) s d (fun c => intOp .mul (c.get a) (c.get b))

/-- MUL_IMM, immediate form, I8 sign-extended (R284). -/
def execMulImm (d a i : BitVec 8) (s : State) : Result :=
  computeOp (.mulImm d a i) s d (fun c => intOp .mul (c.get a) (i.signExtend 64))

/-- MUL_SX, SX form, the literal sign-extended (R284). -/
def execMulSx (d a i : BitVec 8) (lit : Word32) (s : State) : Result :=
  computeOp (.mulSx d a i lit) s d (fun c => intOp .mul (c.get a) (lit.signExtend 64))

/-- MULH, register form (R284). -/
def execMulh (d a b : BitVec 8) (s : State) : Result :=
  computeOp (.mulh d a b) s d (fun c => intOp .mulh (c.get a) (c.get b))

/-- MULH_IMM, immediate form, I8 sign-extended (R284). -/
def execMulhImm (d a i : BitVec 8) (s : State) : Result :=
  computeOp (.mulhImm d a i) s d (fun c => intOp .mulh (c.get a) (i.signExtend 64))

/-- MULH_SX, SX form, the literal sign-extended (R284). -/
def execMulhSx (d a i : BitVec 8) (lit : Word32) (s : State) : Result :=
  computeOp (.mulhSx d a i lit) s d (fun c => intOp .mulh (c.get a) (lit.signExtend 64))

/-- MULHN, register form (R284). -/
def execMulhn (d a b : BitVec 8) (s : State) : Result :=
  computeOp (.mulhn d a b) s d (fun c => intOp .mulhn (c.get a) (c.get b))

/-- MULHN_IMM, immediate form, I8 sign-extended (R284). -/
def execMulhnImm (d a i : BitVec 8) (s : State) : Result :=
  computeOp (.mulhnImm d a i) s d (fun c => intOp .mulhn (c.get a) (i.signExtend 64))

/-- MULHN_SX, SX form, the literal sign-extended (R284). -/
def execMulhnSx (d a i : BitVec 8) (lit : Word32) (s : State) : Result :=
  computeOp (.mulhnSx d a i lit) s d (fun c => intOp .mulhn (c.get a) (lit.signExtend 64))

/-- DIV, register form (R285). -/
def execDiv (d a b : BitVec 8) (s : State) : Result :=
  computeOp (.div d a b) s d (fun c => intOp .div (c.get a) (c.get b))

/-- DIV_IMM, immediate form, I8 sign-extended (R285). -/
def execDivImm (d a i : BitVec 8) (s : State) : Result :=
  computeOp (.divImm d a i) s d (fun c => intOp .div (c.get a) (i.signExtend 64))

/-- DIV_SX, SX form, the literal sign-extended (R285). -/
def execDivSx (d a i : BitVec 8) (lit : Word32) (s : State) : Result :=
  computeOp (.divSx d a i lit) s d (fun c => intOp .div (c.get a) (lit.signExtend 64))

/-- DIVN, register form (R285). -/
def execDivn (d a b : BitVec 8) (s : State) : Result :=
  computeOp (.divn d a b) s d (fun c => intOp .divn (c.get a) (c.get b))

/-- DIVN_IMM, immediate form, I8 sign-extended (R285). -/
def execDivnImm (d a i : BitVec 8) (s : State) : Result :=
  computeOp (.divnImm d a i) s d (fun c => intOp .divn (c.get a) (i.signExtend 64))

/-- DIVN_SX, SX form, the literal sign-extended (R285). -/
def execDivnSx (d a i : BitVec 8) (lit : Word32) (s : State) : Result :=
  computeOp (.divnSx d a i lit) s d (fun c => intOp .divn (c.get a) (lit.signExtend 64))

/-- REM, register form (R285). -/
def execRem (d a b : BitVec 8) (s : State) : Result :=
  computeOp (.rem d a b) s d (fun c => intOp .rem (c.get a) (c.get b))

/-- REM_IMM, immediate form, I8 sign-extended (R285). -/
def execRemImm (d a i : BitVec 8) (s : State) : Result :=
  computeOp (.remImm d a i) s d (fun c => intOp .rem (c.get a) (i.signExtend 64))

/-- REM_SX, SX form, the literal sign-extended (R285). -/
def execRemSx (d a i : BitVec 8) (lit : Word32) (s : State) : Result :=
  computeOp (.remSx d a i lit) s d (fun c => intOp .rem (c.get a) (lit.signExtend 64))

/-- REMN, register form (R285). -/
def execRemn (d a b : BitVec 8) (s : State) : Result :=
  computeOp (.remn d a b) s d (fun c => intOp .remn (c.get a) (c.get b))

/-- REMN_IMM, immediate form, I8 sign-extended (R285). -/
def execRemnImm (d a i : BitVec 8) (s : State) : Result :=
  computeOp (.remnImm d a i) s d (fun c => intOp .remn (c.get a) (i.signExtend 64))

/-- REMN_SX, SX form, the literal sign-extended (R285). -/
def execRemnSx (d a i : BitVec 8) (lit : Word32) (s : State) : Result :=
  computeOp (.remnSx d a i lit) s d (fun c => intOp .remn (c.get a) (lit.signExtend 64))

/-- AND, register form (R284). -/
def execAnd (d a b : BitVec 8) (s : State) : Result :=
  computeOp (.and d a b) s d (fun c => intOp .and (c.get a) (c.get b))

/-- AND_IMM, immediate form, I8 sign-extended (R284). -/
def execAndImm (d a i : BitVec 8) (s : State) : Result :=
  computeOp (.andImm d a i) s d (fun c => intOp .and (c.get a) (i.signExtend 64))

/-- AND_SX, SX form, the literal sign-extended (R284). -/
def execAndSx (d a i : BitVec 8) (lit : Word32) (s : State) : Result :=
  computeOp (.andSx d a i lit) s d (fun c => intOp .and (c.get a) (lit.signExtend 64))

/-- OR, register form (R284). -/
def execOr (d a b : BitVec 8) (s : State) : Result :=
  computeOp (.or d a b) s d (fun c => intOp .or (c.get a) (c.get b))

/-- OR_IMM, immediate form, I8 sign-extended (R284). -/
def execOrImm (d a i : BitVec 8) (s : State) : Result :=
  computeOp (.orImm d a i) s d (fun c => intOp .or (c.get a) (i.signExtend 64))

/-- OR_SX, SX form, the literal sign-extended (R284). -/
def execOrSx (d a i : BitVec 8) (lit : Word32) (s : State) : Result :=
  computeOp (.orSx d a i lit) s d (fun c => intOp .or (c.get a) (lit.signExtend 64))

/-- XOR, register form (R284). -/
def execXor (d a b : BitVec 8) (s : State) : Result :=
  computeOp (.xor d a b) s d (fun c => intOp .xor (c.get a) (c.get b))

/-- XOR_IMM, immediate form, I8 sign-extended (R284). -/
def execXorImm (d a i : BitVec 8) (s : State) : Result :=
  computeOp (.xorImm d a i) s d (fun c => intOp .xor (c.get a) (i.signExtend 64))

/-- XOR_SX, SX form, the literal sign-extended (R284). -/
def execXorSx (d a i : BitVec 8) (lit : Word32) (s : State) : Result :=
  computeOp (.xorSx d a i lit) s d (fun c => intOp .xor (c.get a) (lit.signExtend 64))

/-- ANDN, register form (R284). -/
def execAndn (d a b : BitVec 8) (s : State) : Result :=
  computeOp (.andn d a b) s d (fun c => intOp .andn (c.get a) (c.get b))

/-- ANDN_IMM, immediate form, I8 sign-extended (R284). -/
def execAndnImm (d a i : BitVec 8) (s : State) : Result :=
  computeOp (.andnImm d a i) s d (fun c => intOp .andn (c.get a) (i.signExtend 64))

/-- ANDN_SX, SX form, the literal sign-extended (R284). -/
def execAndnSx (d a i : BitVec 8) (lit : Word32) (s : State) : Result :=
  computeOp (.andnSx d a i lit) s d (fun c => intOp .andn (c.get a) (lit.signExtend 64))

/-- SHL, register form (R284). -/
def execShl (d a b : BitVec 8) (s : State) : Result :=
  computeOp (.shl d a b) s d (fun c => intOp .shl (c.get a) (c.get b))

/-- SHL_IMM, immediate form, I8 sign-extended (R284). -/
def execShlImm (d a i : BitVec 8) (s : State) : Result :=
  computeOp (.shlImm d a i) s d (fun c => intOp .shl (c.get a) (i.signExtend 64))

/-- SHL_SX, SX form, the literal sign-extended (R284). -/
def execShlSx (d a i : BitVec 8) (lit : Word32) (s : State) : Result :=
  computeOp (.shlSx d a i lit) s d (fun c => intOp .shl (c.get a) (lit.signExtend 64))

/-- SHR, register form (R284). -/
def execShr (d a b : BitVec 8) (s : State) : Result :=
  computeOp (.shr d a b) s d (fun c => intOp .shr (c.get a) (c.get b))

/-- SHR_IMM, immediate form, I8 sign-extended (R284). -/
def execShrImm (d a i : BitVec 8) (s : State) : Result :=
  computeOp (.shrImm d a i) s d (fun c => intOp .shr (c.get a) (i.signExtend 64))

/-- SHR_SX, SX form, the literal sign-extended (R284). -/
def execShrSx (d a i : BitVec 8) (lit : Word32) (s : State) : Result :=
  computeOp (.shrSx d a i lit) s d (fun c => intOp .shr (c.get a) (lit.signExtend 64))

/-- SAR, register form (R284). -/
def execSar (d a b : BitVec 8) (s : State) : Result :=
  computeOp (.sar d a b) s d (fun c => intOp .sar (c.get a) (c.get b))

/-- SAR_IMM, immediate form, I8 sign-extended (R284). -/
def execSarImm (d a i : BitVec 8) (s : State) : Result :=
  computeOp (.sarImm d a i) s d (fun c => intOp .sar (c.get a) (i.signExtend 64))

/-- SAR_SX, SX form, the literal sign-extended (R284). -/
def execSarSx (d a i : BitVec 8) (lit : Word32) (s : State) : Result :=
  computeOp (.sarSx d a i lit) s d (fun c => intOp .sar (c.get a) (lit.signExtend 64))

/-- ROT, register form (R284). -/
def execRot (d a b : BitVec 8) (s : State) : Result :=
  computeOp (.rot d a b) s d (fun c => intOp .rot (c.get a) (c.get b))

/-- ROT_IMM, immediate form, I8 sign-extended (R284). -/
def execRotImm (d a i : BitVec 8) (s : State) : Result :=
  computeOp (.rotImm d a i) s d (fun c => intOp .rot (c.get a) (i.signExtend 64))

/-- ROT_SX, SX form, the literal sign-extended (R284). -/
def execRotSx (d a i : BitVec 8) (lit : Word32) (s : State) : Result :=
  computeOp (.rotSx d a i lit) s d (fun c => intOp .rot (c.get a) (lit.signExtend 64))

/-- MIN, register form (R284). -/
def execMin (d a b : BitVec 8) (s : State) : Result :=
  computeOp (.min d a b) s d (fun c => intOp .min (c.get a) (c.get b))

/-- MIN_IMM, immediate form, I8 sign-extended (R284). -/
def execMinImm (d a i : BitVec 8) (s : State) : Result :=
  computeOp (.minImm d a i) s d (fun c => intOp .min (c.get a) (i.signExtend 64))

/-- MIN_SX, SX form, the literal sign-extended (R284). -/
def execMinSx (d a i : BitVec 8) (lit : Word32) (s : State) : Result :=
  computeOp (.minSx d a i lit) s d (fun c => intOp .min (c.get a) (lit.signExtend 64))

/-- MAX, register form (R284). -/
def execMax (d a b : BitVec 8) (s : State) : Result :=
  computeOp (.max d a b) s d (fun c => intOp .max (c.get a) (c.get b))

/-- MAX_IMM, immediate form, I8 sign-extended (R284). -/
def execMaxImm (d a i : BitVec 8) (s : State) : Result :=
  computeOp (.maxImm d a i) s d (fun c => intOp .max (c.get a) (i.signExtend 64))

/-- MAX_SX, SX form, the literal sign-extended (R284). -/
def execMaxSx (d a i : BitVec 8) (lit : Word32) (s : State) : Result :=
  computeOp (.maxSx d a i lit) s d (fun c => intOp .max (c.get a) (lit.signExtend 64))

/-- MINN, register form (R284). -/
def execMinn (d a b : BitVec 8) (s : State) : Result :=
  computeOp (.minn d a b) s d (fun c => intOp .minn (c.get a) (c.get b))

/-- MINN_IMM, immediate form, I8 sign-extended (R284). -/
def execMinnImm (d a i : BitVec 8) (s : State) : Result :=
  computeOp (.minnImm d a i) s d (fun c => intOp .minn (c.get a) (i.signExtend 64))

/-- MINN_SX, SX form, the literal sign-extended (R284). -/
def execMinnSx (d a i : BitVec 8) (lit : Word32) (s : State) : Result :=
  computeOp (.minnSx d a i lit) s d (fun c => intOp .minn (c.get a) (lit.signExtend 64))

/-- MAXN, register form (R284). -/
def execMaxn (d a b : BitVec 8) (s : State) : Result :=
  computeOp (.maxn d a b) s d (fun c => intOp .maxn (c.get a) (c.get b))

/-- MAXN_IMM, immediate form, I8 sign-extended (R284). -/
def execMaxnImm (d a i : BitVec 8) (s : State) : Result :=
  computeOp (.maxnImm d a i) s d (fun c => intOp .maxn (c.get a) (i.signExtend 64))

/-- MAXN_SX, SX form, the literal sign-extended (R284). -/
def execMaxnSx (d a i : BitVec 8) (lit : Word32) (s : State) : Result :=
  computeOp (.maxnSx d a i lit) s d (fun c => intOp .maxn (c.get a) (lit.signExtend 64))

/-- CMP, register form (R286). -/
def execCmp (d a b : BitVec 8) (s : State) : Result :=
  computeOp (.cmp d a b) s d (fun c => intOp .cmp (c.get a) (c.get b))

/-- CMP_IMM, immediate form, I8 sign-extended (R286). -/
def execCmpImm (d a i : BitVec 8) (s : State) : Result :=
  computeOp (.cmpImm d a i) s d (fun c => intOp .cmp (c.get a) (i.signExtend 64))

/-- CMP_SX, SX form, the literal sign-extended (R286). -/
def execCmpSx (d a i : BitVec 8) (lit : Word32) (s : State) : Result :=
  computeOp (.cmpSx d a i lit) s d (fun c => intOp .cmp (c.get a) (lit.signExtend 64))

/-- CLZ: the number of leading zero bits, 64 for 0 (R287). -/
def execClz (d a : BitVec 8) (s : State) : Result :=
  computeOp (.clz d a) s d (fun c => BitVec.ofNat 64 (leadingZeros (c.get a)))

/-- POPC: the number of set bits (R287). -/
def execPopc (d a : BitVec 8) (s : State) : Result :=
  computeOp (.popc d a) s d (fun c => BitVec.ofNat 64 (popCount (c.get a)))

/-- SEL: a if it is not 0, else b (R287). -/
def execSel (d a b : BitVec 8) (s : State) : Result :=
  computeOp (.sel d a b) s d (fun c => if c.get a ≠ 0 then c.get a else c.get b)

/-- BFX: extract the field that b describes (R288). -/
def execBfx (d a b : BitVec 8) (s : State) : Result :=
  computeOp (.bfx d a b) s d (fun c => bfExtract (c.get a) (c.get b))

/-- BFI: insert a into d at the field that b describes (R288). -/
def execBfi (d a b : BitVec 8) (s : State) : Result :=
  computeOp (.bfi d a b) s d (fun c => bfInsert (c.get d) (c.get a) (c.get b))

/-- LI: a 16-bit constant, sign-extended (R289). -/
def execLi (d : BitVec 8) (i : BitVec 16) (s : State) : Result :=
  computeOp (.li d i) s d (fun _ => i.signExtend 64)

/-- LI in the SX form: the literal, sign-extended (R289). -/
def execLiSx (d : BitVec 8) (i : BitVec 16) (lit : Word32) (s : State) : Result :=
  computeOp (.liSx d i lit) s d (fun _ => lit.signExtend 64)

/-- The result of LIH: the upper half takes the constant, the lower half stays (R289). -/
def withHigh (d : Word) (v : Word32) : Word := v ++ d.extractLsb' 0 32

/-- LIH (R289). -/
def execLih (d : BitVec 8) (i : BitVec 16) (s : State) : Result :=
  computeOp (.lih d i) s d (fun c => withHigh (c.get d) (i.signExtend 32))

/-- LIH in the SX form (R289). -/
def execLihSx (d : BitVec 8) (i : BitVec 16) (lit : Word32) (s : State) : Result :=
  computeOp (.lihSx d i lit) s d (fun c => withHigh (c.get d) lit)

end Sys2Proof.Machine
end

