-- ==== Sys2Proof/Machine/Dispatch.lean ====
section
/-!
DEFINITION. The meaning of every instruction and step of the opcode table: one arm for each constructor of Instr.
-/
namespace Sys2Proof.Machine

/-- The meaning of an instruction at a state. -/
def exec (i : Instr) (s : State) : Host.Outcome State Fault Refusal :=
  match i with
  | .add d a b => Sys2Proof.Machine.execAdd d a b s
  | .addImm d a i1 => Sys2Proof.Machine.execAddImm d a i1 s
  | .addSx d a i1 lit => Sys2Proof.Machine.execAddSx d a i1 lit s
  | .sub d a b => Sys2Proof.Machine.execSub d a b s
  | .subImm d a i1 => Sys2Proof.Machine.execSubImm d a i1 s
  | .subSx d a i1 lit => Sys2Proof.Machine.execSubSx d a i1 lit s
  | .mul d a b => Sys2Proof.Machine.execMul d a b s
  | .mulImm d a i1 => Sys2Proof.Machine.execMulImm d a i1 s
  | .mulSx d a i1 lit => Sys2Proof.Machine.execMulSx d a i1 lit s
  | .mulh d a b => Sys2Proof.Machine.execMulh d a b s
  | .mulhImm d a i1 => Sys2Proof.Machine.execMulhImm d a i1 s
  | .mulhSx d a i1 lit => Sys2Proof.Machine.execMulhSx d a i1 lit s
  | .mulhn d a b => Sys2Proof.Machine.execMulhn d a b s
  | .mulhnImm d a i1 => Sys2Proof.Machine.execMulhnImm d a i1 s
  | .mulhnSx d a i1 lit => Sys2Proof.Machine.execMulhnSx d a i1 lit s
  | .div d a b => Sys2Proof.Machine.execDiv d a b s
  | .divImm d a i1 => Sys2Proof.Machine.execDivImm d a i1 s
  | .divSx d a i1 lit => Sys2Proof.Machine.execDivSx d a i1 lit s
  | .divn d a b => Sys2Proof.Machine.execDivn d a b s
  | .divnImm d a i1 => Sys2Proof.Machine.execDivnImm d a i1 s
  | .divnSx d a i1 lit => Sys2Proof.Machine.execDivnSx d a i1 lit s
  | .rem d a b => Sys2Proof.Machine.execRem d a b s
  | .remImm d a i1 => Sys2Proof.Machine.execRemImm d a i1 s
  | .remSx d a i1 lit => Sys2Proof.Machine.execRemSx d a i1 lit s
  | .remn d a b => Sys2Proof.Machine.execRemn d a b s
  | .remnImm d a i1 => Sys2Proof.Machine.execRemnImm d a i1 s
  | .remnSx d a i1 lit => Sys2Proof.Machine.execRemnSx d a i1 lit s
  | .and d a b => Sys2Proof.Machine.execAnd d a b s
  | .andImm d a i1 => Sys2Proof.Machine.execAndImm d a i1 s
  | .andSx d a i1 lit => Sys2Proof.Machine.execAndSx d a i1 lit s
  | .or d a b => Sys2Proof.Machine.execOr d a b s
  | .orImm d a i1 => Sys2Proof.Machine.execOrImm d a i1 s
  | .orSx d a i1 lit => Sys2Proof.Machine.execOrSx d a i1 lit s
  | .xor d a b => Sys2Proof.Machine.execXor d a b s
  | .xorImm d a i1 => Sys2Proof.Machine.execXorImm d a i1 s
  | .xorSx d a i1 lit => Sys2Proof.Machine.execXorSx d a i1 lit s
  | .andn d a b => Sys2Proof.Machine.execAndn d a b s
  | .andnImm d a i1 => Sys2Proof.Machine.execAndnImm d a i1 s
  | .andnSx d a i1 lit => Sys2Proof.Machine.execAndnSx d a i1 lit s
  | .shl d a b => Sys2Proof.Machine.execShl d a b s
  | .shlImm d a i1 => Sys2Proof.Machine.execShlImm d a i1 s
  | .shlSx d a i1 lit => Sys2Proof.Machine.execShlSx d a i1 lit s
  | .shr d a b => Sys2Proof.Machine.execShr d a b s
  | .shrImm d a i1 => Sys2Proof.Machine.execShrImm d a i1 s
  | .shrSx d a i1 lit => Sys2Proof.Machine.execShrSx d a i1 lit s
  | .sar d a b => Sys2Proof.Machine.execSar d a b s
  | .sarImm d a i1 => Sys2Proof.Machine.execSarImm d a i1 s
  | .sarSx d a i1 lit => Sys2Proof.Machine.execSarSx d a i1 lit s
  | .rot d a b => Sys2Proof.Machine.execRot d a b s
  | .rotImm d a i1 => Sys2Proof.Machine.execRotImm d a i1 s
  | .rotSx d a i1 lit => Sys2Proof.Machine.execRotSx d a i1 lit s
  | .min d a b => Sys2Proof.Machine.execMin d a b s
  | .minImm d a i1 => Sys2Proof.Machine.execMinImm d a i1 s
  | .minSx d a i1 lit => Sys2Proof.Machine.execMinSx d a i1 lit s
  | .max d a b => Sys2Proof.Machine.execMax d a b s
  | .maxImm d a i1 => Sys2Proof.Machine.execMaxImm d a i1 s
  | .maxSx d a i1 lit => Sys2Proof.Machine.execMaxSx d a i1 lit s
  | .minn d a b => Sys2Proof.Machine.execMinn d a b s
  | .minnImm d a i1 => Sys2Proof.Machine.execMinnImm d a i1 s
  | .minnSx d a i1 lit => Sys2Proof.Machine.execMinnSx d a i1 lit s
  | .maxn d a b => Sys2Proof.Machine.execMaxn d a b s
  | .maxnImm d a i1 => Sys2Proof.Machine.execMaxnImm d a i1 s
  | .maxnSx d a i1 lit => Sys2Proof.Machine.execMaxnSx d a i1 lit s
  | .cmp d a b => Sys2Proof.Machine.execCmp d a b s
  | .cmpImm d a i1 => Sys2Proof.Machine.execCmpImm d a i1 s
  | .cmpSx d a i1 lit => Sys2Proof.Machine.execCmpSx d a i1 lit s
  | .clz d a => Sys2Proof.Machine.execClz d a s
  | .popc d a => Sys2Proof.Machine.execPopc d a s
  | .sel d a b => Sys2Proof.Machine.execSel d a b s
  | .bfx d a b => Sys2Proof.Machine.execBfx d a b s
  | .bfi d a b => Sys2Proof.Machine.execBfi d a b s
  | .fadd d a b => Sys2Proof.Machine.execFadd d a b s
  | .fmul d a b => Sys2Proof.Machine.execFmul d a b s
  | .ffma d a b => Sys2Proof.Machine.execFfma d a b s
  | .fcmp d a b => Sys2Proof.Machine.execFcmp d a b s
  | .fcvt d a k => Sys2Proof.Machine.execFcvt d a k s
  | .li d i1 => Sys2Proof.Machine.execLi d i1 s
  | .liSx d i1 lit => Sys2Proof.Machine.execLiSx d i1 lit s
  | .lih d i1 => Sys2Proof.Machine.execLih d i1 s
  | .lihSx d i1 lit => Sys2Proof.Machine.execLihSx d i1 lit s
  | .sld d a m => Sys2Proof.Machine.execSld d a m s
  | .sldSx d a m lit => Sys2Proof.Machine.execSldSx d a m lit s
  | .sst d a m => Sys2Proof.Machine.execSst d a m s
  | .sstSx d a m lit => Sys2Proof.Machine.execSstSx d a m lit s
  | .slds d a m => Sys2Proof.Machine.execSlds d a m s
  | .sldsSx d a m lit => Sys2Proof.Machine.execSldsSx d a m lit s
  | .ssts d a m => Sys2Proof.Machine.execSsts d a m s
  | .sstsSx d a m lit => Sys2Proof.Machine.execSstsSx d a m lit s
  | .satom d a m lit => Sys2Proof.Machine.execSatom d a m lit s
  | .br o => Sys2Proof.Machine.execBr o s
  | .call o => Sys2Proof.Machine.execCall o s
  | .brc a c o => Sys2Proof.Machine.execBrc a c o s
  | .brm n p t h o => Sys2Proof.Machine.execBrm n p t h o s
  | .rcv t => Sys2Proof.Machine.execRcv t s
  | .jmpi a => Sys2Proof.Machine.execJmpi a s
  | .ret => Sys2Proof.Machine.execRet s
  | .issue s1 b => Sys2Proof.Machine.execIssue s1 b s
  | .exit => Sys2Proof.Machine.execExit s
  | .wait l s1 c t => Sys2Proof.Machine.execWait l s1 c t s
  | .fence o s1 => Sys2Proof.Machine.execFence o s1 s
  | .nop => Sys2Proof.Machine.execNop s
  | .barinit d a e => Sys2Proof.Machine.execBarinit d a e s
  | .bararr d a s1 => Sys2Proof.Machine.execBararr d a s1 s
  | .barexp d a s1 => Sys2Proof.Machine.execBarexp d a s1 s
  | .barwait d a m lit => Sys2Proof.Machine.execBarwait d a m lit s
  | .barinv a s1 => Sys2Proof.Machine.execBarinv a s1 s
  | .barph d a => Sys2Proof.Machine.execBarph d a s
  | .cvjoin d a => Sys2Proof.Machine.execCvjoin d a s
  | .cvleave => Sys2Proof.Machine.execCvleave s
  | .cvstep => Sys2Proof.Machine.execCvstep s
  | .setfmtReg a => Sys2Proof.Machine.execSetfmtReg a s
  | .setfmtImm i1 => Sys2Proof.Machine.execSetfmtImm i1 s
  | .mma a => Sys2Proof.Machine.execMma a s
  | .mfence d => Sys2Proof.Machine.execMfence d s
  | .mwait a => Sys2Proof.Machine.execMwait a s
  | .cpy d a => Sys2Proof.Machine.execCpy d a s
  | .cpym d a => Sys2Proof.Machine.execCpym d a s
  | .cpyr d a => Sys2Proof.Machine.execCpyr d a s
  | .cpyx d a => Sys2Proof.Machine.execCpyx d a s
  | .nlsend s1 d a b => Sys2Proof.Machine.execNlsend s1 d a b s
  | .nlrecv s1 d a b => Sys2Proof.Machine.execNlrecv s1 d a b s
  | .tspawn d a => Sys2Proof.Machine.execTspawn d a s
  | .tdep d a => Sys2Proof.Machine.execTdep d a s
  | .tdone => Sys2Proof.Machine.execTdone s
  | .qpush d a b => Sys2Proof.Machine.execQpush d a b s
  | .qpop d a => Sys2Proof.Machine.execQpop d a s
  | .flushred => Sys2Proof.Machine.execFlushred s
  | .trap i1 => Sys2Proof.Machine.execTrap i1 s
  | .eret => Sys2Proof.Machine.execEret s
  | .mfs d i1 => Sys2Proof.Machine.execMfs d i1 s
  | .mts d i1 => Sys2Proof.Machine.execMts d i1 s
  | .yield => Sys2Proof.Machine.execYield s
  | .reggrow a => Sys2Proof.Machine.execReggrow a s
  | .regshrink a => Sys2Proof.Machine.execRegshrink a s
  | .bkpt => Sys2Proof.Machine.execBkpt s
  | .vfadd w => Sys2Proof.Machine.execVfadd w s
  | .vfaddLi w => Sys2Proof.Machine.execVfaddLi w s
  | .vfsub w => Sys2Proof.Machine.execVfsub w s
  | .vfsubLi w => Sys2Proof.Machine.execVfsubLi w s
  | .vfmul w => Sys2Proof.Machine.execVfmul w s
  | .vfmulLi w => Sys2Proof.Machine.execVfmulLi w s
  | .vffma w => Sys2Proof.Machine.execVffma w s
  | .vffmaLi w => Sys2Proof.Machine.execVffmaLi w s
  | .vfmin w => Sys2Proof.Machine.execVfmin w s
  | .vfminLi w => Sys2Proof.Machine.execVfminLi w s
  | .vfmax w => Sys2Proof.Machine.execVfmax w s
  | .vfmaxLi w => Sys2Proof.Machine.execVfmaxLi w s
  | .vfrcp w => Sys2Proof.Machine.execVfrcp w s
  | .vfrsq w => Sys2Proof.Machine.execVfrsq w s
  | .vfsqrt w => Sys2Proof.Machine.execVfsqrt w s
  | .vfdiv w => Sys2Proof.Machine.execVfdiv w s
  | .vfdivLi w => Sys2Proof.Machine.execVfdivLi w s
  | .vfexp2 w => Sys2Proof.Machine.execVfexp2 w s
  | .vflog2 w => Sys2Proof.Machine.execVflog2 w s
  | .vfsin w => Sys2Proof.Machine.execVfsin w s
  | .vfcos w => Sys2Proof.Machine.execVfcos w s
  | .vfcmp w => Sys2Proof.Machine.execVfcmp w s
  | .vfcmpLi w => Sys2Proof.Machine.execVfcmpLi w s
  | .vfclass w => Sys2Proof.Machine.execVfclass w s
  | .vfrnd w => Sys2Proof.Machine.execVfrnd w s
  | .vadd w => Sys2Proof.Machine.execVadd w s
  | .vaddLi w => Sys2Proof.Machine.execVaddLi w s
  | .vsub w => Sys2Proof.Machine.execVsub w s
  | .vsubLi w => Sys2Proof.Machine.execVsubLi w s
  | .vmul w => Sys2Proof.Machine.execVmul w s
  | .vmulLi w => Sys2Proof.Machine.execVmulLi w s
  | .vmulh w => Sys2Proof.Machine.execVmulh w s
  | .vmulhLi w => Sys2Proof.Machine.execVmulhLi w s
  | .vmad w => Sys2Proof.Machine.execVmad w s
  | .vmadLi w => Sys2Proof.Machine.execVmadLi w s
  | .vmin w => Sys2Proof.Machine.execVmin w s
  | .vminLi w => Sys2Proof.Machine.execVminLi w s
  | .vmax w => Sys2Proof.Machine.execVmax w s
  | .vmaxLi w => Sys2Proof.Machine.execVmaxLi w s
  | .vabs w => Sys2Proof.Machine.execVabs w s
  | .vand w => Sys2Proof.Machine.execVand w s
  | .vandLi w => Sys2Proof.Machine.execVandLi w s
  | .vor w => Sys2Proof.Machine.execVor w s
  | .vorLi w => Sys2Proof.Machine.execVorLi w s
  | .vxor w => Sys2Proof.Machine.execVxor w s
  | .vxorLi w => Sys2Proof.Machine.execVxorLi w s
  | .vshl w => Sys2Proof.Machine.execVshl w s
  | .vshlLi w => Sys2Proof.Machine.execVshlLi w s
  | .vshr w => Sys2Proof.Machine.execVshr w s
  | .vshrLi w => Sys2Proof.Machine.execVshrLi w s
  | .vsar w => Sys2Proof.Machine.execVsar w s
  | .vsarLi w => Sys2Proof.Machine.execVsarLi w s
  | .vbfx w => Sys2Proof.Machine.execVbfx w s
  | .vbfxLi w => Sys2Proof.Machine.execVbfxLi w s
  | .vbfi w => Sys2Proof.Machine.execVbfi w s
  | .vbfiLi w => Sys2Proof.Machine.execVbfiLi w s
  | .vpopc w => Sys2Proof.Machine.execVpopc w s
  | .vclz w => Sys2Proof.Machine.execVclz w s
  | .vcmp w => Sys2Proof.Machine.execVcmp w s
  | .vcmpLi w => Sys2Proof.Machine.execVcmpLi w s
  | .vsadd w => Sys2Proof.Machine.execVsadd w s
  | .vsaddLi w => Sys2Proof.Machine.execVsaddLi w s
  | .vssub w => Sys2Proof.Machine.execVssub w s
  | .vssubLi w => Sys2Proof.Machine.execVssubLi w s
  | .vsel w => Sys2Proof.Machine.execVsel w s
  | .vselLi w => Sys2Proof.Machine.execVselLi w s
  | .pset w => Sys2Proof.Machine.execPset w s
  | .pand w => Sys2Proof.Machine.execPand w s
  | .por w => Sys2Proof.Machine.execPor w s
  | .pxor w => Sys2Proof.Machine.execPxor w s
  | .pnot w => Sys2Proof.Machine.execPnot w s
  | .vmask w => Sys2Proof.Machine.execVmask w s
  | .vcvt w => Sys2Proof.Machine.execVcvt w s
  | .vpack w => Sys2Proof.Machine.execVpack w s
  | .vunpack w => Sys2Proof.Machine.execVunpack w s
  | .vscale w => Sys2Proof.Machine.execVscale w s
  | .vshuf w => Sys2Proof.Machine.execVshuf w s
  | .vbcast w => Sys2Proof.Machine.execVbcast w s
  | .vrot w => Sys2Proof.Machine.execVrot w s
  | .vxlane w => Sys2Proof.Machine.execVxlane w s
  | .vreadlane w => Sys2Proof.Machine.execVreadlane w s
  | .vwritelane w => Sys2Proof.Machine.execVwritelane w s
  | .viota w => Sys2Proof.Machine.execViota w s
  | .vreduce w => Sys2Proof.Machine.execVreduce w s
  | .vmov w => Sys2Proof.Machine.execVmov w s
  | .vmovi w => Sys2Proof.Machine.execVmovi w s
  | .vld w => Sys2Proof.Machine.execVld w s
  | .vst w => Sys2Proof.Machine.execVst w s
  | .vldx w => Sys2Proof.Machine.execVldx w s
  | .vstx w => Sys2Proof.Machine.execVstx w s
  | .vlds w => Sys2Proof.Machine.execVlds w s
  | .vsts w => Sys2Proof.Machine.execVsts w s
  | .vldc w => Sys2Proof.Machine.execVldc w s
  | .vstp w => Sys2Proof.Machine.execVstp w s
  | .vpref w => Sys2Proof.Machine.execVpref w s
  | .vatom w => Sys2Proof.Machine.execVatom w s
  | .vred w => Sys2Proof.Machine.execVred w s
  | .vaccrd w => Sys2Proof.Machine.execVaccrd w s
  | .vtrsend w => Sys2Proof.Machine.execVtrsend w s
  | .vtrrecv w => Sys2Proof.Machine.execVtrrecv w s
  | .faultRecordDrain die => Sys2Proof.Machine.execFaultRecordDrain die s
  | .tableWalk id ecc => Sys2Proof.Machine.execTableWalk id ecc s
  | .tlbInvalidateAll v => Sys2Proof.Machine.execTlbInvalidateAll v s
  | .tlbInvalidateJob v => Sys2Proof.Machine.execTlbInvalidateJob v s
  | .tlbInvalidateRange v => Sys2Proof.Machine.execTlbInvalidateRange v s
  | .tlbInvalidateComplete => Sys2Proof.Machine.execTlbInvalidateComplete s
  | .create job v => Sys2Proof.Machine.execCreate job v s
  | .endJob job v => Sys2Proof.Machine.execEndJob job v s
  | .jobEnded job => Sys2Proof.Machine.execJobEnded job s
  | .keyLoad v => Sys2Proof.Machine.execKeyLoad v s
  | .keyGen v => Sys2Proof.Machine.execKeyGen v s
  | .keyDestroy v => Sys2Proof.Machine.execKeyDestroy v s
  | .keyCommandComplete => Sys2Proof.Machine.execKeyCommandComplete s
  | .bindRegions v => Sys2Proof.Machine.execBindRegions v s
  | .unbindRegions v => Sys2Proof.Machine.execUnbindRegions v s
  | .liveMapCommandComplete => Sys2Proof.Machine.execLiveMapCommandComplete s
  | .mpointSwitch v => Sys2Proof.Machine.execMpointSwitch v s
  | .mpointRelease => Sys2Proof.Machine.execMpointRelease s
  | .retrain stack v => Sys2Proof.Machine.execRetrain stack v s
  | .retrainDone stack => Sys2Proof.Machine.execRetrainDone stack s
  | .repair stack v => Sys2Proof.Machine.execRepair stack v s
  | .eyeAlert stack => Sys2Proof.Machine.execEyeAlert stack s
  | .eyestatRead stack => Sys2Proof.Machine.execEyestatRead stack s
  | .rd id ecc => Sys2Proof.Machine.execRd id ecc s
  | .wr id => Sys2Proof.Machine.execWr id s
  | .wrm id ecc => Sys2Proof.Machine.execWrm id ecc s
  | .atm id ecc => Sys2Proof.Machine.execAtm id ecc s
  | .grd id ecc => Sys2Proof.Machine.execGrd id ecc s
  | .gwr id => Sys2Proof.Machine.execGwr id s
  | .crossingNotice id => Sys2Proof.Machine.execCrossingNotice id s
  | .packetReply id => Sys2Proof.Machine.execPacketReply id s
  | .portQueueRelease die stack => Sys2Proof.Machine.execPortQueueRelease die stack s
  | .lensReadRequest id => Sys2Proof.Machine.execLensReadRequest id s
  | .lensWritePassage id => Sys2Proof.Machine.execLensWritePassage id s
  | .lensEntryReply id => Sys2Proof.Machine.execLensEntryReply id s
  | .lensIntakeRelease slice => Sys2Proof.Machine.execLensIntakeRelease slice s
  | .hostMemoryRead off size ecc => Sys2Proof.Machine.execHostMemoryRead off size ecc s
  | .hostMemoryWrite off bytes uciemod => Sys2Proof.Machine.execHostMemoryWrite off bytes uciemod s
  | .queueApertureStore q off bytes => Sys2Proof.Machine.execQueueApertureStore q off bytes s
  | .peerAccessArrival acc => Sys2Proof.Machine.execPeerAccessArrival acc s
  | .registerWrite off bytes => Sys2Proof.Machine.execRegisterWrite off bytes s
  | .queueEnable q v => Sys2Proof.Machine.execQueueEnable q v s
  | .queueDisable q v => Sys2Proof.Machine.execQueueDisable q v s
  | .depcntFree c => Sys2Proof.Machine.execDepcntFree c s
  | .debugHalt job v => Sys2Proof.Machine.execDebugHalt job v s
  | .debugRelease job v => Sys2Proof.Machine.execDebugRelease job v s
  | .verify v => Sys2Proof.Machine.execVerify v s
  | .install v => Sys2Proof.Machine.execInstall v s
  | .fwCommandComplete => Sys2Proof.Machine.execFwCommandComplete s
  | .dumpstatClear v => Sys2Proof.Machine.execDumpstatClear v s
  | .warmReset => Sys2Proof.Machine.execWarmReset s
  | .coldReset training => Sys2Proof.Machine.execColdReset training s
  | .fatalError src info => Sys2Proof.Machine.execFatalError src info s
  | .admissionTurn die => Sys2Proof.Machine.execAdmissionTurn die s
  | .timeSliceExpiry grid => Sys2Proof.Machine.execTimeSliceExpiry grid s
  | .bandwidthWindow => Sys2Proof.Machine.execBandwidthWindow s
  | .gridCompletion grid => Sys2Proof.Machine.execGridCompletion grid s
  | .waveEviction core slot => Sys2Proof.Machine.execWaveEviction core slot s
  | .lightshipSave grid gang => Sys2Proof.Machine.execLightshipSave grid gang s
  | .lightshipOpen grid gang => Sys2Proof.Machine.execLightshipOpen grid gang s
  | .lightshipRetire grid => Sys2Proof.Machine.execLightshipRetire grid s
  | .divertedArrival grid gang => Sys2Proof.Machine.execDivertedArrival grid gang s
  | .replyDiversion id => Sys2Proof.Machine.execReplyDiversion id s
  | .gangResume grid gang => Sys2Proof.Machine.execGangResume grid gang s
  | .resumeReopen grid gang => Sys2Proof.Machine.execResumeReopen grid gang s
  | .enginePiece id ext ecc => Sys2Proof.Machine.execEnginePiece id ext ecc s
  | .neighbourLineSend cluster side => Sys2Proof.Machine.execNeighbourLineSend cluster side s
  | .neighbourArrival cluster side => Sys2Proof.Machine.execNeighbourArrival cluster side s
  | .treeContribution id => Sys2Proof.Machine.execTreeContribution id s
  | .treeTimeout grid sid => Sys2Proof.Machine.execTreeTimeout grid sid s
  | .treeResult grid sid core => Sys2Proof.Machine.execTreeResult grid sid core s
  | .tileOperation cluster ext ecc => Sys2Proof.Machine.execTileOperation cluster ext ecc s
  | .tileCompletion cluster => Sys2Proof.Machine.execTileCompletion cluster s
  | .maskResolution core slot => Sys2Proof.Machine.execMaskResolution core slot s
  | .cvstepRelease core slot => Sys2Proof.Machine.execCvstepRelease core slot s
  | .convoyPatienceEjection convoy idx => Sys2Proof.Machine.execConvoyPatienceEjection convoy idx s
  | .barwaitReturn core slot frag => Sys2Proof.Machine.execBarwaitReturn core slot frag s
  | .lineStateTake core slot => Sys2Proof.Machine.execLineStateTake core slot s
  | .waitComplete core slot frag => Sys2Proof.Machine.execWaitComplete core slot frag s
  | .qpopWake q => Sys2Proof.Machine.execQpopWake q s
  | .reggrowGrant core => Sys2Proof.Machine.execReggrowGrant core s
  | .watchdog grid => Sys2Proof.Machine.execWatchdog grid s
  | .sliceover core slot => Sys2Proof.Machine.execSliceover core slot s
  | .sliceoverEnd core slot => Sys2Proof.Machine.execSliceoverEnd core slot s
  | .remoteReply id ext => Sys2Proof.Machine.execRemoteReply id ext s
  | .eyeMarginMeasurement stack chan lane margin => Sys2Proof.Machine.execEyeMarginMeasurement stack chan lane margin s

end Sys2Proof.Machine
end

