-- ==== Sys2Proof/Machine/Issue.lean ====
section
/-!
DEFINITION. Issue: the boundary of a wave's scalar thread (R204, R205), the choice of a fragment (R171), the fetch and
the instruction; the head of its lane queue (R160); what moves when the agenda is empty (log 3); and the word that the
next step fetches.
-/
namespace Sys2Proof.Machine

/-! ### The scalar thread -/

/-- The next fragment of a list in the order of R171: the lowest above the last, wrapping. -/
def nextSlot (last : Nat) (l : List Nat) : Option Nat :=
  match l.find? (fun n => decide (last < n)) with
  | some n => some n
  | none => l.head?

/-- The fragment at which an asynchronous trap is taken: the next in the order of R171 among the ready ones, or among
all. -/
def Wave.asyncFrag (w : Wave) : Nat :=
  match nextSlot w.sched.lastFrag w.ready with
  | some n => n
  | none => (nextSlot w.sched.lastFrag (w.frags.map (fun e => e.1))).getD 0

/-- Take an asynchronous trap (R201, R204): it leaves the list; SLICEOVER starts its second count (R207). -/
def State.takeAsync (s : State) (core slot : Nat) (w : Wave) (p : Pending) : State :=
  let w := { w with
    work := { w.work with pending := w.work.pending.erase p }
    sched := { w.sched with overTrap := if p.cause = 0x08 then some 0 else w.sched.overTrap } }
  (s.setWave core slot w).takeTrap core slot w.asyncFrag { cause := p.cause, tval := p.tval, async := true }

/-- The wave is as it was before an attempt to issue, but for its scheduling state and the layout records that a stalled
instruction has asked for (R99). -/
def Wave.still (w w' : Wave) : Bool :=
  let outs (x : Wave) : List Out := x.work.outs.filter (fun o => match o.dest with | .record _ => false | _ => true)
  decide ({ w' with sched := w.sched, work := { w'.work with outs := outs w' } } = { w with work := { w.work with outs := outs w } })

/-- A jump to its own address: it completes and leaves its wave as it was. -/
def State.jumps (s : State) (i : Instr) : Bool :=
  match gate i s with
  | .run c => (match i with
    | .br _ | .call _ | .brc _ _ _ | .jmpi _ | .ret => true
    | .brm _ p _ _ _ => !c.w.predPending p.toNat c.f.emask c.w.lane.next && (c.w.pathOf c.frag).isEmpty
    | _ => false)
  | _ => false

/-- The books of an issue attempt, `stay` being whether an instruction that leaves its wave as it was has stalled: which
fragment had the chance and, unless it stalled, when it issued (R194); an instruction that did not stall ends the use of
its layout records and of failed walks, which other live fragments may still need. -/
def State.scalarBooks (s t : State) (core slot n : Nat) (stay : Bool) : State :=
  match s.wave? core slot, t.wave? core slot with
  | some w, some w' =>
    let stall := stay && w.still w'
    t.setWave core slot { w' with sched := { w'.sched with
      lastFrag := n
      issued := if stall then w'.sched.issued else s.clk.toNat
      stallS := stall
      resumed := if stall || (w.trap.sup && w.trap.absent.isSome) then w'.sched.resumed
        else w'.sched.resumed.filter (· != n)
      fails := if stall || decide (1 < w.frags.length) then w'.sched.fails else []
      noSlot := if stall then w'.sched.noSlot else w'.sched.noSlot.filter (· != n)
      recs := if stall then w'.sched.recs else w'.sched.recs.keep (fun k _ => k % 64 != n) } }
  | _, _ => t

/-- Books over an outcome. -/
def Result.map (f : State → State) : Result → Result
  | .next t => .next (f t)
  | r => r

/-- The state in which fragment `n` of a wave executes. -/
def State.atTurn (s : State) (core slot n : Nat) : State := { s with cur := some ⟨core, slot, n⟩ }

/-- Run the instruction that a fragment stands at. -/
def State.runFrag (s : State) (core slot n : Nat) (w : Wave) (f : Frag) : Result :=
  let s := s.atTurn core slot n
  match s.fetchInstr ⟨core, slot, w⟩ f.spc with
  | (.wait, t) => .next (s.scalarBooks t core slot n true)
  | (.trap tr, t) => .next (s.scalarBooks (if w.spec.isEmpty then t.takeTrap core slot n tr else t) core slot n true)
  | (.ok i, t) => Result.map (fun u => s.scalarBooks u core slot n (!t.jumps i)) (exec i t)

/-- A wave's scalar thread gets an issue chance; a fragment whose request is held stalls (R36, R57). While DBGCTL.HALT of its
job is set the wave halts at its boundary (R204). -/
def scalarIssue (core slot : Nat) (s : State) : Result :=
  match s.wave? core slot with
  | none => .next s
  | some w =>
    if s.stopped || w.sched.halted || s.inResume w then .next s
    else if w.spec.isEmpty && (s.reg (jobReg w.ident.job 0x80)).getLsbD 1 then .next (s.haltResolved core slot)
    else
      match w.dueAsync with
      | some p => .next (s.takeAsync core slot w p)
      | none =>
        match nextSlot w.sched.lastFrag (s.issuable w) with
        | none => .next s
        | some n =>
          match w.frags.get? n with
          | none => .next s
          | some f => s.runFrag core slot n w f

/-! ### The lane pipeline -/

/-- The books of a lane attempt. -/
def State.laneBooks (s t : State) (core slot : Nat) : State :=
  match s.wave? core slot, t.wave? core slot with
  | some w, some w' =>
    let stall := w.still w'
    t.setWave core slot { w' with sched := { w'.sched with
      started := if stall then w'.sched.started else s.clk.toNat
      stallL := stall
      lfails := if stall then w'.sched.lfails else [] } }
  | _, _ => t

/-- A wave's lane pipeline gets a chance to start the head of the lane queue (R160). A word that is no lane instruction
traps at decode (R257). It stalls while a request of the lane stream is held (R36, R57). While an asynchronous trap is due
nothing starts that could still fault before it (R201, R204). -/
def laneIssue (core slot : Nat) (s : State) : Result :=
  match s.wave? core slot with
  | none => .next s
  | some w =>
    match w.lane.queue with
    | [] => .next s
    | it :: _ =>
      if s.stopped || w.sched.halted || s.inResume w || w.dueAsync.isSome || s.laneStalls w then .next s
      else
        let s := s.atTurn core slot it.frag
        match decodeLane it.word with
        | .ok i => Result.map (fun u => s.laneBooks u core slot) (exec i s)
        | .error _ =>
          if !it.spec.isEmpty || w.laneHeld || w.laneTrapWaits then .next (s.laneBooks s core slot)
          else
            let c : LCtx := ⟨core, slot, w, it⟩
            .next (s.laneBooks (s.laneTrapAt c (laneTrap c 0x02)) core slot)

/-! ### What moves when the agenda is empty (log 3) -/

/-- An event of the device: its effect on the state. -/
abbrev Event := State → Result

/-- The events that a request in flight may wait for. -/
def txnEvents (id : Nat) (t : Txn) : List Event :=
  match t.phase with
  | .made => (match t.op with | .rd => [execLensReadRequest id] | _ => [execLensWritePassage id])
  | .intake _ => [execLensIntakeRelease t.stack]
  | .entry _ | .waiting => []
  | .held _ => [execPortQueueRelease t.die t.stack]
  | .sent _ => (match t.op with
    | .rd => [execRd id []] | .wr => [execWr id] | .wrm => [execWrm id []] | .atm => [execAtm id []]
    | .grd => [execGrd id []] | .gwr => [execGwr id])
  | .performed n => if n then [execCrossingNotice id] else [execPacketReply id]
  | .replied => [execLensEntryReply id, execReplyDiversion id]
  | .remote => [execRemoteReply id (.data [])]

/-- The events that may be due for a wave. -/
def waveEvents (core slot : Nat) (w : Wave) : List Event :=
  [execMaskResolution core slot, execCvstepRelease core slot] ++
  (w.frags.map (fun e => match e.2.wait with
    | .counters _ _ _ _ => [execWaitComplete core slot e.1]
    | .barrierDone _ _ _ _ => [execBarwaitReturn core slot e.1]
    | .queue q _ => [execQpopWake q]
    | .grow _ => [execReggrowGrant core]
    | _ => [])).flatten ++
  [execLineStateTake core slot, execWaveEviction core slot, execSliceover core slot, execSliceoverEnd core slot] ++
  (if w.mat.ops.isEmpty then [] else [execTileCompletion (clusterOf core), execTileOperation (clusterOf core) (.data []) []])

/-- The events that may be due for a gang, and for a grid. -/
def gangEvents (n k : Nat) : List Event :=
  [execLightshipSave n k, execLightshipOpen n k, execDivertedArrival n k, execGangResume n k, execResumeReopen n k]
def gridEvents (n : Nat) (g : Grid) : List Event :=
  (g.gangs.map (fun e => gangEvents n e.1)).flatten ++
  [execLightshipRetire n, execTimeSliceExpiry n, execWatchdog n, execGridCompletion n]

/-- The events that may be due at a cluster's ports and its matrix engine. -/
def clusterEvents (cl : Nat) (c : Cluster) : List Event :=
  c.outq.map (fun q => execNeighbourLineSend cl q.1) ++ c.inq.map (fun q => execNeighbourArrival cl q.1) ++
  (if c.latch.isSome then [execTileCompletion cl, execTileOperation cl (.data []) []] else [])

/-- The events that may be due for the reduction tree. -/
def treeEvents (t : Tree) : List Event :=
  t.msgs.map (fun e => execTreeContribution e.1) ++
  (t.gens.map (fun g => g.cores.map (execTreeResult g.grid g.sid) ++ [execTreeTimeout g.grid g.sid])).flatten

/-- The commands whose completion may be due. -/
def commandEvents : List Event :=
  [execKeyCommandComplete, execLiveMapCommandComplete, execTlbInvalidateComplete, execMpointRelease, execFwCommandComplete,
    execBandwidthWindow]

/-- The events of the device's own that may be due, in the order they are tried (log 3). -/
def State.candidates (s : State) : List Event :=
  (s.net.txns.map (fun e => txnEvents e.1 e.2)).flatten ++
  s.xlate.walks.map (fun e => execTableWalk e.1 []) ++
  s.xlate.held.map (fun r => execFaultRecordDrain r.die) ++
  (s.waves.map (fun e => waveEvents (e.1 / Config.slots) (e.1 % Config.slots) e.2)).flatten ++
  s.engines.map (fun e => execEnginePiece e.1 (.data []) []) ++
  (s.clusters.map (fun c => clusterEvents c.1 c.2)).flatten ++
  s.away.map (fun e => execTileOperation (clusterOf e.2.core) (.data []) []) ++
  treeEvents s.tree ++
  (s.convoys.map (fun c => c.2.mem.map (fun m => execConvoyPatienceEjection c.1 m.1))).flatten ++
  (s.sched.grids.map (fun e => gridEvents e.1 e.2)).flatten ++
  s.sched.due.map (fun d => execAdmissionTurn d) ++
  commandEvents ++
  s.ctl.retrain.map (fun n => execRetrainDone n) ++
  (List.range 12).map (fun n => execEyeAlert n) ++
  ((List.range 1024).filter (fun j => s.jobState j == 2)).map (fun j => execJobEnded j)

/-- The first event of a list that changes the state, and what it leads to. -/
def State.firstChange (s : State) : List Event → Option State
  | [] => none
  | e :: es =>
    match e s with
    | .next t => if t = s then State.firstChange s es else some t
    | _ => State.firstChange s es

/-- The waves that may issue, each with the clock of its last issue of that kind, once for each of its ready fragments
(R171). -/
def State.waveTurns (s : State) : List (Nat × Turn) :=
  (s.waves.map (fun e =>
    let core := e.1 / Config.slots
    let slot := e.1 % Config.slots
    if s.stopped || e.2.sched.halted || s.inResume e.2 then []
    else
      List.replicate (if e.2.dueAsync.isSome then 1 else (s.issuable e.2).length) (e.2.sched.issued, Turn.scalar core slot) ++
      (if e.2.lane.queue.isEmpty || s.laneStalls e.2 then [] else [(e.2.sched.started, Turn.lane core slot)]))).flatten

/-- Put a turn in order of clocks, before those of the same clock that follow it. -/
def turnInsert (t : Nat × Turn) : List (Nat × Turn) → List (Nat × Turn)
  | [] => [t]
  | u :: us => if t.1 ≤ u.1 then t :: u :: us else u :: turnInsert t us

/-- Whether the wave whose turn it was did not stall, or its stall has sent something on its way. -/
def State.useful (s t : State) (core slot : Nat) (lane : Bool) : Bool :=
  match s.wave? core slot, t.wave? core slot with
  | some w, some w' =>
    !(if lane then w'.sched.stallL else w'.sched.stallS) || decide ({ t.setWave core slot w with cur := s.cur } ≠ s)
  | _, _ => true

/-- A turn as it is named. -/
def State.chance (s : State) : Turn → Result
  | .dev i => exec i { s with cur := none }
  | .scalar core slot => scalarIssue core slot s
  | .lane core slot => laneIssue core slot s

/-- Offer a chance to the turns of a list until one is of use; one that only stalls leaves its books and passes the chance
on (R194). -/
def State.offer (s : State) : List Turn → Result
  | [] => .next s
  | k :: ks =>
    match s.chance k with
    | .next t =>
      if (match k with
          | .scalar core slot => s.useful t core slot false
          | .lane core slot => s.useful t core slot true
          | .dev _ => true) then .next t
      else t.offer ks
    | r => r

/-- The turns of the waves that may issue, in the order in which they have waited: the lower slot first of those that have
waited as long (R194). -/
def State.queueTurns (s : State) : List Turn := (s.waveTurns.foldr turnInsert []).map (fun t => t.2)

/-- Two turns of one pipeline of one quarter of a core. -/
def Turn.together : Turn → Turn → Bool
  | .scalar c n, .scalar d m | .lane c n, .lane d m => c == d && n / 24 == m / 24
  | _, _ => false

/-- The turns of a quarter that come before one that may be taken: those of waves that have waited longer (R194). -/
def State.ahead (s : State) (k : Turn) : List Turn :=
  let l := s.queueTurns.filter k.together
  if l.contains k then l.takeWhile (· != k) else []

/-- One turn: a quarter issues for a wave only when no wave of it that has waited longer can use its chance (R194). -/
def State.runTurn (s : State) (k : Turn) : Result :=
  match s.ahead k with
  | [] => s.chance k
  | l => s.offer (l ++ [k])

/-- What moves when the agenda names nothing: the first event of the device that is due, else the ready wave that has waited
longest for its issue, the lower slot first (R194); with nothing to move, a clock passes. -/
def State.defaultTurn (s : State) : Result :=
  match s.firstChange s.candidates with
  | some t => .next t
  | none => s.offer s.queueTurns

/-- The next turn: the head of the agenda, or what the default order names. -/
def State.nextTurn (s : State) : Result :=
  match s.agenda with
  | t :: rest => State.runTurn { s with agenda := rest } t
  | [] => s.defaultTurn

/-! ### The word that the next step fetches -/

/-- A leaf that allows everything, of key slot 0, with A and D set, for frame 0. -/
def openLeaf : Word := 0xE0000000000000C3

/-- A job, a grid, a gang and a wave in slot 0 of core 0 that stands at address 0, which a translation maps to memory
address 0 of a live region: what a loaded program has when its first instruction runs. -/
def State.withWave (s : State) (q : List LaneItem) : State :=
  let i : WaveId := ⟨0, 1, 0, 0⟩
  let w := Wave.launch i 32 (firstLanes 128) 0 0
  let s := { s with
    sched := { s.sched with
      grids := s.sched.grids.set 1
        ⟨0, List.replicate 8 0, 0, 0, 0, [(0, ⟨0, 1024, [0], [], none, false, [], false, false, false⟩)], false, none, 0, 0, false,
          false, none, 0, false⟩
      nextGrid := max s.sched.nextGrid 2 }
    ctl := { s.ctl with live := s.ctl.live.set 0 ⟨true, 0, false⟩ } }
  let s := (s.setReg (jobReg 0 0) 1).setJobState 0 1
  let c := s.core 0
  let s := s.setCore 0 { c with tlb := [⟨0, 4, 0, openLeaf, 0⟩], icache := [], lcache := [] }
  let cl := s.cluster 0
  let s := s.setCluster 0 { cl with allocs := [⟨1, 0, 0, 1024⟩] }
  s.setWave 0 0 { w with lane := { w.lane with queue := q } }

/-- The state with an instruction where the next step fetches it: a scalar word and its literal in memory at the wave's
SPC, a lane word at the head of its lane queue. -/
def State.placeWord (s : State) (nbits w : Nat) : State :=
  if nbits = 96 then
    let it : LaneItem := ⟨BitVec.ofNat 96 w, List.replicate 8 0, firstLanes 128, fmtReset, 1, 0, 0, 0, none, [],
      0x0001000001000000, 65536, none, 0, [0]⟩
    { (s.withWave [it]) with agenda := [.lane 0 0] }
  else
    let t := s.withWave []
    { t with mem := Memory.write t.mem 0 (bytesOfNat 8 w), agenda := [.scalar 0 0] }

end Sys2Proof.Machine
end

