-- ==== Sys2Proof/Machine/Step.lean ====
section
/-!
DEFINITION. One step of the machine: one turn, and a clock.
-/
namespace Sys2Proof.Machine

/-- One step: the next turn, then a clock passes. -/
def step (s : State) : Host.Outcome State Fault Refusal :=
  match s.nextTurn with
  | .next t => .next t.tick
  | .fault r => .fault r
  | .refused r => .refused r

/-- The state with an instruction stored where step fetches its next instruction: `w` is numbered as the opcode table
numbers it. -/
def State.withFetchWord (s : State) (nbits w : Nat) : State := s.placeWord nbits w

end Sys2Proof.Machine
end

