-- ==== Sys2Proof/WellFormed.lean ====
section
/-!
DEFINITION. Which instructions are well formed: a scalar instruction whose fields pass the checks of R245 that do not
depend on the state, a lane instruction that passes those of R257 in a wave of 256 vector registers, an event that
names a unit the part has.
-/
namespace Sys2Proof
open Machine

/-- An event names a die, stack, cluster, core, job, queue or counter that exists (R1, R2, R34, R183, R188). -/
def Instr.wellFormedEvent : Instr → Bool
  | .faultRecordDrain die | .admissionTurn die => decide (die < 4)
  | .portQueueRelease die stack => decide (die < 4) && decide (stack < 12)
  | .create job _ | .endJob job _ | .jobEnded job | .debugHalt job _ | .debugRelease job _ => decide (job < 1024)
  | .retrain stack _ | .retrainDone stack | .repair stack _ | .eyeAlert stack | .eyestatRead stack =>
    decide (stack < 12)
  | .eyeMarginMeasurement stack chan lane _ => decide (stack < 12) && decide (chan < 32) && decide (lane < 64)
  | .lensIntakeRelease slice => decide (slice < 12)
  | .queueApertureStore q _ _ | .queueEnable q _ | .queueDisable q _ | .qpopWake q => decide (q < 64)
  | .depcntFree c => decide (c < 65536)
  | .waveEviction core slot | .maskResolution core slot | .cvstepRelease core slot | .lineStateTake core slot
  | .sliceover core slot | .sliceoverEnd core slot => decide (core < 256) && decide (slot < 96)
  | .barwaitReturn core slot frag | .waitComplete core slot frag =>
    decide (core < 256) && decide (slot < 96) && decide (frag < 4)
  | .reggrowGrant core => decide (core < 256)
  | .neighbourLineSend cl side | .neighbourArrival cl side => decide (cl < 64) && decide (side < 4)
  | .tileOperation cl _ _ | .tileCompletion cl => decide (cl < 64)
  | .treeResult _ sid core => decide (sid < 8) && decide (core < 256)
  | .treeTimeout _ sid => decide (sid < 8)
  | .convoyPatienceEjection convoy idx => decide (convoy < 2048) && decide (idx < 64)
  | .hostMemoryRead _ size _ => decide (0 < size) && decide (size ≤ 64)
  | .hostMemoryWrite _ bytes _ => decide (0 < bytes.length) && decide (bytes.length ≤ 64)
  | .fatalError src _ => decide (1 ≤ src.toNat) && decide (src.toNat ≤ 7)
  | _ => true

/-- An instruction is well formed. -/
def Instr.wellFormed (i : Instr) : Bool :=
  match scalarInfo i with
  | some info => !illegalFields info
  | none => if (laneInfo i).isSome then laneGood i 256 else i.wellFormedEvent

end Sys2Proof
end

