-- ==== Sys2Proof/Safety.lean ====
section
/-!
DEFINITION. The terms in which claims about the machine are stated: the canonical form of the byte stores, which every
step keeps; what a step leaves as it was; and what it means that a scalar or a lane instruction has written one
destination and nothing else.
-/
namespace Sys2Proof.Machine

/-! ### The invariant -/

/-- Main memory and every scratch memory hold their canonical form: addresses strictly rising, no entry 0 (log 8). -/
def State.storesCanonical (s : State) : Prop :=
  s.mem.wf = true ∧ ∀ cl k, (cl, k) ∈ s.clusters → k.csp.wf = true

/-! ### What a step leaves as it was -/

/-- Every byte of main memory and of every cluster's scratch reads as before. -/
def sameBytes (s t : State) : Prop :=
  (∀ a, t.mem.byte a = s.mem.byte a) ∧ ∀ cl a, (t.cluster cl).csp.byte a = (s.cluster cl).csp.byte a

/-- `t` differs from `s` at most in the wave of one slot, which is now `w`. -/
def onlyWave (s t : State) (core slot : Nat) (w : Wave) : Prop :=
  t = { s with waves := t.waves } ∧ sameBytes s t ∧ t.wave? core slot = some w ∧
    ∀ k, k ≠ slotKey core slot → t.waves.get? k = s.waves.get? k

/-- Wave `w'` is wave `w` with the scalar registers of fragment `n` and that fragment's SPC changed, and nothing else:
`d` reads `v` (s0 reads 0), every other register reads as before, the fragment stands at `next` and issues. -/
def scalarWrite (w w' : Wave) (n : Nat) (f : Frag) (d : BitVec 8) (v next : Word) : Prop :=
  w' = { w with scl := w'.scl, frags := w'.frags, trap := { w.trap with h := w'.trap.h } } ∧
    (∀ k, k ≠ n → w'.frags.get? k = w.frags.get? k) ∧
    ∃ f', w'.frags.get? n = some f' ∧ f' = { f with spc := next, wait := .run, bank := f'.bank } ∧
      readReg w' f' d = (if d = 0 then 0 else v) ∧ ∀ r, r ≠ d → readReg w' f' r = readReg w f r

/-- A scalar instruction of context `c` has written `v` to register `d`, gone on at `next`, and done nothing else. -/
def writesReg (s t : State) (c : Ctx) (d : BitVec 8) (v next : Word) : Prop :=
  ∃ w', onlyWave s t c.core c.slot w' ∧ scalarWrite c.w w' c.frag c.f d v next

/-- A scalar instruction has gone on at `next` and done nothing else. -/
def goesOn (s t : State) (c : Ctx) (next : Word) : Prop := writesReg s t c 0 0 next

/-- A scalar access of kind `acc` has failed a check of windows: its record is written, and its trap names it in h2 (R30,
R31). -/
def Ctx.windowTrap (c : Ctx) (s : State) (k : BitVec 8) (ea : Word) (acc : BitVec 2) : State :=
  let r : RecordOf := { die := dieOf c.core, core := c.core, slot := c.slot, job := c.w.ident.job, agent := 1, acc := acc }
  let (seq, s) := s.record r [⟨ea.toNat, k, 7, 0⟩]
  s.trapAt c { cause := k, tval := ea, h2 := seq.setWidth 64 }

/-- The address after a scalar instruction of some bytes. -/
def Ctx.after (c : Ctx) (len : Nat) : Word := c.f.spc + BitVec.ofNat 64 len

/-- Wherever instruction `i` may have its effect, it writes `v` to register `d`, goes on `len` bytes further, and does
nothing else. -/
def computes (i : Instr) (d : BitVec 8) (v : Ctx → Word) (len : Nat) : Prop :=
  ∀ s c, gate i s = .run c → ∃ t, exec i s = .next t ∧ writesReg s t c d (v c) (c.after len)

/-- An integer operation in its three forms (R284): register, immediate, and the odd partner with a literal. -/
def threeForms (reg imm : BitVec 8 → BitVec 8 → BitVec 8 → Instr)
    (sx : BitVec 8 → BitVec 8 → BitVec 8 → Word32 → Instr) (op : Word → Word → Word) : Prop :=
  ∀ d a b lit,
    computes (reg d a b) d (fun c => op (c.get a) (c.get b)) 4 ∧
    computes (imm d a b) d (fun c => op (c.get a) (b.signExtend 64)) 4 ∧
    computes (sx d a b lit) d (fun c => op (c.get a) (lit.signExtend 64)) 8

/-- A transfer of instruction `i` to `target c` (R301): in the global window register `d` takes `v` and SPC the target;
outside it the instruction performs nothing but the ADDRWINDOW trap, with the target in TVAL. -/
def transfers (i : Instr) (d : BitVec 8) (v target : Ctx → Word) : Prop :=
  ∀ s c, gate i s = .run c →
    ((target c).toNat < 2 ^ 56 → ∃ t, exec i s = .next t ∧ writesReg s t c d (v c) (target c)) ∧
    (2 ^ 56 ≤ (target c).toNat → c.w.spec = [] → exec i s = .next (s.trapAt c { cause := 0x20, tval := target c }))

/-- A jump of instruction `i` to the address that `target c` reads (R306): as `transfers`, but a target in the window
that is no multiple of 4 traps with ALIGN. -/
def jumpsTo (i : Instr) (target : Ctx → Word) : Prop :=
  ∀ s c, gate i s = .run c →
    ((target c).toNat < 2 ^ 56 → (target c).toNat % 4 = 0 → ∃ t, exec i s = .next t ∧ goesOn s t c (target c)) ∧
    ((target c).toNat < 2 ^ 56 → (target c).toNat % 4 ≠ 0 → c.w.spec = [] →
      exec i s = .next (s.trapAt c { cause := 0x04, tval := target c })) ∧
    (2 ^ 56 ≤ (target c).toNat → c.w.spec = [] → exec i s = .next (s.trapAt c { cause := 0x20, tval := target c }))

/-- A fragment of a wave has entered a trap (R202), in user mode, of a wave with a handler: the trap registers, h0 and
h2, the mode, the slot and the SPC are as Table 2 has them, the lane queue is frozen, the other scalar and vector
registers, the predicates and every byte of memory are as before. -/
def entersTrap (s t : State) (core slot n : Nat) (w : Wave) (f : Frag) (tr : Trap) : Prop :=
  sameBytes s t ∧
  ∃ w', t.wave? core slot = some w' ∧
    w'.trap.sup = true ∧
    w'.trap.tcause = (if tr.lane then 512 else 0) + (if tr.async then 256 else 0) + tr.cause.setWidth 64 ∧
    w'.trap.tval = tr.tval ∧
    w'.trap.tspc = f.spc &&& 0x01FF_FFFF_FFFF_FFFC#64 ∧
    w'.trap.tlpc = tr.lpc.getD w.lpc ∧
    w'.trap.lfmask = tr.mask ∧
    w'.trap.h.get 0 = 0 ∧ w'.trap.h.get 2 = tr.h2 ∧ (∀ k, k ≠ 0 → k ≠ 2 → w'.trap.h.get k = w.trap.h.get k) ∧
    w'.trap.slot = n ∧
    w'.frags.get? n = some { f with spc := s.reg (jobReg w.ident.job 0x60) &&& 0x01FF_FFFF_FFFF_FFFC#64,
                                    wait := .run, rcv := none } ∧
    (∀ k, k ≠ n → w'.frags.get? k = w.frags.get? k) ∧
    w'.lane.queue = [] ∧ (tr.lane = false → w'.trap.frozen = w.lane.queue) ∧
    w'.scl = w.scl ∧ w'.vec = w.vec ∧ w'.pred = w.pred ∧ w'.ident = w.ident

/-- The fragment of a scalar instruction now waits as `wt` says, at the same SPC, with everything else of its wave as it
was. -/
def waitsAt (w w' : Wave) (n : Nat) (f : Frag) (wt : Wait) : Prop :=
  w' = { w with frags := w'.frags } ∧ w'.frags.get? n = some { f with wait := wt } ∧
    ∀ k, k ≠ n → w'.frags.get? k = w.frags.get? k

/-- Fragment `n` of a wave has gone on at `next`; the other fragments are as before. -/
def fragAt (w w' : Wave) (n : Nat) (f : Frag) (next : Word) : Prop :=
  w'.frags.get? n = some { f with spc := next, wait := .run } ∧ ∀ k, k ≠ n → w'.frags.get? k = w.frags.get? k

/-- A wave is a member of no convoy. -/
def inNoConvoy (s : State) (uid : Nat) : Prop := s.convoys.first? (fun _ k => (k.memberOf uid).isSome) = none

/-- The scratch of one cluster holds `bs` from address `a` up; every other byte of scratch and of main memory reads as
before. -/
def storesScratch (s t : State) (cl a : Nat) (bs : List Byte) : Prop :=
  (∀ k, t.mem.byte k = s.mem.byte k) ∧
  ∀ c k, (t.cluster c).csp.byte k =
    if c = cl ∧ a ≤ k ∧ k < a + bs.length then bs.getD (k - a) 0 else (s.cluster c).csp.byte k

/-- Nothing stands before an access of the context: no lane instruction of an earlier block has yet to begin, and every
earlier access of the wave has been performed (R298, R313, R380). -/
def noneAhead (c : Ctx) : Prop := c.w.laneAll = [] ∧ c.w.work.outs = []

/-- A scratch access of `n` bytes at `va` that R296 and R299 let a wave perform: aligned, within the allocation of its own
gang, clear of the locks that stop it; its bytes lie at `a` of cluster `cl`. -/
def ownPlace (s : State) (w : Wave) (va n : Nat) (store : Bool) (cl a : Nat) : Prop :=
  windowOf va = .scratch ∧ va % n = 0 ∧ va / 2 ^ 32 % 2 ^ 20 = 0 ∧ scratchGang va = w.ident.gang ∧
    s.rangeLocked w va n store = false ∧
    ∃ al, s.gangAlloc w.ident.grid w.ident.gang = some (cl, al) ∧ va % 2 ^ 24 + n ≤ al.len ∧ a = al.base + va % 2 ^ 24

/-- `t` differs from `s` at most in one wave, which is now `w`, and in the scratch of the clusters. -/
def onlyWaveAndScratch (s t : State) (core slot : Nat) (w : Wave) : Prop :=
  t = { s with waves := t.waves, clusters := t.clusters } ∧ t.wave? core slot = some w ∧
    ∀ k, k ≠ slotKey core slot → t.waves.get? k = s.waves.get? k

/-- The value that a scalar load of modifier `m` makes of the number its bytes spell (R242, R295): signed types are
sign-extended. -/
def loadValue (m : BitVec 8) (x : Nat) : Word :=
  match (mTyp m).toNat with
  | 0 => (BitVec.ofNat 8 x).setWidth 64
  | 1 => (BitVec.ofNat 16 x).setWidth 64
  | 2 => (BitVec.ofNat 32 x).setWidth 64
  | 4 => (BitVec.ofNat 8 x).signExtend 64
  | 5 => (BitVec.ofNat 16 x).signExtend 64
  | 6 => (BitVec.ofNat 32 x).signExtend 64
  | _ => BitVec.ofNat 64 x

/-- A copy operation has started (R108): it stands under the next number with its kind, destination, descriptor and
record, at its first byte; its counter has risen; its fragment has gone on; nothing else of its wave and no other
operation has changed. -/
def startsOp (s t : State) (c : Ctx) (kind : EngKind) (d : BitVec 8) (desc rcd : List Word) : Prop :=
  (∃ op, t.engines.get? s.net.nextId = some op ∧ op.kind = kind ∧ op.uid = c.uid ∧ op.core = c.core ∧ op.frag = c.frag ∧
    op.d = d ∧ op.desc = desc ∧ op.rcd = rcd ∧ op.pos = 0 ∧ op.conds = [] ∧ op.aborted = false) ∧
  (∀ k, k ≠ s.net.nextId → t.engines.get? k = s.engines.get? k) ∧
  t.reg (ceReg c.cluster kind.counter) = s.reg (ceReg c.cluster kind.counter) + 1 ∧
  ∃ w', t.wave? c.core c.slot = some w' ∧ w' = { c.w with frags := w'.frags } ∧ fragAt c.w w' c.frag c.f (c.after 4)

/-! ### What a lane instruction writes -/

/-- The bits of an element of a type in a register or a pair, and the elements of a lane (R348). -/
def elemBits (ty : BitVec 5) : Nat := if is64 ty then 64 else if is16 ty then 16 else 32
def elemCount (ty : BitVec 5) : Nat := if is16 ty then 2 else 1

/-- Element `k` of a lane's value. -/
def elemOf (ty : BitVec 5) (k : Nat) (x : Word) : BitVec (elemBits ty) := x.extractLsb' (elemBits ty * k) (elemBits ty)

/-- A lane instruction has completed: the head has left the lane queue, the lanes of `m` of register `d`, and of `d + 1`
for a 64-bit type, hold `v`, and nothing else has changed (R347). -/
def writesLanes (s t : State) (c : LCtx) (ty : BitVec 5) (d : Nat) (m : Mask) (v : Nat → Word) : Prop :=
  ∃ w', onlyWave s t c.core c.slot w' ∧ w' = { c.w.popLane with vec := w'.vec } ∧
    ∀ r l, l < 128 → w'.lane32 r l =
      if m.getLsbD l = true ∧ r = d then (v l).extractLsb' 0 32
      else if m.getLsbD l = true ∧ r = d + 1 ∧ is64 ty = true then (v l).extractLsb' 32 32
      else c.w.lane32 r l

/-- A lane instruction has completed: the lanes of its mask of predicate `d` hold `b`, but p0 is never written, and
nothing else has changed (R163, R347). -/
def writesPred (s t : State) (c : LCtx) (d : Nat) (b : Nat → Bool) : Prop :=
  ∃ w', onlyWave s t c.core c.slot w' ∧ w' = { c.w.popLane with pred := w'.pred } ∧
    ∀ p l, l < 128 → w'.pget p l = if p = d ∧ d ≠ 0 ∧ c.mask.getLsbD l = true then b l else c.w.pget p l

/-- A lane instruction has completed and written scalar register `d`, as the fragment that issued it names it; the
checkpoints of predicted BRMs take the value too (R350). -/
def writesSent (s t : State) (c : LCtx) (d : BitVec 8) (v : Word) : Prop :=
  ∃ w', onlyWave s t c.core c.slot w' ∧
    w' = { c.w.popLane with scl := w'.scl, frags := w'.frags, spec := w'.spec, trap := { c.w.trap with h := w'.trap.h } } ∧
    ∀ n f, c.w.popLane.frags.get? n = some f → ∃ f', w'.frags.get? n = some f' ∧ f' = { f with bank := f'.bank } ∧
      ∀ r, readReg w' f' r =
        if r = d ∧ r ≠ 0 ∧ (n = c.it.frag ∨ r.toNat < 176 ∨ 192 ≤ r.toNat) then v else readReg c.w f r

/-- The operands of lane forms: a source as the word's type, or the immediate of an LI word (R249, R251). -/
abbrev LaneOpnd := LCtx → LaneWord → Nat → Word
def opA : LaneOpnd := fun c w l => c.opnd w.sa w.typ l
def opB : LaneOpnd := fun c w l => c.opnd w.sb w.typ l
def opC : LaneOpnd := fun c w l => c.opnd w.sc w.typ l
def opImm : LaneOpnd := fun _ w _ => immVal w.typ w

/-- Wherever the instruction may have its effect, each active lane of its destination takes `f` of that lane. -/
def perLane (i : LaneWord → Instr) (f : LaneOpnd) : Prop :=
  ∀ w s c, laneGate (i w) s = .run c → ∃ t, exec (i w) s = .next t ∧ writesLanes s t c w.typ w.dst.toNat c.mask (f c w)

/-- Wherever the instruction may have its effect, each element of each active lane takes `g` of the operands' elements,
computed on its own (R348). -/
def perElement (i : LaneWord → Instr) (a b d : LaneOpnd)
    (g : LCtx → BitVec 5 → (n : Nat) → BitVec n → BitVec n → BitVec n → BitVec n) : Prop :=
  ∀ w s c, laneGate (i w) s = .run c → ∃ t v, exec (i w) s = .next t ∧
    writesLanes s t c w.typ w.dst.toNat c.mask v ∧
    ∀ l k, l < 128 → k < elemCount w.typ → elemOf w.typ k (v l) =
      g c w.typ (elemBits w.typ) (elemOf w.typ k (a c w l)) (elemOf w.typ k (b c w l)) (elemOf w.typ k (d c w l))

/-- An operation of one source, of two, in the register and the immediate form, or of three. -/
def unary (i : LaneWord → Instr) (g : LCtx → BitVec 5 → (n : Nat) → BitVec n → BitVec n) : Prop :=
  perElement i opA opA opA (fun c ty n a _ _ => g c ty n a)
def binary (i imm : LaneWord → Instr) (g : LCtx → BitVec 5 → (n : Nat) → BitVec n → BitVec n → BitVec n) : Prop :=
  perElement i opA opB opB (fun c ty n a b _ => g c ty n a b) ∧ perElement imm opA opImm opImm (fun c ty n a b _ => g c ty n a b)
def ternary (i imm : LaneWord → Instr)
    (g : LCtx → BitVec 5 → (n : Nat) → BitVec n → BitVec n → BitVec n → BitVec n) : Prop :=
  perElement i opA opB opC g ∧ perElement imm opA opB opImm g

/-- Wherever the instruction may have its effect, its predicate takes `f` of each active lane. -/
def perPred (i : LaneWord → Instr) (f : LCtx → LaneWord → Nat → Bool) : Prop :=
  ∀ w s c, laneGate (i w) s = .run c → ∃ t, exec (i w) s = .next t ∧ writesPred s t c w.dst.toNat (f c w)

/-- The element that a lane load makes of the number its bytes spell (R375). -/
def laneLoaded (ty : BitVec 5) (x : Nat) : Word :=
  if typSigned ty then (BitVec.ofNat (typWidth ty) x).signExtend 64 else (BitVec.ofNat (typWidth ty) x).setWidth 64

/-- The lanes of a mask name accesses of `n` bytes of the wave's own scratch: lane `l` at address `at_ l` of cluster
`cl`, aligned, inside the allocation and clear of the locks that stop it. -/
def inOwnScratch (s : State) (c : LCtx) (w : LaneWord) (m : Mask) (n : Nat) (store : Bool) (cl : Nat) (at_ : Nat → Nat) : Prop :=
  ∀ l, l < 128 → m.getLsbD l = true →
    let va := (c.laneEa w l).toNat
    windowOf va = .scratch ∧ va % n = 0 ∧ s.ownScratch c.w va n = some (cl, at_ l) ∧ s.rangeLocked c.w va n store = false

/-- The lanes of a mask name accesses of `n` bytes of the global window that translate: lane `l` to PA `pa l` with leaf
`leaf l`, aligned and clear of the locks that stop it; the core sends translated accesses (R20), and a leaf whose D bit is
clear can be updated now (R18). -/
def inGlobalMem (s : State) (c : LCtx) (w : LaneWord) (m : Mask) (n : Nat) (acc : BitVec 3) (store : Bool)
    (pa : Nat → Nat) (leaf : Nat → Word) : Prop :=
  ∀ l, l < 128 → m.getLsbD l = true →
    let va := (c.laneEa w l).toNat
    windowOf va = .global ∧ inWindow va n = true ∧ va % n = 0 ∧ s.rangeLocked c.w va n store = false ∧
      (s.core c.core).noMiss = false ∧ (acc ≠ 0 → s.dirtyClear c.core c.w.ident.job va = true) ∧
      s.translate c.core c.w.ident.job va acc c.w.sched.lfails = .ok (pa l) (leaf l)

/-- The scratch of one cluster after lanes have stored: a byte that some lane stores to holds a byte that such a lane
stores there, every other byte of scratch and every byte of main memory reads as before. -/
def storesAt (s t : State) (cl : Nat) (m : Mask) (n : Nat) (at_ : Nat → Nat) (v : Nat → Nat) : Prop :=
  (∀ k, t.mem.byte k = s.mem.byte k) ∧
  ∀ x k, (∃ l, l < 128 ∧ m.getLsbD l = true ∧ x = cl ∧ at_ l ≤ k ∧ k < at_ l + n ∧
      (t.cluster x).csp.byte k = (bytesOfNat n (v l)).getD (k - at_ l) 0) ∨
    ((∀ l, l < 128 → m.getLsbD l = true → ¬ (x = cl ∧ at_ l ≤ k ∧ k < at_ l + n)) ∧
      (t.cluster x).csp.byte k = (s.cluster x).csp.byte k)

/-- A lane access has been sent for memory: one more access is outstanding, with the destination, and each lane of the
mask stands with its PA and its operand in a request of the operation. -/
def sendsLanes (t : State) (c : LCtx) (m : Mask) (store : Bool) (dest : Dest) (ops : List PacketOp) (pa : Nat → Nat)
    (n : Nat) (v : Nat → Word) : Prop :=
  ∃ w' o, t.wave? c.core c.slot = some w' ∧
    w' = { c.w.popLane with work := { c.w.work with outs := c.w.work.outs ++ [o] } } ∧
    o.store = store ∧ o.dest = dest ∧ o.red = false ∧ 1 ≤ o.left ∧
    ∀ l, l < 128 → m.getLsbD l = true → ∃ k x u e, t.net.txns.get? k = some x ∧ x.op ∈ ops ∧ u ∈ x.users ∧
      u.uid = c.w.ident.uid ∧ u.out = o.id ∧ e ∈ u.elems ∧ e.lane = l ∧ e.pa = pa l ∧ e.size = n ∧ e.data = v l

/-! ### What events leave -/

/-- A region is live under a key and not retired, so that its base dies perform an access with that key (R44). -/
def State.serves (s : State) (pa : Nat) (key : BitVec 10) : Prop := s.liveEntry (regionOf pa) = ⟨true, key, false⟩

/-- No error stands in the atoms of `n` bytes at `pa` (R42, R43). -/
def State.sound (s : State) (pa n : Nat) : Prop := ∀ e ∈ s.ctl.flaws, e.atom < pa / 64 ∨ (pa + n - 1) / 64 < e.atom

/-- Every management register but those at some offsets holds what it held. -/
def otherRegs (s t : State) (offs : List Nat) : Prop := ∀ o, o ∉ offs → t.reg o = s.reg o

/-- Main memory holds `bs` from address `a` up, and every other byte of it reads as before. -/
def storesMem (s t : State) (a : Nat) (bs : List Byte) : Prop :=
  ∀ k, t.mem.byte k = if a ≤ k ∧ k < a + bs.length then bs.getD (k - a) 0 else s.mem.byte k

/-- The user of a request is a resident wave whose access waits for it: the wave's core, slot and state, and the access. -/
def awaited (s : State) (u : User) (core slot : Nat) (w : Wave) (o : Out) : Prop :=
  s.findWave u.uid = some (core, slot, w) ∧ s.rdivClosed u.uid = false ∧ w.work.outs.find? (fun x => x.id == u.out) = some o

/-- An access of a wave has had one of its requests answered: the last ends it. -/
def answeredOut (outs : List Out) (o : Out) : List Out :=
  if 1 < o.left then outs.map (fun x => if x.id = o.id then { x with left := x.left - 1 } else x)
  else outs.filter (fun x => x.id != o.id)

end Sys2Proof.Machine
end

