-- ==== Sys2Proof/Certificates/Slice0/Obligations.lean ====
section
/-!
DEFINITION. The statements for the provers, from the numbered rules of the spec: what each instruction does where it may
have its effect, what it leaves alone, and what every step keeps. "Where it may have its effect" is the gate of R245 and
R257: `gate i s = .run c` and `laneGate i s = .run c`, whose meaning ScalarGate and LaneGate state.
-/
open Sys2Proof Sys2Proof.Machine

/-- R284: the arithmetic, logic, shift and selection operations of Table 1, in the register, the immediate and the SX
form: the destination takes the result, the SPC the next instruction, and nothing else changes; none of them traps on
any operand value. -/
def Obligations.IntegerOperations : Prop :=
  threeForms .add .addImm .addSx (fun x y => x + y) ∧
  threeForms .sub .subImm .subSx (fun x y => x - y) ∧
  threeForms .mul .mulImm .mulSx (fun x y => x * y) ∧
  threeForms .mulh .mulhImm .mulhSx (fun x y => (x.signExtend 128 * y.signExtend 128).extractLsb' 64 64) ∧
  threeForms .mulhn .mulhnImm .mulhnSx (fun x y => (x.setWidth 128 * y.setWidth 128).extractLsb' 64 64) ∧
  threeForms .and .andImm .andSx (fun x y => x &&& y) ∧
  threeForms .or .orImm .orSx (fun x y => x ||| y) ∧
  threeForms .xor .xorImm .xorSx (fun x y => x ^^^ y) ∧
  threeForms .andn .andnImm .andnSx (fun x y => x &&& ~~~y) ∧
  threeForms .shl .shlImm .shlSx (fun x y => x <<< (y.toNat % 64)) ∧
  threeForms .shr .shrImm .shrSx (fun x y => x >>> (y.toNat % 64)) ∧
  threeForms .sar .sarImm .sarSx (fun x y => x.sshiftRight (y.toNat % 64)) ∧
  threeForms .rot .rotImm .rotSx (fun x y => (x <<< (y.toNat % 64)) ||| (x >>> (64 - y.toNat % 64))) ∧
  threeForms .min .minImm .minSx (fun x y => if x.toInt ≤ y.toInt then x else y) ∧
  threeForms .max .maxImm .maxSx (fun x y => if x.toInt ≤ y.toInt then y else x) ∧
  threeForms .minn .minnImm .minnSx (fun x y => if x.toNat ≤ y.toNat then x else y) ∧
  threeForms .maxn .maxnImm .maxnSx (fun x y => if x.toNat ≤ y.toNat then y else x)

/-- R285: DIV and REM truncate toward zero, DIVN and REMN are unsigned; division by zero gives all ones and the dividend,
signed overflow −2^63 and 0; neither traps. -/
def Obligations.Division : Prop :=
  threeForms .div .divImm .divSx (fun x y =>
    if y = 0 then BitVec.allOnes 64
    else if x = BitVec.intMin 64 ∧ y = BitVec.allOnes 64 then BitVec.intMin 64
    else BitVec.ofInt 64 (x.toInt.tdiv y.toInt)) ∧
  threeForms .divn .divnImm .divnSx (fun x y =>
    if y = 0 then BitVec.allOnes 64 else BitVec.ofNat 64 (x.toNat / y.toNat)) ∧
  threeForms .rem .remImm .remSx (fun x y =>
    if y = 0 then x
    else if x = BitVec.intMin 64 ∧ y = BitVec.allOnes 64 then 0
    else BitVec.ofInt 64 (x.toInt - y.toInt * x.toInt.tdiv y.toInt)) ∧
  threeForms .remn .remnImm .remnSx (fun x y =>
    if y = 0 then x else BitVec.ofNat 64 (x.toNat % y.toNat))

/-- R286: CMP writes the comparison word, bit 2 unsigned less, bit 1 signed less, bit 0 equal, the rest 0; the .bs and
.bc conditions of BRC read it. -/
def Obligations.ComparisonWord : Prop :=
  let word (x y : Word) : Word := (BitVec.ofBool (x.ult y) ++ BitVec.ofBool (x.slt y) ++ BitVec.ofBool (x == y)).setWidth 64
  threeForms .cmp .cmpImm .cmpSx word ∧
  ∀ x y : Word,
    (brcTaken 6 (word x y) = decide (x = y)) ∧ (brcTaken 9 (word x y) = decide (x ≠ y)) ∧
    (brcTaken 7 (word x y) = decide (x.toInt < y.toInt)) ∧ (brcTaken 10 (word x y) = decide (y.toInt ≤ x.toInt)) ∧
    (brcTaken 8 (word x y) = decide (x.toNat < y.toNat)) ∧ (brcTaken 11 (word x y) = decide (y.toNat ≤ x.toNat))

/-- R287: CLZ counts the leading zero bits, 64 for 0; POPC the set bits; SEL takes its first operand unless it is 0. CLZ
and POPC need B = 0. -/
def Says.BitCounts : Prop :=
  (∀ d a s c, gate (.clz d a) s = .run c → ∃ t n, exec (.clz d a) s = .next t ∧
    writesReg s t c d (BitVec.ofNat 64 n) (c.after 4) ∧ n ≤ 64 ∧ (∀ k, k < n → (c.get a).getLsbD (63 - k) = false) ∧
    (n < 64 → (c.get a).getLsbD (63 - n) = true)) ∧
  (∀ d a, computes (.popc d a) d (fun c => BitVec.ofNat 64 ((List.range 64).countP (fun k => (c.get a).getLsbD k))) 4) ∧
  (∀ d a b, computes (.sel d a b) d (fun c => if c.get a ≠ 0 then c.get a else c.get b) 4) ∧
  ∀ d a b : BitVec 8, b ≠ 0 → ∀ lit,
    decodeScalar (0x2E#8 ++ d ++ a ++ b) lit = .error .fixedBits ∧
      decodeScalar (0x30#8 ++ d ++ a ++ b) lit = .error .fixedBits

/-- R288, R289: BFX and BFI on the field that b describes, and the constants of LI and LIH. -/
def Says.FieldsAndConstants : Prop :=
  let pos (y : Word) : Nat := (y.extractLsb' 0 6).toNat
  let wid (y : Word) : Nat := min 64 (y.extractLsb' 8 7).toNat
  let ones (y : Word) : Word := (BitVec.allOnes (wid y)).setWidth 64
  (∀ d a b, computes (.bfx d a b) d (fun c =>
    let y := c.get b
    let ext := (c.get a >>> pos y) &&& ones y
    if y.getLsbD 15 && decide (0 < wid y) then (ext.setWidth (wid y)).signExtend 64 else ext) 4) ∧
  (∀ d a b, computes (.bfi d a b) d (fun c =>
    let y := c.get b
    let m := ones y <<< pos y
    (c.get d &&& ~~~m) ||| ((c.get a <<< pos y) &&& m)) 4) ∧
  (∀ d i, computes (.li d i) d (fun _ => i.signExtend 64) 4) ∧
  (∀ d i lit, computes (.liSx d i lit) d (fun _ => lit.signExtend 64) 8) ∧
  (∀ d i, computes (.lih d i) d (fun c => (i.signExtend 32 : Word32) ++ (c.get d).extractLsb' 0 32) 4) ∧
  (∀ d i lit, computes (.lihSx d i lit) d (fun c => lit ++ (c.get d).extractLsb' 0 32) 8)

/-- R287 to R289: the counts and SEL; bit fields and constants. -/
def Obligations.CountsFieldsAndConstants : Prop :=
  Says.BitCounts ∧ Says.FieldsAndConstants
/-- R290 to R292: FADD, FMUL and FFMA compute exactly and round once under RM and FTZ of the fragment's FMT; FCMP writes
UN, LT, EQ in bits 2 to 0; FCVT converts as its KIND says. Results are zero-extended. -/
def Obligations.ScalarFloatingPoint : Prop :=
  (∀ d a b, computes (.fadd d a b) d (fun c => c.fpOut (FVal.add (fmtRM c.f.fmt) (c.fp a) (c.fp b))) 4) ∧
  (∀ d a b, computes (.fmul d a b) d (fun c => c.fpOut (FVal.mul (c.fp a) (c.fp b))) 4) ∧
  (∀ d a b, computes (.ffma d a b) d (fun c =>
    c.fpOut (FVal.add (fmtRM c.f.fmt) (FVal.mul (c.fp a) (c.fp b)) (c.fp d))) 4) ∧
  (∀ d a b, computes (.fcmp d a b) d (fun c =>
    if (c.fp a).isNaN || (c.fp b).isNaN then 4
    else if (c.fp a).lt (c.fp b) then 2
    else if (c.fp b).lt (c.fp a) then 0 else 1) 4) ∧
  (∀ d a k, computes (.fcvt d a k) d (fun c =>
    let rm := fmtRM c.f.fmt
    let z := fmtFTZ c.f.fmt
    let x := fread f32 z ((c.get a).toNat % 2 ^ 32)
    match k.toNat with
    | 0 => BitVec.ofNat 64 (fround f32 rm z (.ofInt (c.get a).toInt))
    | 1 => BitVec.ofNat 64 (fround f32 rm z (.ofInt (c.get a).toNat))
    | 2 => x.toSigned 64 rm
    | 3 => x.toUnsigned 64 rm
    | 4 => (x.toSigned 32 rm).signExtend 64
    | 5 => (x.toUnsigned 32 rm).setWidth 64
    | 6 => BitVec.ofNat 64 (fround f16 rm z x)
    | 7 => BitVec.ofNat 64 (fround f32 rm z (fread f16 z ((c.get a).toNat % 2 ^ 16)))
    | 8 => BitVec.ofNat 64 (fround bf16 rm z x)
    | _ => BitVec.ofNat 64 (fround f32 rm z (fread bf16 z ((c.get a).toNat % 2 ^ 16)))) 4) ∧
  ∀ (c : Ctx) (v : FVal), (c.fpOut v).toNat < 2 ^ 32

/-- R226, R227: a NaN result is canonical; a datum that is no NaN, read with FTZ = 0, rounds to itself under every mode;
an overflow gives infinity or the largest finite value as the mode and the sign say; an exact zero sum of unlike signs is
+0, but −0 under RDN; under FTZ a subnormal input and a subnormal result are zeros of their sign. -/
def Says.RoundingRules : Prop :=
  (∀ rm z, fround f32 rm z .nan = 0x7FC00000 ∧ fround f16 rm z .nan = 0x7E00 ∧ fround bf16 rm z .nan = 0x7FC0) ∧
  (∀ f ∈ [f32, f16, bf16], ∀ rm b, b < 2 ^ (1 + f.ebits + f.fbits) → fdecode f b ≠ .nan →
    fround f rm false (fdecode f b) = b) ∧
  (∀ neg m e, 2 ^ 128 * 2 ^ e.natAbs ≤ m →
    fround f32 0 false (.fin neg m e) = (if neg then 0xFF800000 else 0x7F800000) ∧
    fround f32 1 false (.fin neg m e) = (if neg then 0xFF7FFFFF else 0x7F7FFFFF) ∧
    fround f32 2 false (.fin neg m e) = (if neg then 0xFF7FFFFF else 0x7F800000) ∧
    fround f32 3 false (.fin neg m e) = (if neg then 0xFF800000 else 0x7F7FFFFF)) ∧
  (∀ neg m e (rm : RM), m ≠ 0 →
    FVal.add rm (.fin neg m e) (.fin (!neg) m e) = .fin (decide (rm = 3)) 0 0) ∧
  (∀ b, b / 2 ^ 23 % 2 ^ 8 = 0 → fread f32 true b = .fin (decide (b / 2 ^ 31 % 2 = 1)) 0 0) ∧
  ∀ rm neg m e, (fround f32 rm true (.fin neg m e)) % 2 ^ 31 = 0 ∨ 2 ^ 23 ≤ (fround f32 rm true (.fin neg m e)) % 2 ^ 31

/-- R301 to R303: BR, CALL and BRC go to SPC + 4 × sext(OFF), BRC where its condition on A holds and else to the next
word; CALL writes SPC + 4 to s191 of the bank; a target outside the global window traps. -/
def Obligations.Branches : Prop :=
  (∀ o, transfers (.br o) 0 (fun _ => 0) (fun c => c.f.spc + o.signExtend 64 * 4)) ∧
  (∀ o, transfers (.call o) 191 (fun c => c.f.spc + 4) (fun c => c.f.spc + o.signExtend 64 * 4)) ∧
  (∀ a k o, transfers (.brc a k o) 0 (fun _ => 0) (fun c =>
    let x := c.get a
    let taken := match k.toNat with
      | 0 => x = 0
      | 1 => x ≠ 0
      | 2 => x.toInt < 0
      | 3 => 0 ≤ x.toInt
      | 4 => 0 < x.toInt
      | 5 => x.toInt ≤ 0
      | 6 => x.getLsbD 0 = true
      | 7 => x.getLsbD 1 = true
      | 8 => x.getLsbD 2 = true
      | 9 => x.getLsbD 0 = false
      | 10 => x.getLsbD 1 = false
      | 11 => x.getLsbD 2 = false
      | _ => False
    haveI := Classical.propDecidable taken
    if taken then c.f.spc + o.signExtend 64 * 4 else c.f.spc + 4))

/-- R306: JMPI goes to the address in its register, RET to the one in s191 of the bank; a target outside the global
window traps with ADDRWINDOW whatever its low bits, an unaligned one in the window with ALIGN; both perform nothing
else and hold the target in TVAL. JMPI needs D = 0 and B = 0, RET every field but OP 0. -/
def Obligations.Jumps : Prop :=
  (∀ a, jumpsTo (.jmpi a) (fun c => c.get a)) ∧
  jumpsTo .ret (fun c => c.get 191) ∧
  (∀ d a b : BitVec 8, d ≠ 0 ∨ b ≠ 0 → ∀ lit, decodeScalar (0x8A#8 ++ d ++ a ++ b) lit = .error .fixedBits) ∧
  (∀ x : BitVec 24, x ≠ 0 → ∀ lit, decodeScalar (0x8C#8 ++ x) lit = .error .fixedBits)

/-- R166, R301: a BRM whose predicate is known and whose path is no prediction. With T the lanes of the execution mask
where the predicate, or its complement, holds: all taken goes to the target, none to the next word, and a split of a
user-mode fragment with a free slot leaves the greater part (the taken one on a tie) in the slot and puts the lesser into
the lowest free slot, with its own copy of the bank; what came before the fragment in program order comes before both (R134).
Registers, predicates and memory stay. -/
def Says.MaskBranch : Prop :=
  ∀ neg p tok h o s c,
    gate (.brm neg p tok h o) s = .run c → c.w.spec = [] → c.w.predPending p.toNat c.f.emask c.w.lane.next = false →
    let target := c.f.spc + o.signExtend 64 * 4
    let fall := c.f.spc + 4
    target.toNat < 2 ^ 56 → fall.toNat < 2 ^ 56 →
    let pm : Mask := if p = 0 then BitVec.allOnes 128 else c.w.pred.get p.toNat
    let T := c.f.emask &&& (if neg = 1 then ~~~pm else pm)
    let R := c.f.emask &&& ~~~T
    let done (t : State) (w w' : Wave) : Prop :=
      exec (.brm neg p tok h o) s = .next t ∧ t = { s with waves := t.waves, cores := t.cores } ∧ sameBytes s t ∧
      t.wave? c.core c.slot = some w' ∧
      w' = { w with frags := w'.frags, groups := w'.groups, hist := w'.hist, sched := w'.sched }
    (R = 0 → ∃ t w', done t c.w w' ∧ w'.frags.get? c.frag = some { c.f with spc := target, wait := .run } ∧
      ∀ k, k ≠ c.frag → w'.frags.get? k = c.w.frags.get? k) ∧
    (R ≠ 0 → T = 0 → ∃ t w', done t c.w w' ∧ w'.frags.get? c.frag = some { c.f with spc := fall, wait := .run } ∧
      ∀ k, k ≠ c.frag → w'.frags.get? k = c.w.frags.get? k) ∧
    (R ≠ 0 → T ≠ 0 → c.w.trap.sup = false → ∀ n, n < 4 → c.w.frags.get? n = none →
      (∀ k, k < n → c.w.frags.get? k ≠ none) → ∃ t w', done t (c.w.inherit c.frag n) w' ∧
      w'.frags.get? c.frag = some { c.f with
        emask := if popCount R ≤ popCount T then T else R
        spc := if popCount R ≤ popCount T then target else fall
        wait := .run } ∧
      w'.frags.get? n = some { c.f with
        emask := if popCount R ≤ popCount T then R else T
        spc := if popCount R ≤ popCount T then fall else target
        wait := .run
        rcv := none } ∧
      ∀ k, k ≠ c.frag → k ≠ n → w'.frags.get? k = c.w.frags.get? k)

/-- R167: RCV from a fragment that owns no stack entry with its token and is in no group of it acts as NOP; with a
PENDING entry of the token on top, the fragment swaps with the minority, which runs next with its own mask, bank and FMT,
and the entry keeps the address of this RCV. -/
def Says.Reconverge : Prop :=
  (∀ tok s c, gate (.rcv tok) s = .run c →
    c.w.stack.find? (fun e => e.owner == c.frag && e.token == tok) = none →
    (∀ g, c.w.groups.get? tok.toNat = some g → g.slots.contains c.frag = false) →
    ∃ t, exec (.rcv tok) s = .next t ∧ goesOn s t c (c.after 4)) ∧
  ∀ tok s c e rest, gate (.rcv tok) s = .run c → c.w.stack = e :: rest → e.owner = c.frag → e.token = tok →
    e.resume = false →
    ∃ t w', exec (.rcv tok) s = .next t ∧ onlyWave s t c.core c.slot w' ∧
      w'.frags.get? c.frag = some { c.f with emask := e.emask, spc := e.spc, bank := e.bank, fmt := e.fmt, wait := .run } ∧
      w'.stack = { e with emask := c.f.emask, spc := c.f.spc, bank := c.f.bank, resume := true } :: rest ∧
      (∀ k, k ≠ c.frag → w'.frags.get? k = c.w.frags.get? k) ∧
      w' = { c.w with frags := w'.frags, stack := w'.stack, work := { c.w.work with fence := w'.work.fence } }

/-- R161, R307: ISSUE of a block that the directory holds, into a lane queue with room, puts the whole block at the end
of the queue with one issue record (the eight registers from SBASE up, the execution mask, FMT, the count of live
fragments, the block and each word's offset), and the thread goes on at once. -/
def Obligations.IssueBlock : Prop :=
  ∀ sb b s s' c ws, gate (.issue sb b) s = .run c → c.w.spec = [] → c.w.lane.rest = [] →
    s.laneBlock ⟨c.core, c.slot, c.w⟩ b.toNat = (.ok (some ws), s') → c.w.lane.queue.length + ws.length ≤ 64 →
    ∃ t w' items, exec (.issue sb b) s = .next t ∧ onlyWave s' t c.core c.slot w' ∧
      w' = { c.w with frags := w'.frags, lane := w'.lane } ∧
      w'.frags.get? c.frag = some { c.f with spc := c.f.spc + 4, wait := .run } ∧
      w'.lane.queue = c.w.lane.queue ++ items ∧ items.map (·.word) = ws ∧
      ∀ k it, items[k]? = some it →
        it.slots = (List.range 8).map (fun j => c.get (sb + BitVec.ofNat 8 j)) ∧ it.emask = c.f.emask ∧ it.fmt = c.f.fmt ∧
        it.nfrag = c.w.frags.length ∧ it.frag = c.frag ∧ it.block = b ∧ it.off = BitVec.ofNat 10 k ∧ it.partMask = none

/-- R166, R167, R301: BRM on a known mask, and RCV. -/
def Obligations.MaskBranchAndReconverge : Prop :=
  Says.MaskBranch ∧ Says.Reconverge
/-- R202: a trap of a fragment in user mode, of a job with a handler, writes TCAUSE, TVAL, TSPC, TLPC and LFMASK, sets h0
to 0 and h2, freezes the lane queue, and goes on in supervisor mode at TVEC.ADDR in the same slot; general registers,
vector registers, predicates, the other fragments and every byte of memory stay. -/
def Says.TrapWithHandler : Prop :=
  ∀ (s : State) core slot n w f (tr : Trap),
    s.wave? core slot = some w → w.frags.get? n = some f → f.wait = .run → w.trap.sup = false →
    (s.reg (jobReg w.ident.job 0x60)).getLsbD 0 = true →
    entersTrap s (s.takeTrap core slot n tr) core slot n w f tr

/-- R204: a synchronous fault in supervisor mode ends the gang and ENDCAUSE records DOUBLEFAULT; a trap of a job with no
handler ends the gang and records the cause, but MEMLOSS ends the wave only. -/
def Says.TrapWithoutHandler : Prop :=
  ∀ (s : State) core slot n w f (tr : Trap), s.wave? core slot = some w → w.frags.get? n = some f →
    let t := s.takeTrap core slot n tr
    let endcause (cause level : Nat) : Word :=
      BitVec.ofNat 64 (cause * 2 ^ 56 + level * 2 ^ 53 + w.ident.gang % 256 * 2 ^ 32 + w.ident.grid % 2 ^ 32)
    let tvecEn := (s.reg (jobReg w.ident.job 0x60)).getLsbD 0
    (w.trap.sup = true → tr.async = false → t.wave? core slot = none ∧
      t.reg (jobReg w.ident.job 0x78) = endcause 0x0A 2) ∧
    (w.trap.sup = false → tvecEn = false → tr.cause ≠ 0x07 →
      t.wave? core slot = none ∧ t.reg (jobReg w.ident.job 0x78) = endcause tr.cause.toNat 2) ∧
    (w.trap.sup = false → tvecEn = false → tr.cause = 0x07 →
      t.wave? core slot = none ∧ t.reg (jobReg w.ident.job 0x78) = endcause 0x07 1)

/-- R328, R333: TRAP takes TRAPINSTR with its immediate in TVAL; BKPT takes BREAKPOINT with TVAL 0, or with a debugger
attached halts the wave at the BKPT and sets HALTED; NOP takes one issue and changes nothing. -/
def Says.TrapBkptNop : Prop :=
  (∀ i s c, gate (.trap i) s = .run c → c.f.wait = .run → c.w.trap.sup = false →
    (s.reg (jobReg c.w.ident.job 0x60)).getLsbD 0 = true →
    ∃ t, exec (.trap i) s = .next t ∧
      entersTrap s t c.core c.slot c.frag c.w c.f { cause := 0x05, tval := i.setWidth 64 }) ∧
  (∀ s c, gate .bkpt s = .run c → c.f.wait = .run → c.w.trap.sup = false →
    (s.reg (jobReg c.w.ident.job 0x60)).getLsbD 0 = true → (s.reg (jobReg c.w.ident.job 0x80)).getLsbD 0 = false →
    ∃ t, exec .bkpt s = .next t ∧ entersTrap s t c.core c.slot c.frag c.w c.f { cause := 0x06, tval := 0 }) ∧
  (∀ s c, gate .bkpt s = .run c → (s.reg (jobReg c.w.ident.job 0x80)).getLsbD 0 = true →
    ∃ t w', exec .bkpt s = .next t ∧ sameBytes s t ∧ t.wave? c.core c.slot = some w' ∧
      w' = { c.w with sched := { c.w.sched with halted := true, atBkpt := some c.frag } } ∧
      t.reg (jobReg c.w.ident.job 0x80) = s.reg (jobReg c.w.ident.job 0x80) ||| 4 ∧
      ∀ o, o ≠ jobReg c.w.ident.job 0x80 → t.reg o = s.reg o) ∧
  (∀ s c, gate .nop s = .run c → ∃ t, exec .nop s = .next t ∧ goesOn s t c (c.after 4))

/-- R203, R329: ERET of a handler whose lane queue is empty and which left nothing on the stack. h0<2:0> = 0 retries:
user mode, the scalar stream at TSPC, the lane queue as it was frozen. 1 skips: for LANE = 1 the head of the frozen
queue counts as completed; for LANE = 0 the scalar stream goes on after the instruction at TSPC, 4 or 8 bytes on as the word
fetched there says, once the fetch has ended; 4 where no word can be fetched (the model's choice, log 15). 3 ends the
gang, 4 the job, every other value the wave. Registers and memory stay. -/
def Obligations.TrapReturn : Prop :=
  ∀ s c, gate .eret s = .run c → c.w.laneAll = [] → c.w.stack.any (·.sup) = false → c.w.trap.absent = none →
    c.w.trap.tcause.extractLsb' 0 8 ≠ 0x07#8 → c.w.work.absent = [] →
    let act := (c.w.trap.h.get 0).toNat % 8
    let cause := c.w.trap.tcause.extractLsb' 0 8
    let r : Reader := ⟨c.core, c.slot, c.w⟩
    let va := c.w.trap.tspc.toNat
    let same (w' : Wave) : Prop := w' = { c.w with
      trap := { c.w.trap with sup := false, frozen := [], frest := [] }, lane := w'.lane, frags := w'.frags }
    let backAt (w' : Wave) (pc : Word) : Prop :=
      w'.frags.get? c.w.trap.slot = (c.w.frags.get? c.w.trap.slot).map (fun f => { f with spc := pc, wait := .run }) ∧
      ∀ k, k ≠ c.w.trap.slot → w'.frags.get? k = c.w.frags.get? k
    (act = 0 → c.w.trap.frest = [] → ∃ t w', exec .eret s = .next t ∧ onlyWave s t c.core c.slot w' ∧ same w' ∧
      w'.lane.queue = c.w.trap.frozen ∧ backAt w' c.w.trap.tspc) ∧
    (act = 1 → c.w.trap.tcause.getLsbD 9 = true → c.w.trap.frest = [] →
      ∃ t w', exec .eret s = .next t ∧ onlyWave s t c.core c.slot w' ∧ same w' ∧
        w'.lane.queue = c.w.trap.frozen.drop 1 ∧ backAt w' c.w.trap.tspc) ∧
    (act = 1 → c.w.trap.tcause.getLsbD 9 = false → ∀ s', s.lengthAt r va = (none, s') → exec .eret s = .next s') ∧
    (act = 1 → c.w.trap.tcause.getLsbD 9 = false → c.w.trap.frest = [] → ∀ n s', s.lengthAt r va = (some n, s') →
      inNoConvoy s' c.uid →
      ∃ t w', exec .eret s = .next t ∧ onlyWave s' t c.core c.slot w' ∧ same w' ∧ w'.lane.queue = c.w.trap.frozen ∧
        backAt w' (c.w.trap.tspc + BitVec.ofNat 64 n)) ∧
    (windowOf va = .global → (∀ k l e, s.translate c.core c.w.ident.job va 3 c.w.sched.fails ≠ .fault k l e) →
      (∀ s', s.fetchWord r va = (.wait, s') → s.lengthAt r va = (none, s')) ∧
      ∀ word s', s.fetchWord r va = (.ok word, s') →
        s.lengthAt r va = (some (if word.getLsbD 24 then 8 else 4), s')) ∧
    (windowOf va ≠ .global → s.lengthAt r va = (some 4, s)) ∧
    (act = 3 → exec .eret s = .next (s.forcedEnd c.w.ident c.core c.slot 2 cause)) ∧
    (act = 4 → exec .eret s = .next (s.forcedEnd c.w.ident c.core c.slot 4 cause)) ∧
    (act ≠ 0 → act ≠ 1 → act ≠ 3 → act ≠ 4 → exec .eret s = .next (s.forcedEnd c.w.ident c.core c.slot 1 cause))

/-- R168, R308: EXIT of a fragment beside others ends its lanes and frees its slot; EXIT of the last, in user mode, with
nothing of the wave's work outstanding, ends the wave, which leaves its slot and its gang; in supervisor mode EXIT ends
the wave by force. -/
def Says.Exit : Prop :=
  (∀ s c k g, gate .exit s = .run c → c.w.laneAll.any (fun i => i.frag == c.frag) = false → c.w.trap.sup = false →
    c.w.stack = [] → c.w.groups = [] → k ≠ c.frag → c.w.frags.get? k = some g → g.rcv = none →
    ∃ t w', exec .exit s = .next t ∧ onlyWave s t c.core c.slot w' ∧ w'.frags.get? c.frag = none ∧
      (∀ j, j ≠ c.frag → w'.frags.get? j = c.w.frags.get? j) ∧ w' = { c.w with frags := w'.frags }) ∧
  (∀ s c, gate .exit s = .run c → c.w.laneAll = [] → c.w.trap.sup = false → c.w.stack = [] → c.w.frags.length = 1 →
    c.w.work.outs = [] → c.w.work.deferred = [] → c.w.work.red = [] → c.w.mat.ops = [] → c.w.mat.fv = false →
    s.cpCount c.uid = 0 →
    ∃ t, exec .exit s = .next t ∧ t.wave? c.core c.slot = none ∧
      (∀ k, k ≠ slotKey c.core c.slot → t.waves.get? k = s.waves.get? k) ∧ (∀ a, t.mem.byte a = s.mem.byte a) ∧
      ∀ g x, t.sched.grids.get? c.w.ident.grid = some g → g.gangs.get? c.w.ident.gang = some x →
        c.w.ident.rank ∉ x.here) ∧
  ∀ s c, gate .exit s = .run c → c.w.laneAll.any (fun i => i.frag == c.frag) = false → c.w.trap.sup = true →
    exec .exit s = .next (s.forcedEnd c.w.ident c.core c.slot 1 (c.w.trap.tcause.extractLsb' 0 8))

/-- R164, R202, R246, R330: MFS writes the special register's value to its destination. The values of the wave,
fragment, trap, tree and job registers stand here by their numbers, of a member CVSLIP and CVPAT those of its convoy
(R69); a supervisor number is read in supervisor mode only (ScalarGate). -/
def Says.MoveFromSpecial : Prop :=
  ∀ d n s c, gate (.mfs d n) s = .run c → ∃ t v, exec (.mfs d n) s = .next t ∧ writesReg s t c d v (c.after 4) ∧
    let w := c.w
    let job (o : Nat) : Word := s.reg (jobReg w.ident.job o)
    let convoy := if w.cv.mem then s.convoys.get? (cvKey c.core w) else none
    ∀ x, (n.toNat, x) ∈ [(0x000, c.f.spc), (0x001, w.lpc), (0x003, c.f.emask.extractLsb' 0 64),
      (0x004, c.f.emask.extractLsb' 64 64), (0x005, c.f.fmt.setWidth 64), (0x006, BitVec.ofNat 64 w.ident.rank),
      (0x007, BitVec.ofNat 64 w.ident.gang), (0x008, BitVec.ofNat 64 w.ident.grid), (0x009, BitVec.ofNat 64 w.ident.job),
      (0x00A, s.clk), (0x00B, BitVec.ofNat 64 w.vcount),
      (0x00C, BitVec.ofNat 64 (0x0140_0000_0000_0000 + w.ident.gang * 2 ^ 24)), (0x00E, 0x0160_0000_0000_0000),
      (0x020, w.trap.tcause), (0x021, w.trap.tval), (0x022, w.trap.tspc), (0x023, w.trap.tlpc),
      (0x024, w.trap.lfmask.extractLsb' 0 64), (0x025, w.trap.lfmask.extractLsb' 64 64),
      (0x031, BitVec.ofNat 64 w.cv.self), (0x033, ((convoy.map (·.slip)).getD w.cv.slip).setWidth 64),
      (0x034, ((convoy.map (·.pat)).getD w.cv.pat).setWidth 64), (0x035, w.cv.pos),
      (0x040, w.work.treesel), (0x041, w.work.trtime), (0x100, job 0x60), (0x101, job 0x08), (0x102, job 0x48),
      (0x103, job 0x50), (0x104, job 0x58), (0x105, job 0x68)] → v = x

/-- R246, R330: MTS writes TSPC (bits 56:2), and outside a convoy CVSLIP (0 taken as 1), CVPAT (below 256 taken as 256)
and CVPOS, and TREESEL and TRTIMEOUT (the value mod 2^32, below 1,024 taken as 1,024: the model's choice, log 78); every
other register it may name is left alone. The thread goes on, and nothing else changes. -/
def Says.MoveToSpecial : Prop :=
  ∀ d n s c, gate (.mts d n) s = .run c → ∃ t w', exec (.mts d n) s = .next t ∧ onlyWave s t c.core c.slot w' ∧
    fragAt c.w w' c.frag c.f (c.after 4) ∧
    let v := c.get d
    let free := c.w.cv.mem = false
    w' = { c.w with
      frags := w'.frags
      trap := { c.w.trap with tspc := if n = 0x022 then v &&& 0x01FF_FFFF_FFFF_FFFC#64 else c.w.trap.tspc }
      cv := { c.w.cv with
        slip := if n = 0x033 ∧ free then (if v.setWidth 16 = 0#16 then 1 else v.setWidth 16) else c.w.cv.slip
        pat := if n = 0x034 ∧ free then (if (v.setWidth 32).toNat < 256 then 256 else v.setWidth 32) else c.w.cv.pat
        pos := if n = 0x035 ∧ free then v else c.w.cv.pos }
      work := { c.w.work with
        treesel := if n = 0x040 then v &&& 0x01FF_FF00_3F0F_0307#64 else c.w.work.treesel
        trtime := if n = 0x041 then BitVec.ofNat 64 (max (v.toNat % 2 ^ 32) 1024) else c.w.work.trtime } }

/-- R331: YIELD of a grid that is not chosen completes at once and changes nothing, unless a candidate of its priority or
above lacks room and it can be chosen; of a chosen grid it waits, to be evicted. -/
def Says.Yield : Prop :=
  (∀ s c g, gate .yield s = .run c → s.sched.grids.get? c.w.ident.grid = some g →
    c.w.sched.resumed.contains c.frag = false → g.chosen = false →
    (s.pressed (dieOf c.core) g.pri = false ∨ s.choosable c.w.ident.grid g = false) →
    ∃ t, exec .yield s = .next t ∧ goesOn s t c (c.after 4)) ∧
  ∀ s c g, gate .yield s = .run c → s.sched.grids.get? c.w.ident.grid = some g →
    c.w.sched.resumed.contains c.frag = false → g.chosen = true →
    ∃ t w', exec .yield s = .next t ∧ sameBytes s t ∧ t.wave? c.core c.slot = some w' ∧
      waitsAt c.w w' c.frag c.f .yielding

/-- R332: REGGROW to n, a multiple of 8 with VCOUNT ≤ n ≤ 256, sets VCOUNT where the groups are there and no request of
the core waits for them, and the registers added read 0; REGSHRINK to n, a multiple of 8 with 8 ≤ n ≤ VCOUNT, sets
VCOUNT once nothing outstanding writes a register at or above n; other registers keep their values, and an n outside
these limits raises REGRANGE with TVAL n. -/
def Obligations.RegisterAllocation : Prop :=
  (∀ a s c, gate (.reggrow a) s = .run c →
    let n := (c.get a).toNat
    n % 8 = 0 → c.w.vcount ≤ n → n ≤ 256 → s.growFits c.core c.w n = true → (s.core c.core).growq = [] →
    inNoConvoy s c.uid →
    ∃ t w', exec (.reggrow a) s = .next t ∧ onlyWave s t c.core c.slot w' ∧ fragAt c.w w' c.frag c.f (c.after 4) ∧
      w' = { c.w with frags := w'.frags, vec := w'.vec, vcount := n } ∧
      ∀ r, r < n → w'.vec.get r = if r < c.w.vcount then c.w.vec.get r else 0) ∧
  (∀ a s c, gate (.regshrink a) s = .run c →
    let n := (c.get a).toNat
    n % 8 = 0 → 8 ≤ n → n ≤ c.w.vcount → c.w.writesFrom n = false → (s.core c.core).growq = [] →
    ∃ t w', exec (.regshrink a) s = .next t ∧ onlyWave s t c.core c.slot w' ∧ fragAt c.w w' c.frag c.f (c.after 4) ∧
      w' = { c.w with frags := w'.frags, vec := w'.vec, vcount := n } ∧
      ∀ r, r < n → w'.vec.get r = c.w.vec.get r) ∧
  (∀ a s c, gate (.reggrow a) s = .run c → c.w.spec = [] →
    ((c.get a).toNat % 8 ≠ 0 ∨ (c.get a).toNat < c.w.vcount ∨ 256 < (c.get a).toNat) →
    exec (.reggrow a) s = .next (s.trapAt c { cause := 0x0B, tval := c.get a })) ∧
  ∀ a s c, gate (.regshrink a) s = .run c → c.w.spec = [] →
    ((c.get a).toNat % 8 ≠ 0 ∨ (c.get a).toNat < 8 ∨ c.w.vcount < (c.get a).toNat) →
    exec (.regshrink a) s = .next (s.trapAt c { cause := 0x0B, tval := c.get a })

/-- R293 to R299: SLDS reads the bytes of its type, little-endian, from the scratch of the wave's own gang and writes the
extended value; SSTS writes the low bytes of its register there; with and without a literal offset. An address of another
window traps, with a fault record (log 95): with ADDRWINDOW, but a store to the Light List and an access of user mode to the queue or
management window with WINDOWPRIV. An unaligned address of scratch traps with SCRATCHALIGN, one outside the gang's allocation
with SCRATCHRANGE, one in a locked range with RANGELOCK. With no lane instruction of an earlier block queued and no access
outstanding, nothing holds such an access back. -/
def Says.ScratchAccess : Prop :=
  let faults (i : Instr) (m : BitVec 8) (ea : Ctx → Word) (store : Bool) : Prop := ∀ s c, gate i s = .run c →
    c.accessWaits s (ea c) (mSize m) store (store && mRel m) (store && mWide m) = false → c.w.spec = [] →
    let va := (ea c).toNat
    let n := mSize m
    let traps (k : BitVec 8) : Prop := exec i s = .next (s.trapAt c { cause := k, tval := ea c })
    let own (a : Alloc) : Prop := va / 2 ^ 32 % 2 ^ 20 = 0 ∧ scratchGang va = c.w.ident.gang ∧ va % 2 ^ 24 + n ≤ a.len
    let other : Option (BitVec 8) := (match windowOf va with
      | .scratch => if inWindow va n then none else some 0x20
      | .light => some (if store && inWindow va n then 0x21 else 0x20)
      | .queues | .mgmt => some (if inWindow va n && !c.w.trap.sup then 0x21 else 0x20)
      | _ => some 0x20)
    (∀ k, other = some k →
      (s.canRecord (dieOf c.core) c.w.ident.job 1 = true →
        exec i s = .next (c.windowTrap s k (ea c) (if store then 1 else 0))) ∧
      (s.canRecord (dieOf c.core) c.w.ident.job 1 = false → exec i s = .next s)) ∧
    (windowOf va = .scratch → inWindow va n = true → va % n ≠ 0 → traps 0x31) ∧
    (windowOf va = .scratch → va % n = 0 → ∀ cl al, s.gangAlloc c.w.ident.grid c.w.ident.gang = some (cl, al) →
      (¬ own al → traps 0x30) ∧ (own al → s.rangeLocked c.w va n store = true → traps 0x43))
  let load (i : Instr) (d m : BitVec 8) (ea : Ctx → Word) (len : Nat) : Prop := faults i m ea false ∧
    ∀ s c cl a, gate i s = .run c → c.accessWaits s (ea c) (mSize m) false false false = false →
      ownPlace s c.w (ea c).toNat (mSize m) false cl a →
      ∃ t, exec i s = .next t ∧ writesReg (s.acquireL1 c.core (mOrd m == 1) (decide (1 ≤ mScp m))) t c d
        (loadValue m (natOfBytes ((s.cluster cl).csp.read a (mSize m)))) (c.after len)
  let store (i : Instr) (d m : BitVec 8) (ea : Ctx → Word) (len : Nat) : Prop := faults i m ea true ∧
    ∀ s c cl a, gate i s = .run c → c.accessWaits s (ea c) (mSize m) true (mRel m) (mWide m) = false →
      ownPlace s c.w (ea c).toNat (mSize m) true cl a →
      ∃ t w', exec i s = .next t ∧ onlyWaveAndScratch s t c.core c.slot w' ∧ fragAt c.w w' c.frag c.f (c.after len) ∧
        w' = { c.w with frags := w'.frags } ∧ storesScratch s t cl a (bytesOfNat (mSize m) (c.get d).toNat)
  (∀ d a m, load (.slds d a m) d m (fun c => c.get a) 4) ∧
  (∀ d a m lit, load (.sldsSx d a m lit) d m (fun c => c.get a + lit.signExtend 64) 8) ∧
  (∀ d a m, store (.ssts d a m) d m (fun c => c.get a) 4) ∧
  (∀ d a m lit, store (.sstsSx d a m lit) d m (fun c => c.get a + lit.signExtend 64) 8) ∧
  ∀ (s : State) (c : Ctx) ea n st rel wide, noneAhead c → c.accessWaits s ea n st rel wide = false

/-- R202, R204: taking a trap in user mode with a handler, in supervisor mode, and without a handler. -/
def Obligations.TrapEntry : Prop :=
  Says.TrapWithHandler ∧ Says.TrapWithoutHandler

/-- R168, R308, R328, R331, R333: TRAP, BKPT and NOP; YIELD; EXIT. -/
def Obligations.TrapYieldAndExit : Prop :=
  Says.TrapBkptNop ∧ Says.Yield ∧ Says.Exit

/-- R164, R202, R246, R330: MFS and MTS of every special register. -/
def Obligations.SpecialRegisterMoves : Prop :=
  Says.MoveFromSpecial ∧ Says.MoveToSpecial
/-- R293 to R298, R52, R53: a scalar load or store of the global, peer or host window at a translated, aligned address
that meets no range lock. A load that the L1 holds writes the extended value at once; any other load is sent, counted in
LD, its register pending; a store is sent, counted in ST. A load without .acq and every store let the thread go on. No
byte of memory changes before the request is performed, but for the D bit of the leaf. An address translates through an
entry that the core's TLB holds and that permits the access (R17, R19). -/
def Obligations.TranslatedLoadStore : Prop :=
  let load (i : Instr) (d m : BitVec 8) (ea : Ctx → Word) (len : Nat) : Prop := ∀ s c pa leaf, gate i s = .run c →
    let va := (ea c).toNat
    let w := windowOf va
    (w = .global ∨ w = .peer ∨ w = .host) → inWindow va (mSize m) = true → va % mSize m = 0 →
    c.accessWaits s (ea c) (mSize m) false false false = false → (s.core c.core).noMiss = false →
    s.translate c.core c.w.ident.job va 0 c.w.sched.fails = .ok pa leaf → s.rangeLocked c.w va (mSize m) false = false →
    let s1 := s.acquireL1 c.core (mOrd m == 1) (decide (1 ≤ mScp m))
    let held := s1.l1Find c.core (pa / 128) (leaf.extractLsb' 51 10) c.w.ident.job
    (∀ l, w = .global → held = some l → ∃ s2 t, exec i s = .next t ∧ sameBytes s s2 ∧ writesReg s2 t c d
      (loadValue m (l.data.toNat / 2 ^ (8 * (pa % 128)) % 2 ^ (8 * mSize m))) (c.after len)) ∧
    (w ≠ .global ∨ held = none → ∃ t w' o, exec i s = .next t ∧ sameBytes s t ∧ t.wave? c.core c.slot = some w' ∧
      w' = { c.w with frags := w'.frags, work := { c.w.work with outs := c.w.work.outs ++ [o] } } ∧
      o.store = false ∧ o.dest = .scalar d c.frag ∧
      (mOrd m ≠ 1 → fragAt c.w w' c.frag c.f (c.after len)) ∧
      (mOrd m = 1 → waitsAt { c.w with work := w'.work } w' c.frag c.f (.landing o.id len)) ∧
      ∃ k x u, t.net.txns.get? k = some x ∧ x.op = .rd ∧ x.pa / 128 = pa / 128 ∧ u ∈ x.users ∧ u.uid = c.uid ∧
        u.out = o.id ∧ u.dest = .scalar d c.frag)
  let store (i : Instr) (d m : BitVec 8) (ea : Ctx → Word) (len : Nat) : Prop := ∀ s c pa leaf, gate i s = .run c →
    let va := (ea c).toNat
    let w := windowOf va
    (w = .global ∨ w = .peer ∨ w = .host) → inWindow va (mSize m) = true → va % mSize m = 0 →
    c.accessWaits s (ea c) (mSize m) true (mRel m) (mWide m) = false → (s.core c.core).noMiss = false →
    s.dirtyClear c.core c.w.ident.job va = true → s.translate c.core c.w.ident.job va 1 c.w.sched.fails = .ok pa leaf →
      s.rangeLocked c.w va (mSize m) true = false →
    ∃ t w' o, exec i s = .next t ∧ sameBytes (s.markDirty c.core c.w.ident.job va) t ∧
      t.wave? c.core c.slot = some w' ∧ fragAt c.w w' c.frag c.f (c.after len) ∧
      w' = { c.w with frags := w'.frags, work := { c.w.work with outs := c.w.work.outs ++ [o] } } ∧ o.store = true ∧
      ∃ k x e u, t.net.txns.get? k = some x ∧ (x.op = .wr ∨ x.op = .wrm) ∧ x.elems = [e] ∧ e.pa = pa ∧
        e.size = mSize m ∧ e.data = c.get d ∧ x.users = [u] ∧ u.out = o.id ∧ u.uid = c.uid
  (∀ d a m, load (.sld d a m) d m (fun c => c.get a) 4) ∧
  (∀ d a m lit, load (.sldSx d a m lit) d m (fun c => c.get a + lit.signExtend 64) 8) ∧
  (∀ d a m, store (.sst d a m) d m (fun c => c.get a) 4) ∧
  (∀ d a m lit, store (.sstSx d a m lit) d m (fun c => c.get a + lit.signExtend 64) 8) ∧
  ∀ (s : State) core job va (acc : BitVec 3) fails e rest, (s.reg (jobReg job 0)).getLsbD 0 = true →
    (s.core core).tlb = e :: rest → e.job = job → e.page = pageOf e.level va → windowOf va ≠ .peer →
    (match acc.toNat with
      | 1 => e.leaf.getLsbD 62 | 2 => e.leaf.getLsbD 61 && e.leaf.getLsbD 62 | 3 => e.leaf.getLsbD 63
      | _ => e.leaf.getLsbD 61) = true →
    s.translate core job va acc fails = .ok (bits e.leaf 47 12 * 65536 + va % 2 ^ levelShift e.level) e.leaf

/-- R8, R17, R114, R294, R296: a scalar access traps, and performs nothing else, with TVAL its address: a reserved window
or scratch ADDRWINDOW, a store to the Light List and a user-mode access of the queue and management windows WINDOWPRIV, both
with a fault record (log 95; the access waits while none can be written), an unaligned one ALIGN, an address in a locked
range RANGELOCK. -/
def Says.ScalarAccessFaults : Prop :=
  ∀ d a m s c, c.w.spec = [] →
    let ea := c.get a
    let va := ea.toNat
    let n := mSize m
    let faults (i : Instr) (k : BitVec 8) : Prop := exec i s = .next (s.trapAt c { cause := k, tval := ea })
    let window (i : Instr) (k : BitVec 8) (acc : BitVec 2) : Prop :=
      (s.canRecord (dieOf c.core) c.w.ident.job 1 = true → exec i s = .next (c.windowTrap s k ea acc)) ∧
      (s.canRecord (dieOf c.core) c.w.ident.job 1 = false → exec i s = .next s)
    (gate (.sld d a m) s = .run c → c.accessWaits s ea (mSize m) false false false = false →
      ((windowOf va = .none ∨ windowOf va = .scratch) → window (.sld d a m) 0x20 0) ∧
      (windowOf va = .mgmt ∨ windowOf va = .queues → inWindow va n = true → c.w.trap.sup = false →
        window (.sld d a m) 0x21 0) ∧
      (windowOf va = .global → inWindow va n = true → va % n ≠ 0 → faults (.sld d a m) 0x04) ∧
      (windowOf va = .global → inWindow va n = true → va % n = 0 → s.rangeLocked c.w va n false = true →
        (s.core c.core).noMiss = false →
          ∀ pa leaf, s.translate c.core c.w.ident.job va 0 c.w.sched.fails = .ok pa leaf → faults (.sld d a m) 0x43)) ∧
    (gate (.sst d a m) s = .run c → c.accessWaits s ea (mSize m) true (mRel m) (mWide m) = false →
      ((windowOf va = .none ∨ windowOf va = .scratch) → window (.sst d a m) 0x20 1) ∧
      (windowOf va = .light → inWindow va n = true → window (.sst d a m) 0x21 1) ∧
      (windowOf va = .mgmt ∨ windowOf va = .queues → inWindow va n = true → c.w.trap.sup = false →
        window (.sst d a m) 0x21 1) ∧
      (windowOf va = .global → inWindow va n = true → va % n ≠ 0 → faults (.sst d a m) 0x04) ∧
      (windowOf va = .global → inWindow va n = true → va % n = 0 → s.rangeLocked c.w va n true = true →
        (s.core c.core).noMiss = false → s.dirtyClear c.core c.w.ident.job va = true →
          ∀ pa leaf, s.translate c.core c.w.ident.job va 1 c.w.sched.fails = .ok pa leaf → faults (.sst d a m) 0x43))

/-- R300, R385: SATOM on scratch returns the old value and stores the new one, add, minimum, maximum, and, or, xor,
exchange, or compare-and-swap on the element of its type; on the global window it is sent as an atomic, counted in LD. -/
def Says.ScalarAtomic : Prop :=
  (∀ d a m lit s c cl p, gate (.satom d a m lit) s = .run c →
    c.accessWaits s (c.get a) (mSize m) false (mRel m) (mWide m) = false →
    ownPlace s c.w (c.get a).toNat (mSize m) true cl p →
    let n := mSize m
    let aop := (lit.extractLsb' 0 8).toNat
    let old := natOfBytes ((s.cluster cl).csp.read p n)
    let x := (c.get (lit.extractLsb' 16 8)).toNat
    let k := (c.get (lit.extractLsb' 8 8)).toNat
    let sg (v : Nat) : Int := if mTyp m = 6 then (BitVec.ofNat 32 v).toInt else Int.ofNat (v % 2 ^ (8 * n))
    let new : Nat := match aop with
      | 1 => old + x
      | 2 => if sg x < sg old then x else old
      | 3 => if sg old < sg x then x else old
      | 4 => old &&& x
      | 5 => old ||| x
      | 6 => old ^^^ x
      | 7 => x
      | _ => if old = k % 2 ^ (8 * n) then x else old
    ∃ t s1, exec (.satom d a m lit) s = .next t ∧ storesScratch s s1 cl p (bytesOfNat n new) ∧
      writesReg (s1.acquireL1 c.core (mAcq m) (mWide m)) t c d (loadValue m old) (c.after 8)) ∧
  ∀ d a m lit s c pa leaf, gate (.satom d a m lit) s = .run c →
    c.accessWaits s (c.get a) (mSize m) false (mRel m) (mWide m) = false → (s.core c.core).noMiss = false →
    let va := (c.get a).toNat
    windowOf va = .global → inWindow va (mSize m) = true → va % mSize m = 0 →
      s.dirtyClear c.core c.w.ident.job va = true →
    s.translate c.core c.w.ident.job va 2 c.w.sched.fails = .ok pa leaf → s.rangeLocked c.w va (mSize m) true = false →
    ∃ t w' o, exec (.satom d a m lit) s = .next t ∧ t.wave? c.core c.slot = some w' ∧
      w' = { c.w with frags := w'.frags, work := { c.w.work with outs := c.w.work.outs ++ [o] } } ∧
      o.store = false ∧ o.dest = .scalar d c.frag ∧
      (mAcq m = false → fragAt c.w w' c.frag c.f (c.after 8)) ∧
      ∃ k x e, t.net.txns.get? k = some x ∧ x.op = .atm ∧ x.elems = [e] ∧ e.pa = pa ∧ e.size = mSize m ∧
        e.data = c.get (lit.extractLsb' 16 8) ∧ x.aop = lit.extractLsb' 0 8

/-- R297, R312, R313, R327: WAIT takes the oldest deferred trap of an access that its limits cover (how deferred
accesses count against the limits is the model's reading, log 76), completes where the four counters lie within them,
and else waits; FENCE completes where the accesses its kind covers have landed or been performed, and an acquire at gang
or wider then empties the L1; FLUSHRED with nothing in the buffer goes on, and the drain unit serves its wave no longer. -/
def Obligations.WaitFenceFlush : Prop :=
  let covered (c : Ctx) (l st : BitVec 6) (x : Deferred) : Prop :=
    let failed (b : Bool) : Nat := (c.w.work.deferred.filter (fun y => y.out != 0 && y.store == b)).length
    x.out = 0 ∨ (x.store = true ∧ st.toNat < c.w.stCount + failed true) ∨
      (x.store = false ∧ l.toNat < c.w.ldCount + failed false)
  (∀ l st cp tl s c, gate (.wait l st cp tl) s = .run c → c.w.laneAll.any (·.memory) = false →
    (∀ x ∈ c.w.work.deferred, ¬ covered c l st x) →
    let within := c.w.ldCount ≤ l.toNat ∧ c.w.stCount ≤ st.toNat ∧ s.cpCount c.uid ≤ cp.toNat ∧ c.w.tlCount ≤ tl.toNat
    (within → inNoConvoy s c.uid → ∃ t, exec (.wait l st cp tl) s = .next t ∧ goesOn s t c (c.after 4)) ∧
    (l = 63 → st = 63 → cp = 63 → tl = 63 → inNoConvoy s c.uid →
      ∃ t, exec (.wait l st cp tl) s = .next t ∧ goesOn s t c (c.after 4)) ∧
    (¬ within → c.w.ldCount ≤ 63 → c.w.stCount ≤ 63 → s.cpCount c.uid ≤ 63 → c.w.tlCount ≤ 63 →
      ∃ t w', exec (.wait l st cp tl) s = .next t ∧ sameBytes s t ∧ t.wave? c.core c.slot = some w' ∧
        waitsAt c.w w' c.frag c.f (.counters l st cp tl))) ∧
  (∀ l st cp tl s c pre x rest, gate (.wait l st cp tl) s = .run c → c.w.laneAll.any (·.memory) = false →
    c.w.work.deferred = pre ++ x :: rest → (∀ y ∈ pre, ¬ covered c l st y) → covered c l st x → c.w.spec = [] →
    exec (.wait l st cp tl) s = .next (s.trapAt c
      { cause := x.cause, tval := x.tval, h2 := x.h2, mask := x.mask, lpc := if x.lane then some x.lpc else none,
        taken := some x })) ∧
  (∀ o sc s c, gate (.fence o sc) s = .run c → c.w.laneAll.any (·.memory) = false →
    (o = 1 → c.w.ldCount = 0) → (o ≠ 1 → c.w.work.outs = []) →
    ∃ s1 t, exec (.fence o sc) s = .next t ∧ goesOn s1 t c (c.after 4) ∧ sameBytes s s1 ∧
      (o = 2 ∨ sc = 0 → s1 = s) ∧
      (o ≠ 2 → o ≠ 0 → sc ≠ 0 → (s1.core c.core).l1 = [] ∧ ∀ k, k ≠ c.core → s1.core k = s.core k)) ∧
  ∀ s c, gate .flushred s = .run c → c.w.redAhead = false → c.w.work.red = [] → c.w.work.outs.any (·.red) = false →
    ∃ t, exec .flushred s = .next t ∧ goesOn s t { c with w := c.w.drains false } (c.after 4)

/-- R80 to R85, R314 to R316: the barrier instructions on a resident object, with nothing of the wave's before them.
BARINIT makes a new object; BARARR and BAREXP add to ARR and EXPB, and the completion step advances PHASE by ARR / EXPA
where both counts are reached; BARINV marks it; on an object with INV set BARARR and BAREXP change nothing; BARPH and
BARWAIT return INV and PHASE; a BARWAIT whose phase has not completed raises WCNT and waits; the completion step follows a
BARWAIT too, and wakes each waiter whose phase has completed. Bytes outside the object stay. An object is resident where
its gang is and has not been saved. -/
def Obligations.BarrierObjects : Prop :=
  let object (cl p : Nat) (s t : State) : Prop :=
    (∀ k, t.mem.byte k = s.mem.byte k) ∧
    ∀ c k, ¬ (c = cl ∧ p ≤ k ∧ k < p + 32) → (t.cluster c).csp.byte k = (s.cluster c).csp.byte k
  let sets (i : Instr) (a : BitVec 8) (own : Bool) (ok : Ctx → Bar → Prop) (new : Ctx → Bar → Bar) : Prop :=
    ∀ s c cl p, gate i s = .run c → noneAhead c → c.w.work.red = [] →
      s.barPlace c.w (c.get a) own = .here cl p → ok c (s.bar cl p) →
      ∃ t w', exec i s = .next t ∧ object cl p s t ∧ t.wave? c.core c.slot = some w' ∧
        w'.frags.get? c.frag = some { c.f with spc := c.after 4, wait := .run } ∧ w'.scl = c.w.scl ∧
        { t.bar cl p with wcnt := 0 } = { new c (s.bar cl p) with wcnt := 0 }
  let leaves (i : Instr) (a : BitVec 8) (own : Bool) : Prop := ∀ s c cl p, gate i s = .run c → noneAhead c →
    c.w.work.red = [] → c.w.sched.draining = false → s.barPlace c.w (c.get a) own = .here cl p → (s.bar cl p).inv = true →
    ∃ t, exec i s = .next t ∧ goesOn s t c (c.after 4)
  let due (b : Bar) : Prop := b.inv = false ∧ b.expa ≠ 0 ∧ b.expa ≤ b.arr ∧ b.expb ≤ b.landed
  let step (b : Bar) : Bar :=
    { b with phase := (b.phase + b.arr / b.expa) % 2 ^ 32, arr := b.arr % b.expa, landed := b.landed - b.expb, expb := 0 }
  let complete (b : Bar) : Bar := if b.expa ≤ b.arr ∧ b.expb ≤ b.landed then step b else b
  let word (b : Bar) : Word := BitVec.ofNat 64 ((if b.inv then 2 ^ 32 else 0) + b.phase)
  let idle (s : State) (w : Wave) (ea : Nat) : Prop := ∀ e ∈ s.waves, e.2.ident.grid = w.ident.grid →
    e.2.ident.gang = w.ident.gang → ∀ f ∈ e.2.frags, ∀ x n r wide, f.2.wait = .barrier x n r wide → scratchOff x ≠ scratchOff ea
  (∀ d a e, sets (.barinit d a e) a false
    (fun c b => b.wcnt = 0 ∧ (b.inv = true ∨ b.expb ≤ b.landed) ∧ (c.get d).extractLsb' 48 16 ≠ 0)
    (fun c _ => ⟨0, ((c.get d).extractLsb' 48 16).toNat, 0, ((c.get d).extractLsb' 0 48).toNat, 0, 0, false, e == 1, true, true⟩)) ∧
  (∀ d a sc, sets (.bararr d a sc) a false
    (fun c b => b.good = true ∧ b.inv = false ∧ b.arr + (c.get d).toNat ≤ 65535)
    (fun c b => complete { b with arr := b.arr + (c.get d).toNat })) ∧
  (∀ d a sc, sets (.barexp d a sc) a true
    (fun c b => b.good = true ∧ b.inv = false ∧ b.expb + (c.get d).toNat < 2 ^ 48)
    (fun c b => complete { b with expb := b.expb + (c.get d).toNat })) ∧
  (∀ a sc, sets (.barinv a sc) a true (fun _ b => b.good = true ∧ b.inv = false)
    (fun _ b => { b with inv := true, arr := 0, expb := 0, landed := 0 })) ∧
  (∀ d a sc, leaves (.bararr d a sc) a false ∧ leaves (.barexp d a sc) a true) ∧
  (∀ d a s c cl p, gate (.barph d a) s = .run c → noneAhead c → s.barPlace c.w (c.get a) true = .here cl p →
    ((s.bar cl p).good = true ∨ (s.bar cl p).inv = true) →
    ∃ t, exec (.barph d a) s = .next t ∧ writesReg s t c d (word (s.bar cl p)) (c.after 4)) ∧
  (∀ d a m lit s c cl p, gate (.barwait d a m lit) s = .run c → noneAhead c →
    s.barPlace c.w (c.get a) true = .here cl p → ((s.bar cl p).good = true ∨ (s.bar cl p).inv = true) →
    inNoConvoy s c.uid → s.engines = [] →
    let b := s.bar cl p
    let n := (c.get (lit.extractLsb' 0 8)).toNat % 2 ^ 32
    let ahead := (b.phase + 2 ^ 32 - n) % 2 ^ 32
    let done := b.inv = true ∨ (1 ≤ ahead ∧ ahead ≤ 2 ^ 31)
    (done → ¬ due b → idle s c.w (c.get a).toNat → ∃ t, exec (.barwait d a m lit) s = .next t ∧
      writesReg (s.acquireL1 c.core true (decide (1 ≤ m.extractLsb' 0 3))) t c d (word b) (c.after 8)) ∧
    (done → ∃ t w' f', exec (.barwait d a m lit) s = .next t ∧ object cl p s t ∧
      t.wave? c.core c.slot = some w' ∧ w'.frags.get? c.frag = some f' ∧ f'.spc = c.after 8 ∧ f'.wait = .run ∧
      readReg w' f' d = (if d = 0 then 0 else word b) ∧
      (b.inv = true → t.bar cl p = b) ∧ (due b → { t.bar cl p with wcnt := 0 } = { step b with wcnt := 0 }) ∧
      (b.good = true → ¬ due b → { t.bar cl p with wcnt := 0 } = { b with wcnt := 0 })) ∧
    (¬ done → due b → ∃ t w' f', exec (.barwait d a m lit) s = .next t ∧ object cl p s t ∧
      t.wave? c.core c.slot = some w' ∧ w'.frags.get? c.frag = some f' ∧ f'.spc = c.f.spc ∧
      { t.bar cl p with wcnt := 0 } = { step b with wcnt := 0 }) ∧
    (¬ done → ¬ due b → b.wcnt < 511 → idle s c.w (c.get a).toNat → ∃ t w', exec (.barwait d a m lit) s = .next t ∧ object cl p s t ∧
      t.wave? c.core c.slot = some w' ∧ waitsAt c.w w' c.frag c.f (.barrier (c.get a).toNat (BitVec.ofNat 32 n) d
        (decide (1 ≤ m.extractLsb' 0 3))) ∧
      t.bar cl p = { b with wcnt := b.wcnt + 1 })) ∧
  ∀ (s : State) (w : Wave) (ea : Word) (own : Bool) g x cl al,
    windowOf ea.toNat = .scratch → ea.toNat % 32 = 0 → ea.toNat / 2 ^ 32 % 2 ^ 20 = 0 →
    (own = true → scratchGang ea.toNat = w.ident.gang) → s.sched.grids.get? w.ident.grid = some g →
    g.gangs.get? (scratchGang ea.toNat) = some x → ea.toNat % 2 ^ 24 + 32 ≤ x.len → x.resuming = false → x.image = none →
    s.shipOf w.ident.grid (scratchGang ea.toNat) = none →
    s.gangAlloc w.ident.grid (scratchGang ea.toNat) = some (cl, al) →
    s.barPlace w ea own = .here cl (al.base + ea.toNat % 2 ^ 24)

/-- R63, R65, R66, R68, R317: CVJOIN, CVLEAVE and CVSTEP of a wave that has no CVSTEP pending. CVJOIN returns the code
of Table 3, whose tests stand here, and on 0 enters the lowest free index at the wave's CVPOS, the convoy's other members
and the other convoys staying as they are; CVLEAVE of a member leaves; CVSTEP of a member advances CVPOS by one unless a
member that is not parked stands SLIP or more behind it, when it waits; both do nothing without a membership, nor does a
CVSTEP at the last position. -/
def Obligations.ConvoyInstructions : Prop :=
  let free (c : Ctx) : Prop := ∀ e ∈ c.w.frags, e.2.wait ≠ .cvstep
  (∀ d a s c, gate (.cvjoin d a) s = .run c → free c →
    let code := s.joinCode c.core c.w (c.get a)
    (code ≠ 0 → ∃ t, exec (.cvjoin d a) s = .next t ∧ writesReg s t c d (BitVec.ofNat 64 code) (c.after 4)) ∧
    let k0 := s.joined c.core c.w (c.get a).toNat
    let i := k0.freeIndex
    (code = 0 → ∃ t w' k, exec (.cvjoin d a) s = .next t ∧ sameBytes s t ∧ t.wave? c.core c.slot = some w' ∧
      w'.cv.mem = true ∧ w'.cv.id = (c.get a).toNat ∧ w'.cv.self = i ∧ w'.cv.cause = 0 ∧
      scalarWrite { c.w with cv := w'.cv } w' c.frag c.f d 0 (c.after 4) ∧
      t.convoys.get? (convoyKey c.core (c.get a).toNat) = some k ∧
      (∀ n, n ≠ convoyKey c.core (c.get a).toNat → t.convoys.get? n = s.convoys.get? n) ∧
      k.grid = k0.grid ∧ k.slip = k0.slip ∧ k.pat = k0.pat ∧
      k.hwm.toNat = max k0.hwm.toNat c.w.cv.pos.toNat ∧ k.mem.get? i = some ⟨c.uid, c.w.cv.pos, false, [], 0⟩ ∧
      ∀ j, j ≠ i → k.mem.get? j = k0.mem.get? j)) ∧
  (∀ k : Convoy, k.mem.length < 64 → k.freeIndex < 64 ∧ k.mem.get? k.freeIndex = none ∧
    ∀ j, j < k.freeIndex → (k.mem.get? j).isSome = true) ∧
  (∀ (s : State) core (w : Wave) (id : Word),
    let bound := s.convoys.get? (convoyKey core id.toNat)
    let p := w.cv.pos.toNat
    (512 ≤ id.toNat → s.joinCode core w id = 5) ∧
    (id.toNat < 512 → w.cv.mem = true → s.joinCode core w id = 4) ∧
    (id.toNat < 512 → w.cv.mem = false → ∀ k, bound = some k →
      (k.grid ≠ w.ident.grid → s.joinCode core w id = 3) ∧
      (k.grid = w.ident.grid → 64 ≤ k.mem.length → s.joinCode core w id = 2) ∧
      (k.grid = w.ident.grid → k.mem = [] → s.joinCode core w id = if p + k.slip.toNat ≤ k.hwm.toNat then 1 else 0) ∧
      (k.grid = w.ident.grid → k.mem.length < 64 → k.mem ≠ [] → s.joinCode core w id =
        if k.lead < p + k.slip.toNat ∧ p ≤ k.lead then 0 else 1)) ∧
    (id.toNat < 512 → w.cv.mem = false → bound = none → s.joinCode core w id = 0)) ∧
  (∀ s c, gate .cvleave s = .run c → free c → c.w.cv.mem = false →
    ∃ t, exec .cvleave s = .next t ∧ goesOn s t c (c.after 4)) ∧
  (∀ s c, gate .cvleave s = .run c → free c → c.w.cv.mem = true →
    ∃ t w', exec .cvleave s = .next t ∧ sameBytes s t ∧ t.wave? c.core c.slot = some w' ∧ w'.cv.mem = false ∧
      w'.cv.cause = 1 ∧ w'.cv.state = 3 ∧ fragAt c.w w' c.frag c.f (c.after 4) ∧
      w' = { c.w with frags := w'.frags, cv := w'.cv } ∧
      ∀ n k, t.convoys.get? n = some k → ∀ i m, (i, m) ∈ k.mem → m.uid ≠ c.uid) ∧
  (∀ s c, gate .cvstep s = .run c → free c → (c.w.cv.mem = false ∨ c.w.cv.pos = BitVec.allOnes 64) →
    ∃ t, exec .cvstep s = .next t ∧ goesOn s t c (c.after 4)) ∧
  (∀ s c n k i m, gate .cvstep s = .run c → free c → c.w.cv.mem = true → c.w.cv.pos ≠ BitVec.allOnes 64 →
    s.membership c.uid = some (n, k, i, m) →
    let ahead : Prop := ∃ e ∈ k.mem, e.2.parked = false ∧ e.2.pos.toNat + k.slip.toNat ≤ m.pos.toNat
    (¬ ahead → ∃ t w', exec .cvstep s = .next t ∧ sameBytes s t ∧ t.wave? c.core c.slot = some w' ∧
      w'.cv = { c.w.cv with pos := m.pos + 1 } ∧ fragAt c.w w' c.frag c.f (c.after 4) ∧
      (t.convoys.get? n).bind (fun x => x.mem.get? i) = some { m with pos := m.pos + 1, idle := 0 }) ∧
    (ahead → ∃ t w', exec .cvstep s = .next t ∧ onlyWave s t c.core c.slot w' ∧ waitsAt c.w w' c.frag c.f .cvstep)) ∧
  ∀ (s : State) uid n k i m, s.membership uid = some (n, k, i, m) →
    (n, k) ∈ s.convoys ∧ (i, m) ∈ k.mem ∧ m.uid = uid

/-- R184, R188, R321 to R326: TSPAWN, TDEP and QPUSH, once every earlier access has been performed, write the result
code of Table 4, in the order of its tests; a refusal counts in QERR of the queue and changes nothing else; TSPAWN of a
record that passes appends it, or arms its counter; TDEP lowers its counter, whose successor goes to its queue at 1;
QPUSH of a passing value appends it and QPOP takes the oldest entry, QTAIL and QHEAD rising by one; QPOP of an empty
queue waits, and so does one that a lane acquire comes before; QPOP of no queue of the job's raises ILLEGAL; TDONE signals
once (where a record is due, once it can be written). A TDEP that frees its counter, a QPOP and the record or count of a
TDONE wait while the port that their memory access needs is not clear (R36, R40; `depClear`, `headClear`, `countClear`);
an entry that is appended stands in memory at once where the port is clear. The traps pending on the wave stay, but for a
memory loss that the access to the queue finds (R43, `Ctx.kept`). -/
def Obligations.TaskInstructions : Prop :=
  (∀ d a s c, gate (.tspawn d a) s = .run c → noneAhead c →
    let q := s.gridQueue c.w.ident.grid
    let r := c.get8 a
    let code (k : Nat) : Prop := ∃ t, exec (.tspawn d a) s = .next t ∧
      writesReg (s.setReg (queueReg q 0x28) (s.reg (queueReg q 0x28) + 1)) t c d (BitVec.ofNat 64 k) (c.after 4)
    let mine := s.queueJob q = c.w.ident.job
    let active := s.jobState c.w.ident.job = 1
    let counter := taskWen r = true ∧ (s.sched.deps.get? (taskWaitc r)).isSome = true
    (¬ mine → code 8) ∧ (mine → ¬ active → code 9) ∧
    (mine → active → s.queueData q = true → code 3) ∧
    (mine → active → s.queueData q = false → s.queueOn q = false → code 2) ∧
    (mine → active → s.queueData q = false → s.queueOn q = true →
      (taskMalformed r = true → code 4) ∧
      (taskMalformed r = false → counter → code 5) ∧
      (taskMalformed r = false → ¬ counter → s.queueFull q = true → code 1) ∧
      (taskMalformed r = false → ¬ counter → s.queueFull q = false → ∃ s1 t, exec (.tspawn d a) s = .next t ∧
        writesReg s1 t (c.kept s1) d 0 (c.after 4) ∧
        (taskWen r = true → 0 < taskWinit r →
          s1.sched.deps.get? (taskWaitc r) = some ⟨BitVec.ofNat 32 (taskWinit r), q⟩) ∧
        ((taskWen r = false ∨ taskWinit r = 0) → s1.queueTail q = (s.queueTail q + 1) % 2 ^ 32 ∧
          (s.serves (s.queueSlot q (s.queueTail q)) 0 → s.sound (s.queueSlot q (s.queueTail q)) 64 →
            s.portsClear (queueDie q) (s.queueSlot q (s.queueTail q)) 64 = true →
            storesMem s s1 (s.queueSlot q (s.queueTail q)) (bytesOfWords r)))))) ∧
  (∀ d a s c, gate (.tdep d a) s = .run c → noneAhead c →
    let n := (c.get a).toNat
    (65536 ≤ n → ∃ t, exec (.tdep d a) s = .next t ∧ writesReg s t c d 7 (c.after 4)) ∧
    (n < 65536 → s.sched.deps.get? n = none → ∃ t, exec (.tdep d a) s = .next t ∧ writesReg s t c d 6 (c.after 4)) ∧
    (n < 65536 → ∀ x, s.sched.deps.get? n = some x → 1 < x.count.toNat →
      ∃ s1 t, exec (.tdep d a) s = .next t ∧ writesReg s1 t c d 0 (c.after 4) ∧ sameBytes s s1 ∧
        s1.sched.deps.get? n = some { x with count := x.count - 1 }) ∧
    (n < 65536 → s.depClear n = false → exec (.tdep d a) s = .next s) ∧
    (n < 65536 → ∀ x, s.sched.deps.get? n = some x → x.count.toNat ≤ 1 → s.depClear n = true →
      ∃ s1 t, exec (.tdep d a) s = .next t ∧ writesReg s1 t (c.kept s1) d 0 (c.after 4) ∧
        s1.sched.deps.get? n = none ∧
        (s.queueOn x.q = false ∨ s.queueFull x.q = true → sameBytes s s1 ∧
          s1.reg (queueReg x.q 0x28) = s.reg (queueReg x.q 0x28) + 1) ∧
        (s.queueOn x.q = true → s.queueFull x.q = false → s.serves (s.depSlot n) 0 → s.sound (s.depSlot n) 64 →
          s1.queueTail x.q = (s.queueTail x.q + 1) % 2 ^ 32))) ∧
  (∀ s c g, gate .tdone s = .run c → s.sched.grids.get? c.w.ident.grid = some g →
    (g.signaled = true → ∃ t, exec .tdone s = .next t ∧ goesOn s t c (c.after 4)) ∧
    (g.signaled = false → noneAhead c → s.countClear g.task = true →
      (taskRen g.task = true → (s.signal c.w.ident.grid g (s.doneStatus g)).1 = true) →
        ∃ t w', exec .tdone s = .next t ∧
      (t.sched.grids.get? c.w.ident.grid).map (·.signaled) = some true ∧ t.wave? c.core c.slot = some w' ∧
      w'.frags.get? c.frag = some { c.f with spc := c.after 4, wait := .run } ∧ w'.scl = c.w.scl)) ∧
  (∀ d a b s c, gate (.qpush d a b) s = .run c → noneAhead c →
    let q := (c.get a).toNat
    let code (k : Nat) : Prop := ∃ t, exec (.qpush d a b) s = .next t ∧
      writesReg (s.setReg (queueReg q 0x28) (s.reg (queueReg q 0x28) + 1)) t c d (BitVec.ofNat 64 k) (c.after 4)
    let mine := s.queueJob q = c.w.ident.job
    let active := s.jobState c.w.ident.job = 1
    (64 ≤ q → ∃ t, exec (.qpush d a b) s = .next t ∧ writesReg s t c d 7 (c.after 4)) ∧
    (q < 64 → ¬ mine → code 8) ∧ (q < 64 → mine → ¬ active → code 9) ∧
    (q < 64 → mine → active → s.queueData q = false → code 3) ∧
    (q < 64 → mine → active → s.queueData q = true → s.queueOn q = false → code 2) ∧
    (q < 64 → mine → active → s.queueData q = true → s.queueOn q = true →
      (s.queueFull q = true → code 1) ∧
      (s.queueFull q = false → ∃ s1 t, exec (.qpush d a b) s = .next t ∧
        writesReg s1 t (c.kept s1) d 0 (c.after 4) ∧
        s1.queueTail q = (s.queueTail q + 1) % 2 ^ 32 ∧ s1.queueHead q = s.queueHead q ∧
        (s.serves (s.queueSlot q (s.queueTail q)) 0 → s.sound (s.queueSlot q (s.queueTail q)) 8 →
          s.portsClear (queueDie q) (s.queueSlot q (s.queueTail q)) 8 = true →
          storesMem s s1 (s.queueSlot q (s.queueTail q)) (bytesOfWord (c.get b)))))) ∧
  (∀ d a s c, gate (.qpop d a) s = .run c → c.w.spec = [] →
    let q := (c.get a).toNat
    (64 ≤ q ∨ s.queueJob q ≠ c.w.ident.job ∨ s.queueData q = false →
      exec (.qpop d a) s = .next (s.trapAt c { cause := 0x01, tval := instrTval (.qpop d a) })) ∧
    (q < 64 → s.queueJob q = c.w.ident.job → s.queueData q = true → c.w.acquiring c.frag = true →
      exec (.qpop d a) s = .next s) ∧
    (q < 64 → s.queueJob q = c.w.ident.job → s.queueData q = true → c.w.acquiring c.frag = false →
      s.queueOn q = true → 0 < s.queueCount q → s.sched.qwait = [] → s.headClear q = true → inNoConvoy s c.uid →
      ∃ s1 t v, exec (.qpop d a) s = .next t ∧ writesReg s1 t (c.kept s1) d v (c.after 4) ∧
        s1.queueHead q = (s.queueHead q + 1) % 2 ^ 32 ∧ s1.queueTail q = s.queueTail q ∧ sameBytes s s1 ∧
        (s.serves (s.queueSlot q (s.queueHead q)) 0 → s.sound (s.queueSlot q (s.queueHead q)) 8 →
          v = s.mem.word (s.queueSlot q (s.queueHead q)))) ∧
    (q < 64 → s.queueJob q = c.w.ident.job → s.queueData q = true → c.w.acquiring c.frag = false →
      (s.queueOn q = false ∨ s.queueCount q = 0) → ∃ t w', exec (.qpop d a) s = .next t ∧ sameBytes s t ∧
        t.wave? c.core c.slot = some w' ∧ waitsAt c.w w' c.frag c.f (.queue q d) ∧ (q, c.uid, c.frag) ∈ t.sched.qwait))

/-- R293 to R300, R385: SLDS and SSTS on the wave's own scratch, SATOM on scratch and on the global window. -/
def Obligations.ScalarScratchAndAtomics : Prop :=
  Says.ScratchAccess ∧ Says.ScalarAtomic
/-- R107, R108, R109, R110, R113, R318: a copy instruction whose checks pass and for which a copy slot is free starts
its operation: it takes the next number, keeps its descriptor, kind and d, counts in CP and in its kind's counter, locks
its ranges, and the thread goes on. No byte moves yet. With 256 slots in use it waits, marked with its fragment so that each
clock counts in CESTALL; a descriptor that breaks Table 1, or a box that breaks R103 to R105, traps with COPYFORMAT and the
register's number, a range that breaks steps 3 to 6 of R107 with the cause and address of that step. It waits for the lane
acquires that come before it (R380). -/
def Says.CopyInstructions : Prop :=
  let handleOf (x : List Word) : Option Word :=
    if ctlSrck x = 1 then some (wordAt x 1) else if ctlDstk x = 1 then some (wordAt x 2) else none
  let copies (i : Instr) (e : EngInstr) (d a : BitVec 8) : Prop := ∀ s c, gate i s = .run c → c.w.spec = [] →
    let x := c.get8 a
    (c.w.acquiring c.frag = true → exec i s = .next s) ∧ (c.w.acquiring c.frag = false →
    (∀ k, badRegister e x = some k → exec i s = .next (s.trapAt c { cause := 0x40, tval := BitVec.ofNat 64 k })) ∧
    (∀ r s1, badRegister e x = none →
      (handleOf x = none ∧ r = [] ∧ s1 = s ∨ ∃ h, handleOf x = some h ∧ s.handle c h = (.ok r, s1)) →
      (∀ k, badBox e x r = some k → exec i s = .next (s1.trapAt c { cause := 0x40, tval := BitVec.ofNat 64 k })) ∧
      (badBox e x r = none → ∀ tr, s1.engTrap c.w e x r = some tr → exec i s = .next (s1.trapAt c tr)) ∧
      (badBox e x r = none → s1.engTrap c.w e x r = none →
      (s1.slotsUsed c.core < 256 → s1.cpCount c.uid < 63 → ∃ t, exec i s = .next t ∧ sameBytes s t ∧
        startsOp s1 t c (engKind e x) d x r ∧
        (t.core c.core).locks = (s1.core c.core).locks ++
          (lockRanges e x r).map (fun o => o.lock s1.net.nextId c.w.ident.grid c.w.ident.gang e x)) ∧
      (256 ≤ s1.slotsUsed c.core →
        exec i s = .next (c.put s1 { c.w with sched := { c.w.sched with
          noSlot := addSlots c.w.sched.noSlot [c.frag] } })))))
  (∀ d a, copies (.cpy d a) .cpy d a) ∧ (∀ d a, copies (.cpym d a) .cpym d a) ∧
    (∀ d a, copies (.cpyr d a) .cpyr d a) ∧ ∀ d a, copies (.cpyx d a) .cpyx d a

/-- R96, R97, R107: the plain copy, of LEN bytes from the global window to the global window, with no barrier and no
status word, passes every check where LEN is 1 to 2^32, words 4 and 5 are 0 and no range is locked. -/
def Says.LinearCopyStarts : Prop :=
  ∀ d a s c, gate (.cpy d a) s = .run c →
    let x := c.get8 a
    let src := (wordAt x 1).toNat
    let dst := (wordAt x 2).toNat
    let n := (wordAt x 3).toNat
    c.w.acquiring c.frag = false → wordAt x 0 = 0 → 1 ≤ n → n ≤ 2 ^ 32 → wordAt x 4 = 0 → wordAt x 5 = 0 → src + n ≤ 2 ^ 56 → dst + n ≤ 2 ^ 56 →
    s.gangLocks c.w.ident.grid c.w.ident.gang = [] → s.slotsUsed c.core < 256 → s.cpCount c.uid < 63 →
    ∃ t op, exec (.cpy d a) s = .next t ∧ startsOp s t c .linear d x [] ∧
      t.engines.get? s.net.nextId = some op ∧ op.total = n

/-- R87 to R89, R319, R320: NLSEND with a neighbour, 1 to 256 lines inside the gang's scratch and a free place in the
port's queue starts a send at the end of that queue; NLRECV arms its port, or with a length of 0 disarms it, and returns
the count of the arm it replaces. Without a neighbour they trap with NLEDGE, whose TVAL no rule states (a free value).
Both wait for the lane acquires that come before them (R380). -/
def Says.NeighbourInstructions : Prop :=
  (∀ d2 d a b s c len, gate (.nlsend d2 d a b) s = .run c →
    let off := c.get a
    let n := (c.get b).toNat
    c.w.acquiring c.frag = false → (neighbourOf c.cluster d2.toNat).isSome = true → 1 ≤ n → n ≤ 256 → off.toNat < 2 ^ 24 →
    s.gangLen c.w.ident.grid c.w.ident.gang = some len → off.toNat + 128 * n ≤ len → off.toNat % 128 = 0 →
    s.gangLocks c.w.ident.grid c.w.ident.gang = [] → (s.outQueue c.cluster d2.toNat).length < 32 →
    s.slotsUsed c.core < 256 → s.cpCount c.uid < 63 →
    ∃ t, exec (.nlsend d2 d a b) s = .next t ∧ sameBytes s t ∧
      startsOp s t c .nlsend d [0, off, 0, BitVec.ofNat 64 (128 * n)] [] ∧
      t.outQueue c.cluster d2.toNat = s.outQueue c.cluster d2.toNat ++ [s.net.nextId]) ∧
  (∀ d2 d a b s c, gate (.nlrecv d2 d a b) s = .run c →
    let base := (c.get a).toNat
    let n := (c.get b).toNat
    let k := s.cluster c.cluster
    let arm := k.arms.get? d2.toNat
    c.w.acquiring c.frag = false → (neighbourOf c.cluster d2.toNat).isSome = true →
    (∀ m, arm = some m → m.grid = c.w.ident.grid ∧ m.gang = c.w.ident.gang) →
    (n = 0 ∨ n ≤ 65536 ∧ base < 2 ^ 24 ∧ base % 128 = 0 ∧
      ∃ len, s.gangLen c.w.ident.grid c.w.ident.gang = some len ∧ base + 128 * n ≤ len) →
    ∃ s1 t, exec (.nlrecv d2 d a b) s = .next t ∧ sameBytes s s1 ∧
      writesReg s1 t c d (BitVec.ofNat 64 ((arm.map (·.cur)).getD 0)) (c.after 4) ∧
      s1 = s.setCluster c.cluster (s1.cluster c.cluster) ∧
      s1.cluster c.cluster = { k with arms := (s1.cluster c.cluster).arms } ∧
      (s1.cluster c.cluster).arms.get? d2.toNat =
        (if n = 0 then none else some ⟨c.w.ident.grid, c.w.ident.gang, base, n, 0⟩) ∧
      ∀ z, z ≠ d2.toNat → (s1.cluster c.cluster).arms.get? z = k.arms.get? z) ∧
  (∀ d2 d a b s c, c.w.acquiring c.frag = true →
    (gate (.nlsend d2 d a b) s = .run c → exec (.nlsend d2 d a b) s = .next s) ∧
    (gate (.nlrecv d2 d a b) s = .run c → exec (.nlrecv d2 d a b) s = .next s)) ∧
  ∀ d2 d a b s c, c.w.spec = [] → c.w.acquiring c.frag = false → (neighbourOf c.cluster d2.toNat).isSome = false →
    (gate (.nlsend d2 d a b) s = .run c →
      exec (.nlsend d2 d a b) s = .next (s.draw.2.trapAt c { cause := 0x34, tval := s.draw.1 })) ∧
    (gate (.nlrecv d2 d a b) s = .run c →
      exec (.nlrecv d2 d a b) s = .next (s.draw.2.trapAt c { cause := 0x34, tval := s.draw.1 }))

/-- R223, R335: SETFMT gives the executing fragment a new FMT, and changes nothing else; a value with AFMT or BFMT above
5, SMODE above 1, a nonzero reserved bit or a bit above 15 traps with ILLEGAL. -/
def Says.SetFormat : Prop :=
  let good (v : Word) : Prop := v.toNat < 65536 ∧ v.extractLsb' 3 4 = 0 ∧ (v.extractLsb' 13 3).toNat ≤ 5 ∧
    (v.extractLsb' 10 3).toNat ≤ 5 ∧ (v.extractLsb' 8 2).toNat ≤ 1
  let sets (i : Instr) (val : Ctx → Word) : Prop := ∀ s c, gate i s = .run c → c.w.spec = [] →
    let v := val c
    (good v → ∃ t w', exec i s = .next t ∧ onlyWave s t c.core c.slot w' ∧ w' = { c.w with frags := w'.frags } ∧
      w'.frags.get? c.frag = some { c.f with fmt := v.setWidth 16, spc := c.after 4, wait := .run } ∧
      ∀ k, k ≠ c.frag → w'.frags.get? k = c.w.frags.get? k) ∧
    (¬ good v → exec i s = .next (s.trapAt c { cause := 0x01, tval := instrTval i }))
  (∀ a, sets (.setfmtReg a) (fun c => c.get a)) ∧ ∀ imm, sets (.setfmtImm imm) (fun _ => imm.setWidth 64)

/-- R336, R339, R344: MMA whose checks pass enters the tile queue at its end, in no batch yet, with its words, FMT and
records, and the thread goes on; while a fault is held it is discarded and counted, up to 63. A specification that breaks
R339 step 1 traps with MMAFORMAT and word 0. -/
def Obligations.MatrixMultiply : Prop :=
  ∀ a s c, gate (.mma a) s = .run c → c.w.spec = [] →
    let x := c.get8 a
    let f := c.f.fmt
    (badMma x f c.w.vcount = true → exec (.mma a) s = .next (s.trapAt c { cause := 0x80, tval := wordAt x 0 })) ∧
    ∀ rs s1, badMma x f c.w.vcount = false → s.mmaRecords c x (mmaHandles x f) = (.ok rs, s1) →
      badOperandRecord x f rs false = false → badOperandRecord x f rs true = false → mmaWindow x f = none →
      s1.mmaTrap c.w x f rs = none → c.w.mat.ops.length < 16 →
      ∃ t w', exec (.mma a) s = .next t ∧ onlyWave s1 t c.core c.slot w' ∧ sameBytes s t ∧
        fragAt c.w w' c.frag c.f (c.after 4) ∧ w' = { c.w with frags := w'.frags, mat := w'.mat } ∧
        (c.w.mat.fv = false → ∃ op, w'.mat = { c.w.mat with ops := c.w.mat.ops ++ [op] } ∧ op.spec = x ∧ op.recs = rs ∧
          op.fmt = f ∧ op.cbase = mCbase x ∧ op.regs = mRegs x ∧ op.batch = none) ∧
        (c.w.mat.fv = true →
          w'.mat = { c.w.mat with ndisc := if c.w.mat.ndisc.toNat < 63 then c.w.mat.ndisc + 1 else 63 })

/-- R342, R343: MFENCE puts every open operation into batch NEXT, returns that number and raises NEXT by one; MWAIT of a
batch that is not among the last 2^15 traps with ILLEGAL, waits while an operation of the batch or an earlier one is
queued, takes a held fault of such a batch, and else goes on. -/
def Says.MatrixBatches : Prop :=
  let upTo (x y : BitVec 16) : Prop := (y - x).toNat < 2 ^ 15
  (∀ d s c, gate (.mfence d) s = .run c → ∃ t w', exec (.mfence d) s = .next t ∧ onlyWave s t c.core c.slot w' ∧
    w'.mat = { c.w.mat with next := c.w.mat.next + 1, ops := c.w.mat.ops.map (fun o =>
      if o.batch = none then { o with batch := some c.w.mat.next } else o) } ∧
    scalarWrite { c.w with mat := w'.mat } w' c.frag c.f d (c.w.mat.next.setWidth 64) (c.after 4)) ∧
  ∀ a s c, gate (.mwait a) s = .run c → c.w.spec = [] →
    let b : BitVec 16 := (c.get a).setWidth 16
    let waits : Prop := ∃ o, o ∈ c.w.mat.ops ∧ ∃ k, o.batch = some k ∧ upTo k b
    (¬ upTo b (c.w.mat.next - 1) →
      exec (.mwait a) s = .next (s.trapAt c { cause := 0x01, tval := instrTval (.mwait a) })) ∧
    (upTo b (c.w.mat.next - 1) → waits → exec (.mwait a) s = .next s) ∧
    (upTo b (c.w.mat.next - 1) → ¬ waits → (c.w.mat.fv = false ∨ ¬ upTo c.w.mat.faultb b) →
      ∃ t, exec (.mwait a) s = .next t ∧ goesOn s t c (c.after 4)) ∧
    (upTo b (c.w.mat.next - 1) → ¬ waits → c.w.mat.fv = true → upTo c.w.mat.faultb b →
      exec (.mwait a) s = .next (s.trapAt { c with w := { c.w with mat := { c.w.mat with fv := false } } }
        { cause := if c.w.mat.fk then 0x82 else 0x81, tval := c.w.mat.faultb.setWidth 64,
          h2 := BitVec.ofNat 64 (c.w.mat.ndisc.toNat * 2 ^ 24 + c.w.mat.forig.toNat * 2 ^ 16 + c.w.mat.seq.toNat) }))

/-- R87 to R89, R96, R97, R107 to R110, R113, R318 to R320: the copy instructions start, wait or trap; a plain linear copy
passes the checks; NLSEND and NLRECV. TVAL of NLEDGE is a free value (no rule states it). -/
def Obligations.CopyAndNeighbourInstructions : Prop :=
  Says.CopyInstructions ∧ Says.LinearCopyStarts ∧ Says.NeighbourInstructions

/-- R223, R335, R342, R343: SETFMT in its two forms, MFENCE and MWAIT. -/
def Obligations.FormatAndMatrixBatches : Prop :=
  Says.SetFormat ∧ Says.MatrixBatches
/-- R160 to R162: the head leaves the lane queue, LPC names it, and of a block that streams in the next instruction
enters behind the rest; with the last of them the ISSUE completes and its fragment goes on. Nothing else of the wave
changes. -/
def Says.LaneQueueHead : Prop :=
  ∀ (w : Wave) (i : LaneItem) (q : List LaneItem), w.lane.queue = i :: q →
    w.popLane = { w with lane := w.popLane.lane, frags := w.popLane.frags } ∧ w.popLane.lane.lpc = i.lpc ∧
    (w.lane.rest = [] → w.popLane.lane.queue = q ∧ w.popLane.frags = w.frags) ∧
    ∀ n r, w.lane.rest = n :: r → w.popLane.lane.queue = q ++ [n] ∧ w.popLane.lane.rest = r ∧
      (r ≠ [] → w.popLane.frags = w.frags) ∧
      (r = [] → ∀ f, w.frags.get? n.frag = some f →
        w.popLane.frags.get? n.frag = some { f with spc := f.spc + 4, wait := .run })

/-- R249, R251, R348 and Tables 9 and 10: the source fields. A vector register gives its lane, the pair for a 64-bit
type; a slot and a constant are the same for every lane, in both halves for a 16-bit type; integer constants are 0 to 63
and −1 to −16, exact under F-class types; 344 to 351 are FP constants. An immediate is IMM, sign-extended for a 64-bit
type. -/
def Says.LaneOperands : Prop :=
  (∀ ty : BitVec 5, (is64 ty = true ↔ ty = 0x04 ∨ ty = 0x08) ∧ (is16 ty = true ↔ ty = 0x02 ∨ ty = 0x06 ∨ ty = 0x0A ∨
    ty = 0x0B) ∧
    (typSigned ty = true ↔ ty = 0x01 ∨ ty = 0x02 ∨ ty = 0x03 ∨ ty = 0x04) ∧
    (isFloatTyp ty = true ↔ ty = 0x09 ∨ ty = 0x0A ∨ ty = 0x0B)) ∧
  ∀ (c : LCtx) (f : BitVec 9) (ty : BitVec 5) (l k : Nat), k < elemCount ty →
    let x := elemOf ty k (c.opnd f ty l)
    (f.toNat < 256 → is64 ty = true → c.opnd f ty l = c.w.lane32 (f.toNat + 1) l ++ c.w.lane32 f.toNat l) ∧
    (f.toNat < 256 → is64 ty = false → c.opnd f ty l = (c.w.lane32 f.toNat l).setWidth 64) ∧
    (256 ≤ f.toNat → f.toNat < 264 → x = ((c.it.slots[f.toNat - 256]?).getD 0).setWidth (elemBits ty)) ∧
    (264 ≤ f.toNat → f.toNat < 328 → isFloatTyp ty = false → x = BitVec.ofNat (elemBits ty) (f.toNat - 264)) ∧
    (328 ≤ f.toNat → f.toNat < 344 → isFloatTyp ty = false → x = BitVec.ofInt (elemBits ty) (327 - Int.ofNat f.toNat)) ∧
    (264 ≤ f.toNat → f.toNat < 328 → isFloatTyp ty = true →
      x = BitVec.ofNat (elemBits ty) (fround (fmtOfTyp ty) 0 false (.fin false (f.toNat - 264) 0))) ∧
    (ty = 0x09 → (f = 344 → x.toNat = 0x3F000000) ∧ (f = 345 → x.toNat = 0x3F800000) ∧ (f = 347 → x.toNat = 0x40800000) ∧
      (f = 348 → x.toNat = 0xBF000000) ∧ (f = 351 → x.toNat = 0xC0800000) ∧ (f = 328 → x.toNat = 0xBF800000)) ∧
    (ty = 0x0A → (f = 344 → x.toNat = 0x3800) ∧ (f = 351 → x.toNat = 0xC400)) ∧
    (ty = 0x0B → (f = 344 → x.toNat = 0x3F00) ∧ (f = 351 → x.toNat = 0xC080))

/-- R347, R348, R359: the integer lane operations, in the register and the immediate form, element by element. -/
def Says.LaneArithmetic : Prop :=
  let num (ty : BitVec 5) {n : Nat} (x : BitVec n) : Int := if typSigned ty then x.toInt else Int.ofNat x.toNat
  let clamp (ty : BitVec 5) (n : Nat) (x : Int) : BitVec n :=
    if typSigned ty then BitVec.ofInt n (max (-2 ^ (n - 1)) (min x (2 ^ (n - 1) - 1))) else BitVec.ofInt n (max 0 (min x (2 ^ n - 1)))
  binary .vadd .vaddLi (fun _ _ _ a b => a + b) ∧
  binary .vsub .vsubLi (fun _ _ _ a b => a - b) ∧
  binary .vmul .vmulLi (fun _ _ _ a b => a * b) ∧
  binary .vmulh .vmulhLi (fun _ ty n a b => BitVec.ofInt n (num ty a * num ty b / 2 ^ n)) ∧
  ternary .vmad .vmadLi (fun _ _ _ a b d => a * b + d) ∧
  binary .vmin .vminLi (fun _ ty _ a b => if num ty a ≤ num ty b then a else b) ∧
  binary .vmax .vmaxLi (fun _ ty _ a b => if num ty a ≤ num ty b then b else a) ∧
  unary .vabs (fun _ _ _ a => if a.toInt < 0 then -a else a) ∧
  binary .vand .vandLi (fun _ _ _ a b => a &&& b) ∧
  binary .vor .vorLi (fun _ _ _ a b => a ||| b) ∧
  binary .vxor .vxorLi (fun _ _ _ a b => a ^^^ b) ∧
  binary .vshl .vshlLi (fun _ _ n a b => a <<< (b.toNat % n)) ∧
  binary .vshr .vshrLi (fun _ _ n a b => a >>> (b.toNat % n)) ∧
  binary .vsar .vsarLi (fun _ _ n a b => a.sshiftRight (b.toNat % n)) ∧
  unary .vpopc (fun _ _ n a => BitVec.ofNat n ((List.range n).countP (fun k => a.getLsbD k))) ∧
  unary .vclz (fun _ _ n a => BitVec.ofNat n ((List.range n).countP (fun k => decide (a.toNat < 2 ^ k)))) ∧
  binary .vsadd .vsaddLi (fun _ ty n a b => clamp ty n (num ty a + num ty b)) ∧
  binary .vssub .vssubLi (fun _ ty n a b => clamp ty n (num ty a - num ty b))

/-- R360: VBFX takes the field of a that b and c describe, VBFI puts the field b into the base a where c says; width 0
gives 0 and a. -/
def Says.LaneBitFields : Prop :=
  let ones (n : Nat) : Word32 := BitVec.ofNat 32 (2 ^ n - 1)
  let ext (a b c : Word32) : Word32 :=
    let wid := min (c.extractLsb' 0 6).toNat 32
    let x := (a >>> (b.extractLsb' 0 5).toNat) &&& ones wid
    if c.getLsbD 8 = true ∧ 0 < wid then (x.setWidth wid).signExtend 32 else x
  let ins (a b c : Word32) : Word32 :=
    let pos := (c.extractLsb' 0 5).toNat
    let m := ones (min (c.extractLsb' 8 6).toNat 32) <<< pos
    (a &&& ~~~m) ||| ((b <<< pos) &&& m)
  let does (i : LaneWord → Instr) (d : LaneOpnd) (g : Word32 → Word32 → Word32 → Word32) : Prop :=
    perLane i (fun c w l => (g ((opA c w l).setWidth 32) ((opB c w l).setWidth 32) ((d c w l).setWidth 32)).setWidth 64)
  does .vbfx opC ext ∧ does .vbfxLi (fun _ w _ => w.imm.setWidth 64) ext ∧
  does .vbfi opC ins ∧ does .vbfiLi (fun _ w _ => w.imm.setWidth 64) ins

/-- R226, R227, R352 to R354, R357, R358: the floating-point lane operations compute on the values of their elements and
round once under RM and FTZ of the issue record; VFMIN and VFMAX take −0 as less than +0; VFCLASS sets one class bit of
the bit pattern. -/
def Obligations.LaneFloatingPoint : Prop :=
  let val (c : LCtx) (ty : BitVec 5) {n : Nat} (x : BitVec n) : FVal := fread (fmtOfTyp ty) (c.it.fmt.getLsbD 2) x.toNat
  let out (c : LCtx) (ty : BitVec 5) (n : Nat) (v : FVal) : BitVec n :=
    BitVec.ofNat n (fround (fmtOfTyp ty) (c.it.fmt.extractLsb' 0 2) (c.it.fmt.getLsbD 2) v)
  let bin (i imm : LaneWord → Instr) (g : RM → FVal → FVal → FVal) : Prop :=
    binary i imm (fun c ty n a b => out c ty n (g (c.it.fmt.extractLsb' 0 2) (val c ty a) (val c ty b)))
  let un (i : LaneWord → Instr) (g : RM → FVal → FVal) : Prop :=
    unary i (fun c ty n a => out c ty n (g (c.it.fmt.extractLsb' 0 2) (val c ty a)))
  let least (x y : FVal) : FVal :=
    if x.isNaN || y.isNaN then .nan else if x.lt y then x else if y.lt x then y
    else match x with | .fin false _ _ => y | _ => x
  let most (x y : FVal) : FVal :=
    if x.isNaN || y.isNaN then .nan else if x.lt y then y else if y.lt x then x
    else match x with | .fin true _ _ => y | _ => x
  bin .vfadd .vfaddLi (fun rm x y => FVal.add rm x y) ∧
  bin .vfsub .vfsubLi (fun rm x y => FVal.add rm x y.neg) ∧
  bin .vfmul .vfmulLi (fun _ x y => FVal.mul x y) ∧
  ternary .vffma .vffmaLi (fun c ty n a b d =>
    out c ty n (FVal.add (c.it.fmt.extractLsb' 0 2) (FVal.mul (val c ty a) (val c ty b)) (val c ty d))) ∧
  bin .vfmin .vfminLi (fun _ => least) ∧ bin .vfmax .vfmaxLi (fun _ => most) ∧
  bin .vfdiv .vfdivLi (fun _ x y => FVal.div x y) ∧
  un .vfrcp (fun _ x => FVal.div (.fin false 1 0) x) ∧ un .vfrsq (fun _ x => x.rsqrt) ∧ un .vfsqrt (fun _ x => x.sqrt) ∧
  un .vfrnd (fun rm x => x.round rm) ∧
  unary .vfclass (fun _ ty n a =>
    let f := fmtOfTyp ty
    let x := a.toNat
    let m := x % f.signBit
    BitVec.ofNat n (2 ^
      (if f.nanBits ≤ m then 9 else if f.infBits < m then 8
       else
         let k := if m = f.infBits then 0 else if 2 ^ f.fbits ≤ m then 1 else if 0 < m then 2 else 3
         if x / f.signBit % 2 = 1 then k else 7 - k)))

/-- R354 and Table 3: the special cases of division and roots; the quotient and the root of finite numbers lie within
the last place that their values carry, which is odd where they are not exact. -/
def Says.DivisionAndRoots : Prop :=
  (∀ a m e b n g, n ≠ 0 → ∃ q k, FVal.div (.fin a m e) (.fin b n g) = .fin (a != b) q (e - g - Int.ofNat k - 1) ∧
    (m ≠ 0 → 2 ^ 63 ≤ q) ∧ (q / 2) * n ≤ m * 2 ^ k ∧ m * 2 ^ k < (q / 2 + 1) * n ∧
      (q % 2 = 0 ↔ (q / 2) * n = m * 2 ^ k)) ∧
  (∀ a b m e, m ≠ 0 → FVal.div (.fin a m e) (.fin b 0 0) = .inf (a != b)) ∧
  (∀ a b, FVal.div (.fin a 0 0) (.fin b 0 0) = .nan ∧ FVal.div (.inf a) (.inf b) = .nan) ∧
  (∀ a b m e, FVal.div (.inf a) (.fin b m e) = .inf (a != b) ∧ ∃ h, FVal.div (.fin a m e) (.inf b) = .fin (a != b) 0 h) ∧
  (∀ m e, m ≠ 0 → ∃ r k : Nat, FVal.sqrt (.fin false m e) = .fin false r ((e - Int.ofNat k) / 2 - 1) ∧
    (e - Int.ofNat k) % 2 = 0 ∧ 64 ≤ k ∧ (r / 2) ^ 2 ≤ m * 2 ^ k ∧ m * 2 ^ k < (r / 2 + 1) ^ 2 ∧
    (r % 2 = 0 ↔ (r / 2) ^ 2 = m * 2 ^ k)) ∧
  (∀ m e, m ≠ 0 → ∃ r k n : Nat, ∃ h : Int, FVal.rsqrt (.fin false m e) = .fin false r (-Int.ofNat k - h / 2 - 1) ∧
    (e % 2 = 0 ∧ n = m ∧ h = e ∨ e % 2 ≠ 0 ∧ n = 2 * m ∧ h = e - 1) ∧ 2 ^ 31 ≤ r ∧ (r / 2) ^ 2 * n ≤ 2 ^ (2 * k) ∧
    2 ^ (2 * k) < (r / 2 + 1) ^ 2 * n ∧ (r % 2 = 0 ↔ (r / 2) ^ 2 * n = 2 ^ (2 * k))) ∧
  (∀ a e, FVal.sqrt (.fin a 0 e) = .fin a 0 0 ∧ FVal.rsqrt (.fin a 0 e) = .inf a) ∧
  (∀ m e, m ≠ 0 → FVal.sqrt (.fin true m e) = .nan ∧ FVal.rsqrt (.fin true m e) = .nan) ∧
  FVal.sqrt (.inf false) = .inf false ∧ FVal.sqrt (.inf true) = .nan ∧ FVal.rsqrt (.inf true) = .nan ∧
  FVal.rsqrt (.inf false) = .fin false 0 0

/-- R355 and Table 4: on every operand for which Table 4 gives an exact value VFEXP2, VFLOG2, VFSIN and VFCOS give it,
whatever RM is; FTZ reads a subnormal operand as a zero and delivers a subnormal result as one. Of an angle beyond 2^16 the
sine and the cosine lie from -1 to 1. Of other operands the result alone is left open here. -/
def Obligations.SpecialFunctions : Prop :=
  let gives (i : LaneWord → Instr) (ok : LCtx → Word32 → Word32 → Prop) : Prop := ∀ w s c, laneGate (i w) s = .run c →
    ∃ t v, exec (i w) s = .next t ∧ writesLanes s t c w.typ w.dst.toNat c.mask v ∧
      ∀ l, l < 128 → ok c ((opA c w l).setWidth 32) ((v l).setWidth 32)
  let nan (x : Word32) : Prop := fdecode f32 x.toNat = .nan
  let int (n : Int) : Word32 := BitVec.ofNat 32 (fround f32 0 false (.fin (decide (n < 0)) n.natAbs 0))
  let pow (n : Int) : Word32 := BitVec.ofNat 32 (fround f32 0 false (.fin false 1 n))
  gives .vfexp2 (fun c x y => (nan x → y = 0x7FC00000) ∧ (x = 0x7F800000 → y = 0x7F800000) ∧ (x = 0xFF800000 → y = 0) ∧
    (x = 0 ∨ x = 0x80000000 → y = 0x3F800000) ∧
    (0x43000000 ≤ x.toNat → x.toNat ≤ 0x7F800000 → y = 0x7F800000) ∧
    (0xC3160000 ≤ x.toNat → x.toNat ≤ 0xFF800000 → y = 0) ∧
    (∀ n : Int, -126 ≤ n → n ≤ 127 → n ≠ 0 → x = int n → y = pow n) ∧
    (∀ n : Int, -149 ≤ n → n < -126 → x = int n → y = if c.it.fmt.getLsbD 2 then 0 else pow n)) ∧
  gives .vflog2 (fun c x y => (nan x → y = 0x7FC00000) ∧ (x = 0 ∨ x = 0x80000000 → y = 0xFF800000) ∧
    (x = 0x7F800000 → y = 0x7F800000) ∧ (0x80800000 ≤ x.toNat → x.toNat ≤ 0xFF800000 → y = 0x7FC00000) ∧
    (0x80000000 < x.toNat → x.toNat < 0x80800000 → y = if c.it.fmt.getLsbD 2 then 0xFF800000 else 0x7FC00000) ∧
    (∀ n : Int, -126 ≤ n → n ≤ 127 → x = pow n → y = int n) ∧
    (∀ n : Int, -149 ≤ n → n < -126 → x = pow n → y = if c.it.fmt.getLsbD 2 then 0xFF800000 else int n)) ∧
  let far (x : Word32) : Prop := 0x47800000 < x.toNat % 2 ^ 31 ∧ x.toNat % 2 ^ 31 < 0x7F800000
  gives .vfsin (fun c x y => (nan x ∨ x = 0x7F800000 ∨ x = 0xFF800000 → y = 0x7FC00000) ∧ (x = 0 → y = 0) ∧
    (x = 0x80000000 → y = 0x80000000) ∧
    (c.it.fmt.getLsbD 2 = true → x.toNat % 2 ^ 31 < 2 ^ 23 → y = x &&& 0x80000000) ∧
    (far x → y.toNat % 2 ^ 31 ≤ 0x3F800000)) ∧
  gives .vfcos (fun c x y => (nan x ∨ x = 0x7F800000 ∨ x = 0xFF800000 → y = 0x7FC00000) ∧
    (x = 0 ∨ x = 0x80000000 → y = 0x3F800000) ∧
    (c.it.fmt.getLsbD 2 = true → x.toNat % 2 ^ 31 < 2 ^ 23 → y = 0x3F800000) ∧
    (far x → y.toNat % 2 ^ 31 ≤ 0x3F800000))

/-- R347, R356, R361, R363: the comparisons and the predicate operations write the active lanes of a predicate that is
not p0. A 16-bit type compares its low elements. -/
def Obligations.PredicateOperations : Prop :=
  let fcmp (b : LaneOpnd) (c : LCtx) (w : LaneWord) (l : Nat) : Bool :=
    let val (x : Word) : FVal :=
      fread (fmtOfTyp w.typ) (c.it.fmt.getLsbD 2) (if is16 w.typ then x.toNat % 2 ^ 16 else x.toNat % 2 ^ 32)
    let x := val (opA c w l)
    let y := val (b c w l)
    let un := x.isNaN || y.isNaN
    match w.mod.toNat with
    | 0 => !un && !x.lt y && !y.lt x
    | 1 => un || x.lt y || y.lt x
    | 2 => !un && x.lt y
    | 3 => !un && !y.lt x
    | 4 => !un && y.lt x
    | 5 => !un && !x.lt y
    | 6 => un
    | _ => !un
  let icmp (b : LaneOpnd) (c : LCtx) (w : LaneWord) (l : Nat) : Bool :=
    let num (x : Word) : Int :=
      let e := elemOf w.typ 0 x
      if typSigned w.typ then e.toInt else Int.ofNat e.toNat
    let x := num (opA c w l)
    let y := num (b c w l)
    match w.mod.toNat with
    | 0 => decide (x = y)
    | 1 => decide (x ≠ y)
    | 2 => decide (x < y)
    | 3 => decide (x ≤ y)
    | 4 => decide (y < x)
    | _ => decide (y ≤ x)
  let p (c : LCtx) (f : BitVec 9) (l : Nat) : Bool := c.w.pget f.toNat l
  perPred .vfcmp (fcmp opB) ∧ perPred .vfcmpLi (fcmp opImm) ∧ perPred .vcmp (icmp opB) ∧ perPred .vcmpLi (icmp opImm) ∧
  perPred .pset (fun c w l => decide ((opA c w l).setWidth 32 ≠ (0 : Word32))) ∧
  perPred .pand (fun c w l => p c w.sa l && p c w.sb l) ∧ perPred .por (fun c w l => p c w.sa l || p c w.sb l) ∧
  perPred .pxor (fun c w l => p c w.sa l ^^ p c w.sb l) ∧ perPred .pnot (fun c w l => !p c w.sa l)

/-- R362, R364, R369 to R371, R373: selection by the guard, the half of a predicate within the execution mask, lane
movement within segments, a lane read to a scalar and written from one, ranks among active lanes, and moves. -/
def Says.SelectAndMove : Prop :=
  let holds (c : LCtx) (w : LaneWord) (l : Nat) : Bool := c.w.pget w.pred.toNat l != (w.neg == 1)
  let seg (w : LaneWord) : Nat := 128 >>> w.seg.toNat
  let uni (c : LCtx) (w : LaneWord) : Nat := ((c.opnd w.sb 0x00 0).setWidth 32).toNat
  let from_ (src : LCtx → LaneWord → Nat → Nat) : LaneOpnd := fun c w l => opA c w (src c w l)
  let sends (i : LaneWord → Instr) (v : LCtx → LaneWord → Word) : Prop := ∀ w s c, laneGate (i w) s = .run c →
    ∃ t, exec (i w) s = .next t ∧ writesSent s t c w.dst (v c w)
  perLane .vsel (fun c w l => if holds c w l then opA c w l else opB c w l) ∧
  perLane .vselLi (fun c w l => if holds c w l then opA c w l else opImm c w l) ∧
  perLane .vmov opA ∧ perLane .vmovi opImm ∧
  perLane .vshuf (from_ (fun c w l => l / seg w * seg w + ((opB c w l).setWidth 32).toNat % seg w)) ∧
  perLane .vbcast (from_ (fun c w l => l / seg w * seg w + uni c w % seg w)) ∧
  perLane .vrot (from_ (fun c w l => l / seg w * seg w + (l % seg w + uni c w) % seg w)) ∧
  perLane .vxlane (from_ (fun c w l => l ^^^ (uni c w % seg w))) ∧
  perLane .viota (fun c w l => BitVec.ofNat 64 ((List.range l).countP (fun k => c.mask.getLsbD k &&
    c.w.pget w.sa.toNat k))) ∧
  sends .vreadlane (fun c w => ((opA c w (uni c w % 128)).setWidth 32).setWidth 64) ∧
  (∀ w s c, laneGate (.vwritelane w) s = .run c → ∃ t m, exec (.vwritelane w) s = .next t ∧
    writesLanes s t c w.typ w.dst.toNat m (opA c w) ∧
    ∀ l, l < 128 → m.getLsbD l = (c.mask.getLsbD l && decide (l = uni c w % 128))) ∧
  ∀ w s c, laneGate (.vmask w) s = .run c → ∃ t v, exec (.vmask w) s = .next t ∧ writesSent s t c w.dst v ∧
    ∀ i, i < 64 → v.getLsbD i =
      (c.w.pget w.sa.toNat (64 * (w.mod.toNat % 2) + i) && c.mask.getLsbD (64 * (w.mod.toNat % 2) + i))

/-- R365 to R368: VCVT between the integer, IEEE and tapered types, integers saturated and values rounded once; VPACK,
VUNPACK and VSCALE. As which type slots and constants are read in VPACK and VUNPACK is the model's reading (logs 56 and
93). -/
def Obligations.LaneConversions : Prop :=
  let rm (c : LCtx) : RM := c.it.fmt.extractLsb' 0 2
  let z (c : LCtx) : Bool := c.it.fmt.getLsbD 2
  let isInt (ty : BitVec 5) : Prop := 1 ≤ ty.toNat ∧ ty.toNat ≤ 8
  let isF (ty : BitVec 5) : Prop := ty = 0x09 ∨ ty = 0x0A ∨ ty = 0x0B
  let isT (ty : BitVec 5) : Prop := ty = 0x0C ∨ ty = 0x0D
  let tn (ty : BitVec 5) : Nat := if ty = 0x0D then 6 else 8
  let num (ty : BitVec 5) {n : Nat} (x : BitVec n) : Int := if typSigned ty then x.toInt else Int.ofNat x.toNat
  let reg (ty : BitVec 5) (v : Word) : Int := if is64 ty then num ty v else num ty (v.setWidth 32)
  let low (ty : BitVec 5) : Int := if typSigned ty then -2 ^ (typWidth ty - 1) else 0
  let high (ty : BitVec 5) : Int := if typSigned ty then 2 ^ (typWidth ty - 1) - 1 else 2 ^ typWidth ty - 1
  (∀ w s c, laneGate (.vcvt w) s = .run c →
    let st : BitVec 5 := w.mod.setWidth 5
    ∃ t v, exec (.vcvt w) s = .next t ∧ writesLanes s t c w.typ w.dst.toNat c.mask v ∧ ∀ l, l < 128 →
      let x : BitVec (typWidth st) := (c.opnd w.sa st l).setWidth (typWidth st)
      (isInt st → isInt w.typ → reg w.typ (v l) =
        max (low w.typ) (min (num st x) (high w.typ))) ∧
      (isInt st → isF w.typ →
        (v l).toNat = fround (fmtOfTyp w.typ) (rm c) (z c) (.fin (decide (num st x < 0)) (num st x).natAbs 0)) ∧
      (isF st → isF w.typ → (v l).toNat = fround (fmtOfTyp w.typ) (rm c) (z c) (fread (fmtOfTyp st) (z c) x.toNat)) ∧
      (isF st → isT w.typ → (v l).toNat = tfencode (tn w.typ) (fread (fmtOfTyp st) false x.toNat)) ∧
      (isInt st → isT w.typ → (v l).toNat = tfencode (tn w.typ) (.fin (decide (num st x < 0)) (num st x).natAbs 0)) ∧
      (isT st → isF w.typ → (v l).toNat = fround (fmtOfTyp w.typ) (rm c) (z c) (tfdecode (tn st) (x.toNat % 2 ^ tn st))) ∧
      (isT st → w.typ = st → (v l).toNat = x.toNat % 2 ^ tn st) ∧
      (isT st → isT w.typ → w.typ ≠ st → (v l).toNat = tfencode (tn w.typ) (tfdecode (tn st) (x.toNat % 2 ^ tn st))) ∧
      (isT st → isInt w.typ →
        let r := tfdecode (tn st) (x.toNat % 2 ^ tn st)
        let y := reg w.typ (v l)
        (r = .nan → y = 0) ∧ ∀ k, r.toIntRM (rm c) = some k → y = max (low w.typ) (min k (high w.typ))) ∧
      (isF st → isInt w.typ →
        let r := fread (fmtOfTyp st) (z c) x.toNat
        let y := reg w.typ (v l)
        (r = .nan → y = 0) ∧ (r = .inf false → y = high w.typ) ∧ (r = .inf true → y = low w.typ) ∧
        ∀ k, r.toIntRM (rm c) = some k → y = max (low w.typ) (min k (high w.typ)))) ∧
  (∀ w s c, laneGate (.vscale w) s = .run c → ∃ t v, exec (.vscale w) s = .next t ∧
    writesLanes s t c w.typ w.dst.toNat c.mask v ∧ ∀ l k, l < 128 → k < elemCount w.typ →
      elemOf w.typ k (v l) = BitVec.ofNat (elemBits w.typ) (fround (fmtOfTyp w.typ) (rm c) (z c)
        (match fread (fmtOfTyp w.typ) (z c) (elemOf w.typ k (opA c w l)).toNat with
         | .fin neg m e => .fin neg m (e + (elemOf w.typ k (c.opnd w.sb w.typ l true)).toInt)
         | r => r))) ∧
  (∀ w s c, laneGate (.vpack w) s = .run c → ∃ t v, exec (.vpack w) s = .next t ∧
    writesLanes s t c w.typ w.dst.toNat c.mask v ∧ ∀ l, l < 128 →
      let a : Word32 := (c.opnd w.sa (if isFloatTyp w.typ then 0x09 else 0x00) l).setWidth 32
      let b : Word32 := (c.opnd w.sb (if isFloatTyp w.typ then 0x09 else 0x00) l).setWidth 32
      (w.typ = 0x02 → ((v l).extractLsb' 0 16).toInt = max (-32768) (min a.toInt 32767) ∧
        ((v l).extractLsb' 16 16).toInt = max (-32768) (min b.toInt 32767)) ∧
      (w.typ = 0x06 → ((v l).extractLsb' 0 16).toNat = min a.toNat 65535 ∧
        ((v l).extractLsb' 16 16).toNat = min b.toNat 65535) ∧
      let part (k : Nat) : BitVec 16 := (if k < 2 then a else b).extractLsb' (16 * (k % 2)) 16
      (w.typ = 0x01 → ∀ k, k < 4 → ((v l).extractLsb' (8 * k) 8).toInt = max (-128) (min (part k).toInt 127)) ∧
      (w.typ = 0x05 → ∀ k, k < 4 → ((v l).extractLsb' (8 * k) 8).toNat = min (part k).toNat 255) ∧
      (w.typ = 0x0A ∨ w.typ = 0x0B →
        ((v l).extractLsb' 0 16).toNat = fround (fmtOfTyp w.typ) (rm c) (z c) (fread f32 (z c) a.toNat) ∧
        ((v l).extractLsb' 16 16).toNat = fround (fmtOfTyp w.typ) (rm c) (z c) (fread f32 (z c) b.toNat))) ∧
  ∀ w s c, laneGate (.vunpack w) s = .run c → ∃ t v, exec (.vunpack w) s = .next t ∧
    writesLanes s t c w.typ w.dst.toNat c.mask v ∧ ∀ l, l < 128 →
      let a : Word32 := (opA c w l).setWidth 32
      let p := w.mod.toNat % 4
      ((v l).toNat < 2 ^ 32) ∧
      (w.typ = 0x01 → (v l).setWidth 32 = (a.extractLsb' (8 * p) 8).signExtend 32) ∧
      (w.typ = 0x05 → (v l).setWidth 32 = (a.extractLsb' (8 * p) 8).setWidth 32) ∧
      (w.typ = 0x02 → (v l).setWidth 32 = (a.extractLsb' (16 * p) 16).signExtend 32) ∧
      (w.typ = 0x06 → (v l).setWidth 32 = (a.extractLsb' (16 * p) 16).setWidth 32) ∧
      (w.typ = 0x0A ∨ w.typ = 0x0B → (v l).toNat =
        fround f32 (rm c) (z c) (fread (fmtOfTyp w.typ) (z c) (a.extractLsb' (16 * p) 16).toNat))

/-- R372: VREDUCE combines the active lanes of each segment in ascending order, and gives every active lane of the
segment the result, or with SD = 1 a scalar register; with no active lane it writes nothing. -/
def Says.LaneReduction : Prop :=
  let num (ty : BitVec 5) (x : Word) : Int :=
    let e := elemOf ty 0 x
    if typSigned ty then e.toInt else Int.ofNat e.toNat
  let wide (ty : BitVec 5) (x : Word) : Word := if is64 ty then x else (x.setWidth 32).setWidth 64
  let step (c : LCtx) (w : LaneWord) (r a : Word) : Word :=
    if w.typ = 0x09 then
      let v (x : Word) : FVal := fread f32 (c.it.fmt.getLsbD 2) (x.toNat % 2 ^ 32)
      let g := match w.mod.toNat with
        | 0 => FVal.add (c.it.fmt.extractLsb' 0 2) (v r) (v a)
        | 1 => FVal.minMax false (v r) (v a)
        | _ => FVal.minMax true (v r) (v a)
      BitVec.ofNat 64 (fround f32 (c.it.fmt.extractLsb' 0 2) (c.it.fmt.getLsbD 2) g)
    else wide w.typ (match w.mod.toNat with
      | 0 => r + a
      | 1 => if num w.typ r ≤ num w.typ a then r else a
      | 2 => if num w.typ r ≤ num w.typ a then a else r
      | 3 => r &&& a
      | 4 => r ||| a
      | _ => r ^^^ a)
  let total (c : LCtx) (w : LaneWord) (lo hi : Nat) : Option Word :=
    (List.range 128).foldl (fun r l => if lo ≤ l ∧ l < hi ∧ c.mask.getLsbD l = true then
      (match r with | none => some (opA c w l) | some x => some (step c w x (opA c w l))) else r) none
  ∀ w s c, laneGate (.vreduce w) s = .run c →
    (w.sd = false → ∃ t v, exec (.vreduce w) s = .next t ∧ writesLanes s t c w.typ w.dst.toNat c.mask v ∧
      ∀ l, l < 128 → c.mask.getLsbD l = true →
        let n := 128 >>> w.seg.toNat
        ∃ x, total c w (l / n * n) (l / n * n + n) = some x ∧ v l = x) ∧
    (w.sd = true → ∀ x, total c w 0 128 = some x → ∃ t, exec (.vreduce w) s = .next t ∧
      writesSent s t c w.dst (if w.typ = 0x03 then (x.setWidth 32).signExtend 64 else wide w.typ x)) ∧
    (w.sd = true → c.mask = 0 → ∃ t, exec (.vreduce w) s = .next t ∧ onlyWave s t c.core c.slot c.w.popLane)

/-- R226, R227, R354: canonical NaNs, exact data, overflow, exact zero sums and FTZ under every rounding mode; the
special cases of division and roots. -/
def Obligations.RoundingDivisionAndRoots : Prop :=
  Says.RoundingRules ∧ Says.DivisionAndRoots

/-- R160 to R162, R249, R251, R348: the head of the lane queue leaves, and what the source fields of a lane word stand
for. -/
def Obligations.LaneQueueAndOperands : Prop :=
  Says.LaneQueueHead ∧ Says.LaneOperands

/-- R347, R348, R359, R360: the integer and the bit-field lane operations. -/
def Obligations.LaneIntegerOperations : Prop :=
  Says.LaneArithmetic ∧ Says.LaneBitFields

/-- R362, R364, R369 to R373: selection, masks, lane movement, moves and VREDUCE. -/
def Obligations.SelectMoveAndReduce : Prop :=
  Says.SelectAndMove ∧ Says.LaneReduction
/-- R375, R377, R379, R381, R389: a load of scratch lanes writes the extended elements at once, VACCRD the accumulators
as FP32 (R236). A VLD or VLDS with .acq at gang or wider empties the L1 (R380); no other of these changes it. No byte
changes. -/
def Says.LaneScratchLoads : Prop :=
  let loads (i : LaneWord → Instr) (n : LaneWord → Nat) (acq : LaneWord → Bool) (v : LCtx → LaneWord → List Byte → Word) : Prop :=
    ∀ w s c cl at_, laneGate (i w) s = .run c → c.w.fenced = false → inOwnScratch s c w c.mask (n w) false cl at_ →
      ∃ s1 t, exec (i w) s = .next t ∧ sameBytes s s1 ∧ s1 = { s with net := s1.net, cores := s1.cores } ∧
        (acq w = true → 1 ≤ w.scp.toNat → (s1.core c.core).l1 = [] ∧ ∀ k, k ≠ c.core → s1.core k = s.core k) ∧
        (acq w = false ∨ w.scp = 0 → s1.cores = s.cores) ∧
        writesLanes s1 t c w.typ w.dst.toNat c.mask (fun l => v c w ((s.cluster cl).csp.read (at_ l) (n w)))
  let acq (w : LaneWord) : Bool := w.ord == 1 || w.ord == 3
  loads .vld (fun w => typWidth w.typ / 8) acq (fun _ w bs => laneLoaded w.typ (natOfBytes bs)) ∧
  loads .vlds (fun w => typWidth w.typ / 8) acq (fun _ w bs => laneLoaded w.typ (natOfBytes bs)) ∧
  loads .vaccrd (fun _ => 16) (fun _ => false) (fun c w bs =>
    let x := (BitVec.ofNat 128 (natOfBytes bs)).toInt
    let exp := ((c.opnd w.sc 0x00 0).extractLsb' 0 16).toInt
    if x = -2 ^ 127 then 0x7FC00000 else BitVec.ofNat 64 (fround f32 0 false (.fin (decide (x < 0)) x.natAbs exp)))

/-- R135, R253, R375, R377, R381: a store of scratch lanes writes the low bytes of each lane where the guard holds; where
lanes share a byte, one of theirs stands. Every other byte and every register stays. -/
def Says.LaneScratchStores : Prop :=
  (∀ (c : LCtx) (w : LaneWord) l, l < 128 → (c.taking w true).getLsbD l =
    (c.mask.getLsbD l && (c.w.pget w.pred.toNat l != (w.neg == 1)))) ∧
  let stores (i : LaneWord → Instr) : Prop := ∀ w s c cl at_, laneGate (i w) s = .run c → c.w.fenced = false →
    let n := typWidth w.typ / 8
    inOwnScratch s c w (c.taking w true) n true cl at_ →
    ((w.ord = 2 ∨ w.ord = 3) → 1 ≤ w.scp.toNat → c.w.work.outs = []) →
    ∃ t, exec (i w) s = .next t ∧ storesAt s t cl (c.taking w true) n at_ (fun l => (opC c w l).toNat) ∧
      t.wave? c.core c.slot = some c.w.popLane ∧ (∀ k, k ≠ slotKey c.core c.slot → t.waves.get? k = s.waves.get? k) ∧
      t = { s with waves := t.waves, clusters := t.clusters, net := t.net, free := t.free }
  stores .vst ∧ stores .vsts

/-- Line `n` holds a lane of a mask, whose lanes lie at the addresses `at_`. -/
def Says.named (m : Mask) (at_ : Nat → Nat) (n : Nat) : Bool :=
  (List.range 128).any (fun l => m.getLsbD l && at_ l / 128 == n)

/-- The entry of a lane instruction among the waits for lines of its cluster. -/
def Says.mine (c : LCtx) (y : LineWait) : Bool := y.kind == 0 && y.id == c.w.ident.uid && y.seq == c.it.seq

/-- The waits for lines of an instruction's cluster. -/
def Says.linew (s : State) (c : LCtx) : List LineWait := (s.cluster (clusterOf c.core)).linew

/-- An earlier wait is ready and touches a line of the instruction (R78). -/
def Says.beaten (s : State) (c : LCtx) (m : Mask) (at_ : Nat → Nat) : Prop :=
  ∃ y ∈ (Says.linew s c).takeWhile (fun y => !Says.mine c y), y.ready (s.cluster (clusterOf c.core)) = true ∧
    ∃ k ∈ y.lines, Says.named m at_ k = true

/-- A hand-off waits among the accesses of its cluster. -/
def Says.waitsForLines (r : Result) (s : State) (c : LCtx) (m : Mask) (at_ : Nat → Nat) : Prop :=
  ∃ t, r = .next t ∧ sameBytes s t ∧ t = { s with clusters := t.clusters } ∧
    (∀ k, t.lineFull (clusterOf c.core) k = s.lineFull (clusterOf c.core) k) ∧
    ∃ y ∈ Says.linew t c, Says.mine c y = true ∧ ∀ k, y.lines.contains k = Says.named m at_ k

/-- A VLDC takes its lines: its lanes are read, the lines are EMPTY, and it waits no longer (R77, R383). -/
def Says.takesLines (r : Result) (s : State) (c : LCtx) (w : LaneWord) (at_ : Nat → Nat) : Prop :=
  let cl := clusterOf c.core
  let n := typWidth w.typ / 8
  ∃ s1 t, r = .next t ∧ sameBytes s s1 ∧ s1 = { s with net := s1.net, cores := s1.cores, clusters := s1.clusters } ∧
    (∀ k, s1.lineFull cl k = (s.lineFull cl k && !Says.named c.mask at_ k)) ∧
    (c.mask ≠ 0 → ∀ y ∈ Says.linew s1 c, Says.mine c y = false) ∧
    (1 ≤ w.scp.toNat → c.mask ≠ 0 → (s1.core c.core).l1 = []) ∧
    writesLanes s1 t c w.typ w.dst.toNat c.mask (fun l => laneLoaded w.typ (natOfBytes ((s.cluster cl).csp.read (at_ l) n)))

/-- A VSTP fills its lines: its lanes are stored, the lines are FULL, and it waits no longer (R77, R383). -/
def Says.fillsLines (r : Result) (s : State) (c : LCtx) (w : LaneWord) (at_ : Nat → Nat) : Prop :=
  let cl := clusterOf c.core
  let m := c.taking w true
  ∃ t, r = .next t ∧ storesAt s t cl m (typWidth w.typ / 8) at_ (fun l => (opC c w l).toNat) ∧
    (∀ k, t.lineFull cl k = (s.lineFull cl k || Says.named m at_ k)) ∧
    (m ≠ 0 → ∀ y ∈ Says.linew t c, Says.mine c y = false) ∧
    t.wave? c.core c.slot = some c.w.popLane ∧ (∀ k, k ≠ slotKey c.core c.slot → t.waves.get? k = s.waves.get? k) ∧
    (1 ≤ w.scp.toNat → m ≠ 0 → (t.core c.core).l1 = []) ∧
    t = { s with waves := t.waves, clusters := t.clusters, cores := t.cores, net := t.net, free := t.free }

/-- R77 to R79, R383: VLDC with every line of its lanes FULL, while no access that reached one of those lines before it
could take that line, reads the lanes and leaves those lines EMPTY; VSTP with every line EMPTY stores the lanes and leaves
the lines FULL; at gang or wider each waits for the wave's earlier accesses and empties the L1 (R54, R142). Otherwise they
wait among the accesses of the cluster, with the lines that they name, and nothing is read, written or changed. That all the
lines of one access are read or written in one step is the model's choice (log 89). -/
def Says.HandOffLines : Prop :=
  (∀ w s c at_, laneGate (.vldc w) s = .run c → c.w.fenced = false →
    let cl := clusterOf c.core
    let ready : Prop := ∀ l, l < 128 → c.mask.getLsbD l = true → s.lineFull cl (at_ l / 128) = true
    inOwnScratch s c w c.mask (typWidth w.typ / 8) false cl at_ → (1 ≤ w.scp.toNat → c.w.work.outs = []) →
    (ready → ¬ Says.beaten s c c.mask at_ → Says.takesLines (exec (.vldc w) s) s c w at_) ∧
    (¬ ready ∨ Says.beaten s c c.mask at_ → Says.waitsForLines (exec (.vldc w) s) s c c.mask at_)) ∧
  ∀ w s c at_, laneGate (.vstp w) s = .run c → c.w.fenced = false →
    let cl := clusterOf c.core
    let m := c.taking w true
    let ready : Prop := ∀ l, l < 128 → m.getLsbD l = true → s.lineFull cl (at_ l / 128) = false
    inOwnScratch s c w m (typWidth w.typ / 8) true cl at_ → (1 ≤ w.scp.toNat → c.w.work.outs = []) →
    (ready → ¬ Says.beaten s c m at_ → Says.fillsLines (exec (.vstp w) s) s c w at_) ∧
    (¬ ready ∨ Says.beaten s c m at_ → Says.waitsForLines (exec (.vstp w) s) s c m at_)

/-- R52, R56, R379, R381, R382: a load of lanes of the global window, none of whose lines the L1 holds, is counted in LD
and stands in line requests (VLD) or gather packets (VLDX), its register unwritten; a VLD all of whose lines the L1 holds
writes its elements at once. -/
def Says.LaneGlobalLoads : Prop :=
  (∀ w s c pa leaf, laneGate (.vld w) s = .run c → c.w.fenced = false → c.mask ≠ 0 → c.w.ldCount < 63 →
    let n := typWidth w.typ / 8
    inGlobalMem s c w c.mask n 0 false pa leaf →
    let s1 := s.acquireL1 c.core (w.ord == 1 || w.ord == 3) (decide (1 ≤ w.scp.toNat))
    let held (l : Nat) : Option L1Line := s1.l1Find c.core (pa l / 128) ((leaf l).extractLsb' 51 10) c.w.ident.job
    ((∀ l, l < 128 → c.mask.getLsbD l = true → held l = none) → ∃ t, exec (.vld w) s = .next t ∧ sameBytes s t ∧
      sendsLanes t c c.mask false (.vector w.dst.toNat) [.rd] pa n (fun _ => 0)) ∧
    (∀ data : Nat → L1Line, (∀ l, l < 128 → c.mask.getLsbD l = true → held l = some (data l)) →
      ∃ s2 t, exec (.vld w) s = .next t ∧ sameBytes s s2 ∧ writesLanes s2 t c w.typ w.dst.toNat c.mask (fun l =>
        laneLoaded w.typ ((data l).data.toNat / 2 ^ (8 * (pa l % 128)) % 2 ^ (8 * n))))) ∧
  ∀ w s c pa leaf, laneGate (.vldx w) s = .run c → c.w.fenced = false → c.mask ≠ 0 → c.w.ldCount < 63 →
    let n := typWidth w.typ / 8
    inGlobalMem s c w c.mask n 0 false pa leaf →
    ∃ t, exec (.vldx w) s = .next t ∧ sameBytes s t ∧
      sendsLanes t c c.mask false (.vector w.dst.toNat) [.grd] pa n (fun _ => 0)

/-- R18, R53, R381, R382, R386: a store or an atomic of lanes of the global window is counted and sent, as line writes
(VST), scatter packets (VSTX) or atomics (VATOM); until they are performed no byte of memory changes but for the D bits of
the leaves that the lanes write through. -/
def Says.LaneGlobalStores : Prop :=
  let sends (i : LaneWord → Instr) (acc : BitVec 3) (store : Bool) (ops : List PacketOp) (dest : LaneWord →
    Dest) : Prop :=
    ∀ w s c pa leaf, laneGate (i w) s = .run c → c.w.fenced = false →
      let n := typWidth w.typ / 8
      let m := c.taking w true
      m ≠ 0 → (if store then c.w.stCount else c.w.ldCount) < 63 → inGlobalMem s c w m n acc true pa leaf →
      ((w.ord = 2 ∨ w.ord = 3) → 1 ≤ w.scp.toNat → c.w.work.outs = []) →
      ∃ t ls, exec (i w) s = .next t ∧ sendsLanes t c m store (dest w) ops pa n (opC c w) ∧ List.Perm ls (lanesOf m) ∧
        sameBytes (ls.foldl (fun s l => s.markDirty c.core c.w.ident.job (c.laneEa w l).toNat) s) t
  sends .vst 1 true [.wr, .wrm] (fun _ => .none) ∧ sends .vstx 1 true [.gwr] (fun _ => .none) ∧
    sends .vatom 2 false [.atm] (fun w => .vector w.dst.toNat)

/-- R385 and Table 4: the new value of an atomic operation from the old o, the operand x and the compare c, on elements
of 32 or 64 bits; a compare-and-swap writes only where o equals c, every other operation always. -/
def Says.AtomicOperations : Prop :=
  ∀ (ty : BitVec 5) (o x c : Word), ty = 0x03 ∨ ty = 0x04 ∨ ty = 0x07 ∨ ty = 0x08 ∨ ty = 0x09 →
    let n := typWidth ty
    let f (k : Nat) : BitVec n := (aopNew k ty o x c).setWidth n
    let o' : BitVec n := o.setWidth n
    let x' : BitVec n := x.setWidth n
    let num (y : BitVec n) : Int := if ty = 0x03 ∨ ty = 0x04 then y.toInt else Int.ofNat y.toNat
    (ty ≠ 0x09 → f 1 = o' + x' ∧ f 2 = (if num o' ≤ num x' then o' else x') ∧ f 3 = (if num o' ≤ num x' then x' else o') ∧
      f 4 = o' &&& x' ∧ f 5 = o' ||| x' ∧ f 6 = o' ^^^ x') ∧
    (ty = 0x09 → (f 1).toNat = fround f32 0 false (FVal.add 0 (fdecode f32 (o.toNat % 2 ^ 32)) (fdecode f32 (x.toNat % 2 ^ 32))) ∧
      (f 2).toNat = fround f32 0 false (FVal.minMax false (fdecode f32 (o.toNat % 2 ^ 32)) (fdecode f32 (x.toNat % 2 ^ 32))) ∧
      (f 3).toNat = fround f32 0 false (FVal.minMax true (fdecode f32 (o.toNat % 2 ^ 32)) (fdecode f32 (x.toNat % 2 ^ 32)))) ∧
    f 7 = x' ∧ f 8 = (if o' = c.setWidth n then x' else o') ∧
    aopWrites 8 ty o c = decide (o' = c.setWidth n) ∧ ∀ k, 1 ≤ k → k ≤ 7 → aopWrites k ty o c = true

/-- R135, R386: VATOM on scratch lanes returns the old elements and stores the new ones, all lanes and lines in one step (the
model's choice, log 89); only bytes that its lanes name change. Lanes that share no byte each act on what stood there before. -/
def Says.LaneScratchAtomics : Prop :=
  ∀ w s c cl at_, laneGate (.vatom w) s = .run c → c.w.fenced = false →
    let n := typWidth w.typ / 8
    let m := c.taking w true
    inOwnScratch s c w m n true cl at_ → ((w.ord = 2 ∨ w.ord = 3) → 1 ≤ w.scp.toNat → c.w.work.outs = []) →
    let old (l : Nat) : Nat := natOfBytes ((s.cluster cl).csp.read (at_ l) n)
    let cmp (l : Nat) : Word := c.opnd (w.dst.setWidth 9) w.typ l
    let new (l : Nat) : Nat :=
      if aopWrites w.mod.toNat w.typ (BitVec.ofNat 64 (old l)) (cmp l) then
        (aopNew w.mod.toNat w.typ (BitVec.ofNat 64 (old l)) (opC c w l) (cmp l)).toNat else old l
    ∃ s1 t v, exec (.vatom w) s = .next t ∧ writesLanes s1 t c w.typ w.dst.toNat m v ∧
      s1 = { s with clusters := s1.clusters, cores := s1.cores, net := s1.net, free := s1.free } ∧
      (∀ k, s1.mem.byte k = s.mem.byte k) ∧
      (∀ x k, (∀ l, l < 128 → m.getLsbD l = true → ¬ (x = cl ∧ at_ l ≤ k ∧ k < at_ l + n)) →
        (s1.cluster x).csp.byte k = (s.cluster x).csp.byte k) ∧
      ((∀ a b, a < 128 → b < 128 → a ≠ b → m.getLsbD a = true → m.getLsbD b = true →
          at_ a + n ≤ at_ b ∨ at_ b + n ≤ at_ a) →
        storesAt s s1 cl m n at_ new ∧ ∀ l, l < 128 → m.getLsbD l = true → v l = laneLoaded w.typ (old l))

/-- R238, R375, R387, R388: VRED that has not begun to drain the buffer, with room in it and in its quarter, leaves an entry for every location that a
lane names, of its operation and type, and changes nothing in memory; entries of other locations stay. -/
def Says.LaneReductionBuffer : Prop :=
  ∀ w s c, laneGate (.vred w) s = .run c → c.w.fenced = false →
    let n := typWidth w.typ / 8
    let m := c.taking w true
    let ea := c.laneEa w
    (∀ l, l < 128 → m.getLsbD l = true → (ea l).toNat % n = 0 ∧ s.rangeLocked c.w (ea l).toNat n true = false ∧
      (windowOf (ea l).toNat = .global ∧ inWindow (ea l).toNat n = true ∨
        windowOf (ea l).toNat = .scratch ∧ (s.ownScratch c.w (ea l).toNat n).isSome = true)) →
    c.w.sched.redFor ≠ some c.it.seq → c.w.work.red.length + (lanesOf m).length ≤ 128 → s.quarterRed c.core c.slot + (lanesOf m).length ≤ 512 →
    let named (e : RedEntry) : Prop := (∃ l, l < 128 ∧ m.getLsbD l = true ∧ e.va = ea l) ∧ e.aop = w.mod ∧ e.typ = w.typ
    ∃ t w', exec (.vred w) s = .next t ∧ onlyWave s t c.core c.slot w' ∧
      w' = { c.w.popLane with work := { c.w.work with red := w'.work.red }, sched := { c.w.sched with redFor := none } } ∧
      (∀ l, l < 128 → m.getLsbD l = true → ∃ e, e ∈ w'.work.red ∧ e.va = ea l ∧ named e) ∧
      (∀ e, e ∈ w'.work.red → e ∈ c.w.work.red ∨ named e) ∧ (∀ e, e ∈ c.w.work.red → ¬ named e → e ∈ w'.work.red) ∧
      (c.w.work.red = [] → ∀ l, l < 128 → m.getLsbD l = true →
        (∀ k, k < 128 → m.getLsbD k = true → ea k = ea l → k = l) → ∀ e, e ∈ w'.work.red → e.va = ea l →
          e.value = opC c w l)

/-- R384: VPREF raises no fault, changes no byte and no register, and asks for each line of the global window that a lane
names, translates and the L1 does not hold; a full miss queue holds it (R20). -/
def Says.LanePrefetch : Prop :=
  ∀ w s c, laneGate (.vpref w) s = .run c → (s.core c.core).noMiss = false →
    let line (l : Nat) : Nat := (c.laneEa w l).toNat / 128 * 128
    (∀ l, l < 128 → c.mask.getLsbD l = true → windowOf (line l) = .global →
      s.translate c.core c.w.ident.job (line l) 4 c.w.sched.lfails ≠ .miss) →
    ∃ t, exec (.vpref w) s = .next t ∧ sameBytes s t ∧ t = { s with waves := t.waves, net := t.net } ∧
      t.wave? c.core c.slot = some c.w.popLane ∧
      ∀ l pa leaf, l < 128 → c.mask.getLsbD l = true → windowOf (line l) = .global →
        s.translate c.core c.w.ident.job (line l) 4 c.w.sched.lfails = .ok pa leaf →
        s.rangeLocked c.w (line l) 128 false = false →
        s.l1Find c.core (pa / 128) (leaf.extractLsb' 51 10) c.w.ident.job = none →
        ∃ k x, t.net.txns.get? k = some x ∧ x.op = .rd ∧ x.pa / 128 = pa / 128

/-- R94, R95, R390: VTRSEND of a TREESEL that R95 allows sends lanes 0 to NEL − 1 as the wave's contribution to the
generation of its session that is open, to one that has completed without the core and whose result has not reached it, or
else to the next, and goes on; VTRRECV waits for the result, then writes it to the active lanes and, as an acquire at dev,
empties the L1. That a send joins a generation which a timeout has completed without its core (its status is then 3), and
else the next one, is the model's reading (log 34). A TREESEL that R95 stops, a core outside it at VTRSEND, a second send, or a receive without a send traps
with TREESESSION and TVAL the TREESEL. -/
def Obligations.TreeInstructions : Prop :=
  let fault (s : State) (c : LCtx) : State :=
    s.laneTrapAt c { cause := 0x36, tval := c.it.treesel, lane := true, mask := c.mask }
  let well (v : Word) : Prop :=
    let count := (v.extractLsb' 48 9).toNat
    let nel := (v.extractLsb' 24 6).toNat
    1 ≤ count ∧ (v.extractLsb' 40 8).toNat + count ≤ 256 ∧ 1 ≤ nel ∧ nel ≤ 32 ∧ (v.extractLsb' 16 4).toNat ≤ 10
  (∀ w s c, laneGate (.vtrsend w) s = .run c →
    let v := c.it.treesel
    let count := (v.extractLsb' 48 9).toNat
    let first := (v.extractLsb' 40 8).toNat
    let sid := (v.extractLsb' 0 3).toNat
    let good := well v ∧ first ≤ c.core ∧ c.core < first + count
    let joins (g : TreeGen) : Prop := g.grid = c.w.ident.grid ∧ g.sid = sid ∧
      (g.result = none ∨ c.core ∈ g.cores ∧ c.core ∉ g.sent)
    (good → c.w.work.sends.has sid = false → c.w.work.outs = [] → ∃ t w' m, exec (.vtrsend w) s = .next t ∧
      sameBytes s t ∧
      t.wave? c.core c.slot = some w' ∧ w' = { c.w.popLane with work := { c.w.work with sends := w'.work.sends } } ∧
      t.tree.msgs.get? s.net.nextId = some m ∧ m.uid = c.w.ident.uid ∧ m.core = c.core ∧ m.grid = c.w.ident.grid ∧
      m.sel = v ∧ m.time = c.it.trtime ∧
        m.elems = (List.range (v.extractLsb' 24 6).toNat).map (fun l => (opA c w l).setWidth 32) ∧
      ((∃ g ∈ s.tree.gens, joins g ∧ m.gen = g.gen) ∨
        (∀ g ∈ s.tree.gens, ¬ joins g) ∧ m.gen = s.genCount c.w.ident.grid sid) ∧
      w'.work.sends.get? sid = some ⟨c.core, m.gen,
        if s.tree.gens.any (fun g => g.isOf c.w.ident.grid sid m.gen && g.result.isSome) then 3 else 0, none⟩) ∧
    ((¬ good ∨ c.w.work.sends.has sid = true) → c.w.trapHeld = false → c.w.spec = [] →
      exec (.vtrsend w) s = .next (fault s c))) ∧
  ∀ w s c, laneGate (.vtrrecv w) s = .run c →
    let sid := (c.it.treesel.extractLsb' 0 3).toNat
    (¬ well c.it.treesel ∨ c.w.work.sends.get? sid = none → c.w.trapHeld = false → c.w.spec = [] →
      exec (.vtrrecv w) s = .next (fault s c)) ∧
    (∀ x, well c.it.treesel → c.w.work.sends.get? sid = some x →
      (x.result = none → exec (.vtrrecv w) s = .next s) ∧
      ∀ ls, x.result = some ls → ∃ s1 t w', exec (.vtrrecv w) s = .next t ∧ sameBytes s s1 ∧
        (s1.core c.core).l1 = [] ∧ onlyWave s1 t c.core c.slot w' ∧
        w' = { c.w.popLane with vec := w'.vec, work := { c.w.work with sends := w'.work.sends } } ∧
        w'.work.sends.get? sid = none ∧
        ∀ r l, l < 128 → w'.lane32 r l =
          if c.mask.getLsbD l = true ∧ r = w.dst.toNat then (ls[l]?).getD 0 else c.w.lane32 r l)

/-- R31, R378, R379: where every active lane fails a check of the same kind, a lane load or store performs nothing and traps
at its LPC with that cause, TVAL the lowest lane's address and LFMASK the lanes: a reserved window, a scratch access that
crosses out of its window, a queue or management window in supervisor mode ADDRWINDOW; a store to the Light List and a
user-mode access of the queue and management windows WINDOWPRIV, these two causes with a fault record for each page (log 95;
the instruction waits while they cannot be written); an unaligned scratch address SCRATCHALIGN, one outside the allocation
SCRATCHRANGE, an unaligned global one ALIGN, a locked range RANGELOCK. -/
def Says.LaneAccessFaults : Prop :=
  let fails (i : LaneWord → Instr) (guarded store : Bool) (acc : BitVec 2) : Prop := ∀ w s c, laneGate (i w) s = .run c →
    let m := c.taking w guarded
    let n := typWidth w.typ / 8
    let va (l : Nat) : Nat := (c.laneEa w l).toNat
    let each (p : Nat → Prop) : Prop := ∀ l, l < 128 → m.getLsbD l = true → p (va l)
    let trap (k : BitVec 8) (h2 : Word) : Trap :=
      { cause := k, tval := c.laneEa w ((lanesOf m).headD 0), lane := true, mask := m, h2 := h2 }
    let faults (k : BitVec 8) : Prop := s.xlate.held = [] → ∃ s1, sameBytes s s1 ∧ s1.wave? c.core c.slot = some c.w ∧
      exec (i w) s = .next (s1.laneTrapAt c (trap k 0))
    let window (k : BitVec 8) : Prop :=
      let fs := distinctFaults ((lanesOf m).map (fun l => ⟨va l, k, 7, 0⟩))
      let r : RecordOf := { die := dieOf c.core, core := c.core, slot := c.slot, job := c.w.ident.job, agent := 0, acc := acc }
      (s.canRecord r.die r.job fs.length = true → ∃ s1, sameBytes s s1 ∧ s1.wave? c.core c.slot = some c.w ∧
        let v := (s1.record r fs).2
        exec (i w) s = .next (v.laneTrapAt (c.again v) (trap k ((s1.record r fs).1.setWidth 64)))) ∧
      (s.canRecord r.die r.job fs.length = false → exec (i w) s = .next s)
    m ≠ 0 → c.w.spec = [] → c.w.fenced = false → c.w.trapHeld = false →
    ((w.ord = 2 ∨ w.ord = 3) → 1 ≤ w.scp.toNat → c.w.work.outs = []) →
    (each (fun a => windowOf a = .none) → window 0x20) ∧
    (store = true → each (fun a => windowOf a = .light ∧ inWindow a n = true) → window 0x21) ∧
    (c.w.trap.sup = false → each (fun a => (windowOf a = .mgmt ∨ windowOf a = .queues) ∧ inWindow a n = true) →
      window 0x21) ∧
    (c.w.trap.sup = true → each (fun a => windowOf a = .mgmt ∨ windowOf a = .queues) → window 0x20) ∧
    (each (fun a => windowOf a = .scratch ∧ inWindow a n = false) → window 0x20) ∧
    (each (fun a => windowOf a = .scratch ∧ inWindow a n = true ∧ a % n ≠ 0) → faults 0x31) ∧
    (each (fun a => windowOf a = .scratch ∧ a % n = 0 ∧ s.ownScratch c.w a n = none) → faults 0x30) ∧
    (each (fun a => windowOf a = .global ∧ inWindow a n = true ∧ a % n ≠ 0) → faults 0x04) ∧
    (each (fun a => windowOf a = .scratch ∧ a % n = 0 ∧ (s.ownScratch c.w a n).isSome = true ∧
      s.rangeLocked c.w a n store = true) → faults 0x43)
  fails .vld false false 0 ∧ fails .vst true true 1 ∧ fails .vatom true true 2

/-- R8, R17, R114, R294, R296, R378, R379: the traps of scalar and of lane accesses that perform nothing. -/
def Obligations.AccessFaults : Prop :=
  Says.ScalarAccessFaults ∧ Says.LaneAccessFaults

/-- R77 to R79, R135, R236, R253, R375, R377, R379, R381, R383, R389: lane loads and stores of scratch, VACCRD, and the
hand-off accesses VLDC and VSTP. -/
def Obligations.LaneScratchAndHandOff : Prop :=
  Says.LaneScratchLoads ∧ Says.LaneScratchStores ∧ Says.HandOffLines

/-- R18, R52, R53, R56, R379, R381, R382, R386: lane loads of the global window, and lane stores and atomics sent to it. -/
def Obligations.LaneGlobalAccess : Prop :=
  Says.LaneGlobalLoads ∧ Says.LaneGlobalStores

/-- R135, R385, R386: the atomic operations, and VATOM on scratch. -/
def Obligations.LaneAtomics : Prop :=
  Says.AtomicOperations ∧ Says.LaneScratchAtomics

/-- R238, R375, R384, R387, R388: VPREF, and VRED into the wave's reduction buffer. -/
def Obligations.PrefetchAndReductionBuffer : Prop :=
  Says.LanePrefetch ∧ Says.LaneReductionBuffer

/-- R14 to R20: TABLE_WALK of a miss that has a walker, none of whose reads met a region of another key. A walk that
ends with a leaf puts the translation at the head of the cluster's TLB and of the TLBs of the cores that wait, sets A in
the leaf where it was clear, and the miss is gone; a walk that fails tells those that wait its page, access, cause,
level and entry. Either way the cluster's cores issue translated accesses again. A walk whose first entry no cache holds
asks for the entry's line by one RD of key slot 0; until its reply is there, or while its update of A waits for its port, it
changes nothing else (that the update is sent and performed in one step is the model's choice, log 11). A leaf that a walk
returns is well formed and permits the access, and a job without JOBROOT.EN has none. -/
def Says.TableWalks : Prop :=
  let again (s t : State) (cl : Nat) : Prop := ∀ k, clusterOf k = cl →
    t.core k = { s.core k with tlb := (t.core k).tlb, noMiss := false }
  let runs (s : State) (id : Nat) (x : Walk) : Prop := s.xlate.walks.get? id = some x ∧ s.walking id x = true
  (∀ id ecc s x e level pa t0, runs s id x → (s.addFlaws ecc).walk id x = (.leaf e level pa, 0, t0) →
    (t0.leafClear x.cluster pa = false → exec (.tableWalk id ecc) s = .next (s.addFlaws ecc)) ∧
    (t0.leafClear x.cluster pa = true →
      ∃ t, exec (.tableWalk id ecc) s = .next t ∧ t.xlate.walks.get? id = none ∧ again t0 t x.cluster ∧
        (t.cluster x.cluster).tlb.head? = some ⟨x.job, level, pageOf level x.va, e ||| 0x80, pa⟩ ∧
        (e.getLsbD 7 = true → t.mem = t0.mem ∧ t.waves = t0.waves) ∧
        (t0.sound pa 8 → t.waves = t0.waves ∧
          ∀ u ∈ x.users, ∀ core slot w, t0.findWave (u / 2) = some (core, slot, w) →
            (t.core core).tlb.head? = some ⟨x.job, level, pageOf level x.va, e ||| 0x80, pa⟩) ∧
        (e.getLsbD 7 = false → t0.serves pa 0 → t0.sound pa 8 →
          storesMem t0 t pa (bytesOfWord (wordOfBytes (t0.mem.read pa 8) ||| 0x80))))) ∧
  (∀ id ecc s x t0, runs s id x → (s.addFlaws ecc).walk id x = (.wait, 0, t0) →
    exec (.tableWalk id ecc) s = .next t0) ∧
  (∀ id ecc s x, runs s id x → (s.reg (jobReg x.job 0)).getLsbD 0 = true → x.req = none →
    (∀ p ∈ (s.cluster x.cluster).ptr, ¬ (p.job = x.job ∧ p.level = 0 ∧ p.index = pageOf 0 x.va)) →
    let entry := bits (s.reg (jobReg x.job 0)) 51 12 * 4096 + levelIndex 0 x.va * 8
    ∃ t n y, exec (.tableWalk id ecc) s = .next t ∧ sameBytes s t ∧
      t.xlate.walks.get? id = some { x with req := some n } ∧ t.net.txns.get? n = some y ∧ y.op = .rd ∧ y.phase = .made ∧
      y.pa = entry / 128 * 128 ∧ y.cnt = 2 ∧ y.key = 0 ∧ y.job = x.job) ∧
  (∀ id ecc s x cause level entry t0, runs s id x → (s.addFlaws ecc).walk id x = (.fail cause level entry, 0, t0) →
    let f : WalkFail := ⟨x.va / 65536, x.acc, cause, level, entry⟩
    ∃ t, exec (.tableWalk id ecc) s = .next t ∧ t = { t0 with waves := t.waves, xlate := t.xlate, cores := t.cores } ∧
      again t0 t x.cluster ∧ (∀ k, clusterOf k ≠ x.cluster → t.core k = t0.core k) ∧ t.xlate.walks.get? id = none ∧
      (∀ a ∈ x.askers, (a, f) ∈ t.xlate.failed) ∧
      ∀ u ∈ x.users, (∀ u' ∈ x.users, u' / 2 = u / 2) → ∀ core slot w, t0.findWave (u / 2) = some (core, slot, w) →
        ∃ w', t.wave? core slot = some w' ∧ f ∈ (if u % 2 = 1 then w'.sched.lfails else w'.sched.fails)) ∧
  (∀ (s : State) id (x : Walk), (s.reg (jobReg x.job 0)).getLsbD 0 = false → s.walk id x = (.fail 0x22 7 0, 0, s)) ∧
  ∀ (s : State) id (y : Walk) e level pa m t, s.walk id y = (.leaf e level pa, m, t) →
    let frame := bits e 47 12 * 65536
    let x := e.getLsbD 63
    let w := e.getLsbD 62
    let r := e.getLsbD 61
    (s.reg (jobReg y.job 0)).getLsbD 0 = true ∧ e.getLsbD 0 = true ∧ e.getLsbD 1 = true ∧
      bits e 5 2 = 0 ∧ bits e 11 8 = 0 ∧ e.getLsbD 48 = false ∧
      ((level = 2 ∧ frame % 2 ^ 30 = 0) ∨ (level = 3 ∧ frame % 2 ^ 21 = 0) ∨ level = 4) ∧
      (bits e 60 51 = 0 ∨ bits e 60 51 = bits (t.reg (jobReg y.job 0x08)) 9 0) ∧
      (match y.acc.toNat with | 1 => w | 2 => r && w | 3 => x | _ => r) = true ∧
      (windowOf y.va = .global → bits e 50 49 = 0 ∧ frame < t.populated) ∧
      (windowOf y.va = .peer → bits e 50 49 = 1 ∧ t.hasRoute y.va = true) ∧
      (windowOf y.va = .host → bits e 50 49 = 2 ∧ bits e 60 51 = 0)

/-- R22, R55, R239: a TLBINVC command with OP 01, 10 or 11 that nothing refuses removes from every cache the
translations it names, and no other, empties the instruction caches, and is BUSY; with a reserved bit set it starts
nothing, and while BUSY a write is ignored. It completes, with every L1 and instruction cache empty, once no cache holds
a translation it names and every older access has been performed (log 44). -/
def Says.Invalidation : Prop :=
  (∀ v (s : State), ∀ i ∈ [(Instr.tlbInvalidateAll v, 1), (.tlbInvalidateJob v, 2), (.tlbInvalidateRange v, 3)],
    bits v 1 0 = i.2 →
    (s.ctl.tlbCmd ≠ none → exec i.1 s = .next s) ∧
    (s.ctl.tlbCmd = none → ∃ t, exec i.1 s = .next t ∧ t.reg 0x008 = v &&& 0x0000FFFF003FF003#64 ∧
      otherRegs s t [0x008] ∧
      (v &&& ~~~0x0000FFFF003FF003#64 ≠ 0 → t = { s with mreg := t.mreg }) ∧
      (v &&& ~~~0x0000FFFF003FF003#64 = 0 →
        t = { s with mreg := t.mreg, cores := t.cores, clusters := t.clusters, ctl := t.ctl } ∧ t.mgmtRead 0x010 = 1 ∧
        let job := bits v 21 12
        let first := bits (s.reg 0x000) 56 16
        let hit (e : TlbEntry) : Prop := i.2 = 1 ∨ e.job = job ∧ (i.2 = 2 ∨
          ∃ p, first ≤ p ∧ p < first + max 1 (bits v 47 32) ∧ p * 65536 / 2 ^ levelShift e.level = e.page)
        (∀ k, (t.core k).icache = [] ∧ (t.core k).lcache = []) ∧ (∀ k e, e ∈ (t.core k).tlb ↔ e ∈ (s.core k).tlb ∧ ¬ hit e) ∧
        (∀ k e, e ∈ (t.cluster k).tlb ↔ e ∈ (s.cluster k).tlb ∧ ¬ hit e) ∧
        ∀ k e, e ∈ (t.cluster k).ptr ↔ e ∈ (s.cluster k).ptr ∧ ¬ (i.2 = 1 ∨ e.job = job)))) ∧
  (∀ s v a n, s.ctl.tlbCmd = some (v, a, n) → s.tlbHolds v a = false →
    (s.oldAccesses v n = true → exec .tlbInvalidateComplete s = .next s) ∧
    (s.oldAccesses v n = false → ∃ t, exec .tlbInvalidateComplete s = .next t ∧
      t = { s with cores := t.cores, net := t.net, ctl := { s.ctl with tlbCmd := none } } ∧ t.mgmtRead 0x010 = 0 ∧
      ∀ k, (t.core k).l1 = [] ∧ (t.core k).icache = [] ∧ (t.core k).lcache = []))

/-- R32: FAULT_RECORD_DRAIN writes the first record held at a die once its job's ring has room, and the port takes it: its
words stand at the ring's tail, FRTAIL counts it, the host fault interrupt is pending, and it is held no longer. Where no
record is held at the die, or every ring is full, nothing changes. -/
def Says.RecordDrain : Prop :=
  (∀ die s pre r rest, s.xlate.held = pre ++ r :: rest → (∀ x ∈ pre, x.die ≠ die ∧ x.job ≠ r.job) → r.die = die →
    0 < s.ringRoom r.job → r.words.length = 4 →
    let tail := (s.reg (jobReg r.job 0x28)).toNat
    let at_ := bits (s.reg (jobReg r.job 0x10)) 51 12 * 4096 + tail % ringSize (s.reg (jobReg r.job 0x18)) * 32
    s.portsClear die at_ 32 = true → s.serves at_ 0 → s.sound at_ 32 →
    ∃ t, exec (.faultRecordDrain die) s = .next t ∧ t.xlate = { s.xlate with held := pre ++ rest } ∧
      t.host = { s.host with irqFault := true } ∧ t.reg (jobReg r.job 0x28) = BitVec.ofNat 64 ((tail + 1) % 2 ^ 32) ∧
      storesMem s t at_ (bytesOfWords r.words)) ∧
  ∀ die s, (∀ r ∈ s.xlate.held, r.die = die → s.ringRoom r.job = 0) → exec (.faultRecordDrain die) s = .next s

/-- R25 to R29, R55: KCMD with OP 01, 10 or 11. LOAD puts the pair in KMAT into an empty slot, GEN a drawn pair that is
not 0, DESTROY empties the slot and marks every region bound to it not live; the command is BUSY. A write that a rule of
Table 10 refuses sets ERR with its ECODE and does nothing else. Completion clears ERR, ECODE and BUSY and zeroes KMAT,
after DESTROY with every L1 empty. The pair that GEN draws is a free value (log 25). The order of the tests, the effect at the
write, and ERR and ECODE cleared at completion are the model's reading (log 37). -/
def Says.Keys : Prop :=
  (∀ v (s : State), ∀ i ∈ [(Instr.keyLoad v, 1), (.keyGen v, 2), (.keyDestroy v, 3)], bits v 1 0 = i.2 →
    let slot := bits v 11 2
    let inUse : Prop := ∃ j, j < 1024 ∧ (s.jobState j = 1 ∨ s.jobState j = 2) ∧ bits (s.reg (jobReg j 0x08)) 9 0 = slot
    let halves : Prop := s.kmat.extractLsb' 0 256 = s.kmat.extractLsb' 256 256
    let refused (code : Nat) : Prop := exec i.1 s = .next (s.setReg 0x148 (BitVec.ofNat 64 (code * 256 + 2)))
    (s.ctl.keyCmd ≠ none → refused 5) ∧
    (s.ctl.keyCmd = none → bits v 63 12 ≠ 0 → refused 4) ∧
    (s.ctl.keyCmd = none → bits v 63 12 = 0 →
      (slot = 0 → refused 1) ∧
      (slot ≠ 0 → i.2 = 3 → inUse → refused 2) ∧
      (slot ≠ 0 → i.2 ≠ 3 → s.ctl.keys.get slot ≠ 0 → refused 3) ∧
      (slot ≠ 0 → i.2 = 1 → s.ctl.keys.get slot = 0 → halves → refused 6) ∧
      (slot ≠ 0 → (i.2 = 3 → ¬ inUse) → (i.2 ≠ 3 → s.ctl.keys.get slot = 0) → (i.2 = 1 → ¬ halves) →
        ∃ t, exec i.1 s = .next t ∧ t = { s with mreg := t.mreg, ctl := t.ctl, free := t.free } ∧
          t.reg 0x140 = v ∧ otherRegs s t [0x140] ∧ t.mgmtRead 0x148 = s.reg 0x148 ||| 1 ∧
          t.ctl = { s.ctl with keys := t.ctl.keys, live := t.ctl.live, keyCmd := some v } ∧
          (∀ k, k ≠ slot → t.ctl.keys.get k = s.ctl.keys.get k) ∧
          (i.2 = 1 → t.ctl.keys.get slot = s.kmat) ∧ (i.2 = 2 → t.ctl.keys.get slot ≠ 0) ∧
          (i.2 = 3 → t.ctl.keys.get slot = 0) ∧
          ∀ r, t.liveEntry r = { s.liveEntry r with
            live := (s.liveEntry r).live && !(i.2 == 3 && (s.liveEntry r).key.toNat == slot) }))) ∧
  (∀ (s : State) k, k < 8 → s.kmat.extractLsb' (64 * k) 64 = s.reg (0x100 + 8 * k)) ∧
  ∀ s v, s.ctl.keyCmd = some v → ∃ t, exec .keyCommandComplete s = .next t ∧
    t.ctl = { s.ctl with keyCmd := none } ∧ t.kmat = 0 ∧ t.mgmtRead 0x148 = 0 ∧
    otherRegs s t [0x100, 0x108, 0x110, 0x118, 0x120, 0x128, 0x130, 0x138, 0x148] ∧
    (bits v 1 0 = 3 → ∀ k, (t.core k).l1 = []) ∧ (bits v 1 0 ≠ 3 → t = { s with mreg := t.mreg, ctl := t.ctl })

/-- R46, R55: LMCMD with OP 01 binds every region of LMFIRST and LMCOUNT that is not retired to the key slot, live and
zeroed; with OP 10 it clears LIVE. Other regions, their bytes and the errors of their atoms stay. A write that a rule
refuses sets ERR with its ECODE; completion empties every L1 and clears BUSY. LMCMD keeps its value after a refusal (log 83),
and the errors of a region that BIND zeroes are gone (log 90). -/
def Says.LiveMap : Prop :=
  (∀ v (s : State), ∀ i ∈ [(Instr.bindRegions v, 1), (.unbindRegions v, 2)], bits v 1 0 = i.2 →
    let key := bits v 11 2
    let first := bits (s.reg 0x408) 30 0
    let n := bits (s.reg 0x410) 16 0
    let refused (code : Nat) : Prop := exec i.1 s = .next (s.setReg 0x418 (BitVec.ofNat 64 (code * 256 + 2)))
    let size : Nat := if (s.reg 0x428).getLsbD 5 then 1080 else 1152
    let ready : Prop := s.ctl.lmCmd = none ∧ bits v 63 12 = 0
    let sized : Prop := n ≠ 0 ∧ n ≤ 65536
    let within : Prop := (first + n) * 2 ^ 21 ≤ size * 2 ^ 30
    let keyed : Prop := i.2 = 2 ∨ key = 0 ∨ s.ctl.keys.get key ≠ 0
    (s.ctl.lmCmd ≠ none → refused 5) ∧
    (s.ctl.lmCmd = none → bits v 63 12 ≠ 0 → refused 6) ∧
    (ready → ¬ sized → refused 2) ∧
    (ready → sized → ¬ within → refused 3) ∧
    (ready → sized → within → ¬ keyed → refused 4) ∧
    (ready → sized → within → keyed → ∃ t, exec i.1 s = .next t ∧
      t = { s with mreg := t.mreg, ctl := t.ctl, mem := t.mem } ∧ t.reg 0x400 = v ∧ t.mgmtRead 0x418 = 1 ∧
      otherRegs s t [0x400, 0x418] ∧
      t.ctl = { s.ctl with live := t.ctl.live, flaws := t.ctl.flaws, lmCmd := some (v, first, n) } ∧
      (∀ e, e ∈ t.ctl.flaws ↔ e ∈ s.ctl.flaws ∧ ¬ (i.2 = 1 ∧ first ≤ e.atom / 32768 ∧ e.atom / 32768 < first + n ∧
        (s.liveEntry (e.atom / 32768)).ret = false)) ∧
      (∀ r, t.liveEntry r =
        if ¬ (first ≤ r ∧ r < first + n) then s.liveEntry r
        else if i.2 = 2 then { s.liveEntry r with live := false }
        else if (s.liveEntry r).ret then s.liveEntry r else ⟨true, BitVec.ofNat 10 key, false⟩) ∧
      ∀ a, t.mem.byte a =
        if i.2 = 1 ∧ first ≤ regionOf a ∧ regionOf a < first + n ∧ (s.liveEntry (regionOf a)).ret = false then 0
        else s.mem.byte a)) ∧
  ∀ s x, s.ctl.lmCmd = some x → ∃ t, exec .liveMapCommandComplete s = .next t ∧
    t = { s with cores := t.cores, net := t.net, ctl := { s.ctl with lmCmd := none } } ∧ ∀ k, (t.core k).l1 = []

/-- R25 to R29, R32, R46, R55: the key commands, the live-map commands, and the drain of held fault records. The model's own
readings in it are those of logs 25, 37, 83 and 90. -/
def Obligations.KeysLiveMapAndRecords : Prop := Says.Keys ∧ Says.LiveMap ∧ Says.RecordDrain

/-- R36, R47, R48, R49: MPOINT and EYECMD are refused with ERR while a memory command is BUSY. A switch holds every port
until its release, which changes MPSTAT's point once no request has a tag; RETRAIN holds one stack until it is done;
REPAIR moves the named lane onto the first free spare of the channel. EYESTAT keeps the smallest margin since its last
read with its channel and lane; a margin that falls below an enabled threshold sets ALERT, and the alert, which comes
due, is logged and raises the eye interrupt; a read clears ALERT and restarts MARGIN at 255. The atom of an alert's
entry is a free value; that, the refusals while a live-map command is BUSY, the first free spare and the alert on crossing
are the model's readings (log 38), and reserved bits of MPOINT and EYECMD are dropped (log 82). -/
def Obligations.LinkCommands : Prop :=
  let err (s : State) (i : Instr) : Prop := exec i s = .next (s.setReg 0x428 (setBits (s.reg 0x428) 1 1 1))
  let mpFree (s : State) : Prop := s.ctl.mpoint = none ∧ s.ctl.retrain = [] ∧ s.ctl.lmCmd = none
  let eye (k o : Nat) : Nat := 0x1000 + k * 0x20 + o
  let clear (s : State) : Word := setBits (s.reg 0x428) 1 1 0
  (∀ (v : Word) (s : State), ((s.ctl.mpoint ≠ none ∨ s.ctl.retrain ≠ [] ∨ s.ctl.lmCmd ≠ none) ∨ bits v 1 0 = 3 →
      err s (.mpointSwitch v)) ∧
    (mpFree s → bits v 1 0 ≠ 3 → ∃ t, exec (.mpointSwitch v) s = .next t ∧ t.reg 0x420 = v &&& 3 ∧
      t.reg 0x428 = clear s ∧ otherRegs s t [0x420, 0x428] ∧
      t = { s with mreg := t.mreg, ctl := { s.ctl with mpoint := some (v.setWidth 2) } } ∧
      ∀ die stack, t.portBusy die stack = true)) ∧
  (∀ (s : State) pt, s.ctl.mpoint = some pt →
    (s.net.txns.any (fun e => e.2.tagged) = true → exec .mpointRelease s = .next s) ∧
    (s.net.txns.any (fun e => e.2.tagged) = false → ∃ t, exec .mpointRelease s = .next t ∧
      bits (t.reg 0x428) 7 6 = pt.toNat ∧ (∀ j, j ≠ 6 → j ≠ 7 → (t.reg 0x428).getLsbD j = (s.reg 0x428).getLsbD j) ∧
      otherRegs s t [0x428] ∧ t = { s with mreg := t.mreg, ctl := { s.ctl with mpoint := none } })) ∧
  (∀ k (v : Word) (s : State), k < 12 →
    (bits v 1 0 = 1 → s.memBusy = true → err s (.retrain k v)) ∧
    (bits v 1 0 = 1 → mpFree s → ∃ t, exec (.retrain k v) s = .next t ∧ t.reg (eye k 0x10) = v &&& 0x1FFF ∧
      t.reg 0x428 = clear s ∧ otherRegs s t [eye k 0x10, 0x428] ∧
      t = { s with mreg := t.mreg, ctl := { s.ctl with retrain := s.ctl.retrain ++ [k] } } ∧
      ∀ die, t.portBusy die k = true) ∧
    (∃ t, exec (.retrainDone k) s = .next t ∧ t = { s with ctl := { s.ctl with retrain := t.ctl.retrain } } ∧
      ∀ j, j ∈ t.ctl.retrain ↔ j ∈ s.ctl.retrain ∧ j ≠ k) ∧
    (bits v 1 0 = 2 →
      let c := bits v 12 8
      let rep := s.reg (eye k 0x18)
      (s.memBusy = true ∨ bits rep (2 * c + 1) (2 * c) = 3 → err s (.repair k v)) ∧
      (mpFree s → bits rep (2 * c + 1) (2 * c) ≠ 3 → ∃ t, exec (.repair k v) s = .next t ∧
        t.reg (eye k 0x10) = v &&& 0x1FFF ∧ t.reg 0x428 = clear s ∧
        t.reg (eye k 0x18) = rep ||| ((1#64) <<< (if rep.getLsbD (2 * c) then 2 * c + 1 else 2 * c)) ∧
        otherRegs s t [eye k 0x10, eye k 0x18, 0x428] ∧ t = { s with mreg := t.mreg, ctl := { s.ctl with
          repairs := s.ctl.repairs ++ [(k, if rep.getLsbD (2 * c) then 2 * c + 1 else 2 * c, bits v 7 2)] } }))) ∧
  (∀ k (s : State), k < 12 → ∃ t, exec (.eyestatRead k) s = .next t ∧ otherRegs s t [eye k 0] ∧
    t = { s with mreg := t.mreg } ∧
    t.reg (eye k 0) = (s.reg (eye k 0) &&& ~~~0x1FF#64) ||| 0xFF) ∧
  (∀ k c l m (s : State), k < 12 →
    (bits (s.reg (eye k 0)) 7 0 ≤ m.toNat → exec (.eyeMarginMeasurement k c l m) s = .next s) ∧
    (m.toNat < bits (s.reg (eye k 0)) 7 0 → ∃ t, exec (.eyeMarginMeasurement k c l m) s = .next t ∧
      let thr := s.reg (eye k 8)
      let falls := thr.getLsbD 8 && decide (m.toNat < bits thr 7 0) && decide (bits thr 7 0 ≤ bits (s.reg (eye k 0)) 7 0)
      otherRegs s t [eye k 0] ∧ bits (t.reg (eye k 0)) 7 0 = m.toNat ∧
      bits (t.reg (eye k 0)) 18 13 = l.toNat ∧ bits (t.reg (eye k 0)) 23 19 = c.toNat ∧
      (t.reg (eye k 0)).getLsbD 8 = (falls || (s.reg (eye k 0)).getLsbD 8) ∧
      t = { s with mreg := t.mreg, ctl := { s.ctl with
        alerts := s.ctl.alerts ++ (if falls then [(k, c.toNat)] else []) } })) ∧
  ∀ k (s : State), k < 12 →
    ((∀ a ∈ s.ctl.alerts, a.1 ≠ k) → exec (.eyeAlert k) s = .next s) ∧
    (∀ c, c < 32 → s.ctl.alerts.find? (fun a => a.1 == k) = some (k, c) → ∃ t, exec (.eyeAlert k) s = .next t ∧
      t = { s with mreg := t.mreg, ctl := { s.ctl with alerts := s.ctl.alerts.erase (k, c) },
                   host := { s.host with eye := s.host.eye + 1 }, free := t.free } ∧
      (s.reg 0x438 = s.reg 0x440 →
        t.reg 0x438 = s.reg 0x438 + 1 ∧ bits (t.reg (logReg (s.reg 0x438).toNat 1)) 63 56 = 6 ∧
        bits (t.reg (logReg (s.reg 0x438).toNat 1)) 55 52 = k ∧
        bits (t.reg (logReg (s.reg 0x438).toNat 1)) 51 47 = c ∧
        (t.reg (logReg (s.reg 0x438).toNat 2)).toNat = s.clk.toNat % 2 ^ 32))

/-- R14 to R20, R22, R55: table walks, and the invalidation commands with their completion; logs 11 and 44 name what of it is
the model's choice. -/
def Obligations.WalksAndInvalidation : Prop :=
  Says.TableWalks ∧ Says.Invalidation

/-- R37 to R44, R60: a base die performs a request that it has accepted, in its order (`mayPerform`): RD reads whole
atoms, WR writes them, WRM writes the enabled bytes of one, ATM writes what its operation gives and replies with the old
value, GRD packs its elements in entry order, GWR writes them in entry order, the last of several to a byte. The reply's
status is that of the region: retired, not live, bound to another key, or an error of the cells, an earlier one too; a
request that is not performed leaves memory alone and reads zeros. A malformed one performs nothing and is answered
BADPKT, with a log entry. ATM and GWR owe a crossing notice, and so does a write of the task unit, which passes no slice;
the notice closes every open Lens entry for their lines. That both atoms of a poisoned RD read zeros is log 70; the errors
that atoms hold, and that a whole write clears, are log 91; the order of `mayPerform` between two atoms of a line is
log 72. -/
def Obligations.MemoryRequests : Prop :=
  let accepted (s : State) (id : Nat) (x : Txn) (op : PacketOp) : Prop :=
    s.txn? id = some x ∧ x.op = op ∧ ∃ n, x.phase = .sent n ∧ s.mayPerform x n = true
  let stands (s : State) (id : Nat) (x : Txn) (op : PacketOp) : Prop := accepted s id x op ∧ x.badPacket = false
  let only (s t : State) : Prop := t = { s with net := t.net, mem := t.mem }
  let refusal (s : State) (pa : Nat) (key : BitVec 10) : Option Status :=
    let e := s.liveEntry (regionOf pa)
    if e.ret then some .retired else if !e.live then some .notLive else if e.key ≠ key then some .keyMismatch else none
  (∀ id s x, stands s id x .rd →
    let n := x.cnt * 64
    let lost (t : State) (a : Nat) : Prop := t.mem = s.mem ∧
      t.txn? id = some { x with status := .poison, data := List.replicate n 0, phase := .performed x.unit } ∧
      t.liveEntry (a / 32768) = { s.liveEntry (a / 32768) with ret := true }
    (s.serves x.pa x.key → s.sound x.pa n → ∃ t, exec (.rd id []) s = .next t ∧ only s t ∧ t.mem = s.mem ∧
      t.txn? id = some { x with status := .ok, data := s.mem.read x.pa n, phase := .performed x.unit }) ∧
    (∀ st, refusal s x.pa x.key = some st → ∃ t, exec (.rd id []) s = .next t ∧ t.mem = s.mem ∧
      t.txn? id = some { x with status := st, data := List.replicate n 0, phase := .performed x.unit }) ∧
    ∀ a, s.serves x.pa x.key → x.pa / 64 ≤ a → a ≤ (x.pa + n - 1) / 64 → x.pa / 2097152 = a / 32768 →
      (s.sound x.pa n → ∃ t, exec (.rd id [⟨a, true⟩]) s = .next t ∧ lost t a ∧ t.host.mcheck = s.host.mcheck + 1) ∧
      (⟨a, true⟩ ∈ s.ctl.flaws → ∃ t, exec (.rd id []) s = .next t ∧ lost t a)) ∧
  (∀ id s x, stands s id x .wr → (x.cnt = 1 ∨ x.cnt = 2) → x.data.length = 64 * x.cnt →
    (s.serves x.pa x.key → (s.sound x.pa x.data.length ∨ (s.reg 0x428).getLsbD 5 = false) →
      ∃ t, exec (.wr id) s = .next t ∧ storesMem s t x.pa x.data ∧ t.sound x.pa x.data.length ∧
        t = { s with net := t.net, mem := t.mem, ctl := { s.ctl with flaws := t.ctl.flaws } } ∧
        (s.sound x.pa x.data.length → only s t) ∧ t.txn? id = some { x with status := .ok, phase := .performed x.unit }) ∧
    (∀ st, refusal s x.pa x.key = some st → ∃ t, exec (.wr id) s = .next t ∧ t.mem = s.mem ∧
      t.txn? id = some { x with status := st, phase := .performed x.unit })) ∧
  (∀ id s x, stands s id x .wrm → s.serves x.pa x.key → s.sound x.pa x.data.length →
    ∃ t, exec (.wrm id []) s = .next t ∧ only s t ∧
    t.txn? id = some { x with status := .ok, phase := .performed x.unit } ∧
    ∀ a, t.mem.byte a = if x.pa ≤ a ∧ a < x.pa + x.data.length ∧ x.bmask.getLsbD (a - x.pa) = true
      then x.data.getD (a - x.pa) 0 else s.mem.byte a) ∧
  (∀ id s x e es, stands s id x .atm → x.elems = e :: es → s.serves x.pa x.key →
    let n := typWidth x.typ / 8
    s.sound x.pa n →
    let op := x.aop.toNat % 16
    let old := BitVec.ofNat 64 (natOfBytes (s.mem.read x.pa n))
    ∃ t, exec (.atm id []) s = .next t ∧ only s t ∧
      t.txn? id = some { x with status := .ok, data := bytesOfWord old, phase := .performed true } ∧
      storesMem s t x.pa (if aopWrites op x.typ old e.cmp then bytesOfNat n (aopNew op x.typ old e.data e.cmp).toNat else [])) ∧
  (∀ id s x, stands s id x .grd → (∀ e ∈ x.elems, s.serves e.pa x.key ∧ s.sound e.pa e.size) →
    ∃ t, exec (.grd id []) s = .next t ∧ only s t ∧ t.mem = s.mem ∧
      t.txn? id = some { x with
        status := .ok, data := (x.elems.map (fun e => s.mem.read e.pa e.size)).flatten, pmask := [], mism := []
        phase := .performed x.unit }) ∧
  (∀ id s x, stands s id x .gwr → (∀ e ∈ x.elems, s.sound e.pa e.size) →
    ∃ t, exec (.gwr id) s = .next t ∧
      (∀ a, t.mem.byte a =
        match x.elems.reverse.find? (fun e => refusal s e.pa x.key == none && decide (e.pa ≤ a) &&
          decide (a < e.pa + e.size)) with
        | some e => (bytesOfNat e.size e.data.toNat).getD (a - e.pa) 0
        | none => s.mem.byte a) ∧
      ((∀ e ∈ x.elems, s.serves e.pa x.key) → only s t ∧
        t.txn? id = some { x with status := .ok, pmask := [], mism := [], phase := .performed true })) ∧
  (∀ id s x op i notice, accepted s id x op → x.badPacket = true → x.die < 4 → x.job < 1024 →
    (op, i, notice) ∈ [(PacketOp.rd, Instr.rd id [], false), (.wr, .wr id, false), (.wrm, .wrm id [], false),
      (.atm, .atm id [], true), (.grd, .grd id [], false), (.gwr, .gwr id, true)] →
    ∃ t, exec i s = .next t ∧ t = { s with net := t.net, mreg := t.mreg } ∧
      t.txn? id = some { x with status := .badPkt, phase := .performed (notice || x.unit) } ∧
      (s.reg 0x438 = s.reg 0x440 →
        t.reg 0x438 = s.reg 0x438 + 1 ∧ bits (t.reg (logReg (s.reg 0x438).toNat 1)) 63 56 = 7)) ∧
  ∀ id s x, s.txn? id = some x → x.phase = .performed true → ∃ t, exec (.crossingNotice id) s = .next t ∧
    t = { s with mreg := t.mreg, net := t.net } ∧ t.txn? id = some { x with phase := .performed false } ∧
    ∀ k e, t.net.lens.get? k = some e → e.isOpen = true → e.line ∉ x.lines

/-- R39, R43, R297, R379, R118, R124, R36: the reply to a request reaches the wave that awaits it: the request is gone,
the access counts one answer, and its last ends it (a request of an engine or a Lens entry keeps its reply for it); a
store writes no register, an element of a gather goes to its lane, a value from another device to the scalar register; a
reply of a retired region or a failed link is held as the trap it will raise. The reply to an evicted wave goes to its
register image. A port sends the request held longest, once it can, under the lowest free tag (the choice of the tag is
the model's: R36 names none). -/
def Obligations.Replies : Prop :=
  (∀ id s x u core slot w o, s.txn? id = some x → x.phase = .performed false → s.net.lens.get? id = none →
    x.owner = false → x.users = [u] → awaited s u core slot w o →
    let lands (t : State) (w' : Wave) : Prop := exec (.packetReply id) s = .next t ∧ t.txn? id = none ∧
      t.mem = s.mem ∧ t.wave? core slot = some w' ∧ w'.work.outs = answeredOut w.work.outs o ∧ w'.ident = w.ident
    (u.dest = .none → x.status = .ok → ∃ t w', lands t w' ∧
      w' = { w with frags := w'.frags, work := { w.work with outs := w'.work.outs } }) ∧
    (x.op = .grd → x.status = .ok → ∀ r, u.dest = .vector r → is64 u.typ = false → x.esz * 8 = typWidth u.typ →
      ∃ t w', lands t w' ∧ w'.scl = w.scl ∧ w'.pred = w.pred ∧
        (∀ (k : Nat) e, x.elems[k]? = some e → e.size = x.esz → e.lane < 128 →
          (∀ j e', x.elems[j]? = some e' → e'.lane = e.lane → j = k) →
          w'.lane32 r e.lane = (laneLoaded u.typ (natOfBytes ((x.data.drop (k * x.esz)).take x.esz))).extractLsb' 0 32) ∧
        ∀ q l, l < 128 → (q ≠ r ∨ ∀ e ∈ x.elems, e.lane ≠ l) → w'.lane32 q l = w.lane32 q l) ∧
    (x.op = .wr → x.status = .retired → u.elems ≠ [] → (∀ d ∈ w.work.deferred, d.out ≠ o.id) → ∃ t w', lands t w' ∧
      ∃ d, w'.work.deferred = w.work.deferred ++ [d] ∧ d.cause = 0x07 ∧ d.out = o.id)) ∧
  (∀ id s x, s.txn? id = some x → x.phase = .performed false → (s.net.lens.has id = true ∨ x.owner = true) →
    exec (.packetReply id) s = .next (s.setTxn id { x with phase := .replied })) ∧
  (∀ id s x u e core slot w o bs, s.txn? id = some x → x.phase = .remote → x.users = [u] → awaited s u core slot w o →
    s.net.txns.any (fun e => decide (e.1 < id) && e.2.core == x.core && e.2.phase == .remote && e.2.meets x) = false →
    s.recordOfGrid id = none → x.own = false → u.elems = [e] →
    (x.op = .rd → e.size = 8 → e.pa = x.pa → bs.length = 8 → ∀ r frag, u.dest = .scalar r frag → 1 ≤ r.toNat →
      r.toNat < 176 →
      ∃ t w', exec (.remoteReply id (.data bs)) s = .next t ∧ t.txn? id = none ∧ t.mem = s.mem ∧
        t.wave? core slot = some w' ∧ w'.work.outs = answeredOut w.work.outs o ∧
        w'.scl.get r.toNat = wordOfBytes bs ∧ ∀ k, k ≠ r.toNat → w'.scl.get k = w.scl.get k) ∧
    ((∀ d ∈ w.work.deferred, d.out ≠ o.id) → (x.op = .rd ∨ x.op = .wr ∨ x.op = .atm) →
      ∃ t w' d, exec (.remoteReply id .linkError) s = .next t ∧ t.txn? id = none ∧ t.wave? core slot = some w' ∧
        w'.work.outs = answeredOut w.work.outs o ∧ w'.work.deferred = w.work.deferred ++ [d] ∧ d.cause = 0x27 ∧
        d.out = o.id)) ∧
  (∀ id s x u a o, s.txn? id = some x → x.phase = .replied → s.net.lens.has id = false → x.owner = false → x.users = [u] →
    x.status = .ok → s.awayClear u.uid (x.imageRanges u) = true →
    s.rdivClosed u.uid = false → s.findWave u.uid = none → s.away.get? u.uid = some a →
    a.outs.find? (fun y => y.id == u.out) = some o →
    (u.dest = .none → exec (.replyDiversion id) s =
      .next { s.delTxn id with away := s.away.set u.uid (a.answered u.out) }) ∧
    (∀ e r frag, u.dest = .scalar r frag → 1 ≤ r.toNat → r.toNat < 176 → x.op = .atm → u.elems = [e] → e.size = 8 →
      x.data.length = 8 → s.sound (a.image + 0x400 + r.toNat * 8) 8 →
        s.serves (a.image + 0x400 + r.toNat * 8) (BitVec.ofNat 10 (bits (s.reg (jobReg a.ident.job 0x08)) 9 0)) →
      ∃ t, exec (.replyDiversion id) s = .next t ∧ t.txn? id = none ∧ t.waves = s.waves ∧
        t.away = s.away.set u.uid (a.answered u.out) ∧ storesMem s t (a.image + 0x400 + r.toNat * 8) x.data)) ∧
  ∀ die stack s id x, s.portHead die stack = some (id, x) →
    (s.portBusy die stack = true → exec (.portQueueRelease die stack) s = .next s) ∧
    (s.portBusy die stack = false → exec (.portQueueRelease die stack) s = .next
      ({ s with net := { s.net with nextId := s.net.nextId + 1 } }.setTxn id
        { x with phase := .sent s.net.nextId, tag := s.freeTag die stack })) ∧
    x.die = die ∧ x.stack = stack ∧ ∃ n, x.phase = .held n ∧
      ∀ e ∈ s.net.txns, e.2.die = die → e.2.stack = stack → ∀ m, e.2.phase = .held m → n ≤ m

/-- R56 to R61, R53: a read request that reaches its slice joins an open entry of its line, key and job that has room,
and no packet is sent; otherwise, with an entry free and none waiting before it, it opens one and the entry's RD goes;
otherwise it waits in the intake, which keeps the order of arrival and releases its oldest request that can be taken: any once
an entry frees, and before that one whose line has an open entry with room. Each wave that shares the request counts once
(R61). A read waits for the replies of older stores of its core to the line, a write for older requests of its core to it
(log 45). A write that passes closes every open entry of its line. An
entry's reply serves its requester, fills the L1 where the request asks for it, and frees the entry. -/
def Obligations.LensSlices : Prop :=
  let opens (s t : State) (id slice : Nat) (x : Txn) : Prop :=
    t.net.lens.get? s.net.nextId = some ⟨slice, x.pa / 128, x.key, x.job, [id], true⟩ ∧
    (∃ y, t.txn? id = some y ∧ y.phase = .entry s.net.nextId ∧ y.users = x.users) ∧
    (∃ y, t.txn? s.net.nextId = some y ∧ y.op = x.op ∧ y.pa = x.pa ∧ y.key = x.key ∧ y.users = [] ∧
      ∃ n, y.phase = .sent n ∨ y.phase = .held n) ∧ t.mem = s.mem ∧ t.waves = s.waves
  let waves (x : Txn) : Nat := if x.owner then 1 else (x.users.map (·.uid)).eraseDups.length
  (∀ id s x, s.txn? id = some x → x.phase = .made → x.op = .rd → x.stack < 12 → id < s.net.nextId →
    (s.readWaits id x = true → exec (.lensReadRequest id) s = .next s) ∧
    (s.readWaits id x = false →
      (∀ k e, (s.openEntries x).find? (fun e => decide (e.2.reqs.length < 64)) = some (k, e) →
        ∃ t, exec (.lensReadRequest id) s = .next t ∧ t = { s with mreg := t.mreg, net := t.net } ∧
          t.net.lens.get? k = some { e with reqs := e.reqs ++ [id] } ∧
          t.txn? id = some { x with phase := .entry k, seen := x.users.length } ∧
          (∀ j, j ≠ id → t.txn? j = s.txn? j) ∧
          t.reg (lensReg x.stack 0) = s.reg (lensReg x.stack 0) + BitVec.ofNat 64 (waves x) ∧
          t.reg (lensReg x.stack 8) = s.reg (lensReg x.stack 8) + BitVec.ofNat 64 (waves x)) ∧
      ((s.openEntries x).find? (fun e => decide (e.2.reqs.length < 64)) = none →
        (s.lensUsed x.stack < 8192 → s.intakeBusy x.stack = false →
          ∃ t, exec (.lensReadRequest id) s = .next t ∧ opens s t id x.stack x ∧
            t.reg (lensReg x.stack 0x10) = s.reg (lensReg x.stack 0x10) + 1 ∧
            t.reg (lensReg x.stack 8) = s.reg (lensReg x.stack 8) + BitVec.ofNat 64 (waves x - 1)) ∧
        (8192 ≤ s.lensUsed x.stack ∨ s.intakeBusy x.stack = true →
          ∃ t, exec (.lensReadRequest id) s = .next t ∧ t.net.lens = s.net.lens ∧
            t.txn? id = some { x with phase := .intake s.net.nextId, seen := x.users.length })))) ∧
  let room (s : State) (x : Txn) : Option (Nat × LensEntry) := (s.openEntries x).find? (fun e => decide (e.2.reqs.length < 64))
  (∀ slice (s : State),
    (∀ e, e ∈ s.intake slice ↔ e ∈ s.net.txns ∧ e.2.stack = slice ∧ ∃ n, e.2.phase = .intake n) ∧
    List.Pairwise (fun a b => a.2.intakeAt.getD 0 ≤ b.2.intakeAt.getD 0) (s.intake slice) ∧
    (∀ id x rest, s.intake slice = (id, x) :: rest → id < s.net.nextId → room s x = none → s.lensUsed slice < 8192 →
      ∃ t, exec (.lensIntakeRelease slice) s = .next t ∧ opens s t id slice x) ∧
    (∀ pre id x rest k e, s.intake slice = pre ++ (id, x) :: rest → room s x = some (k, e) →
      (pre = [] ∨ 8192 ≤ s.lensUsed slice ∧ ∀ y ∈ pre, room s y.2 = none) →
      ∃ t, exec (.lensIntakeRelease slice) s = .next t ∧ t = { s with mreg := t.mreg, net := t.net } ∧
        t.net.lens.get? k = some { e with reqs := e.reqs ++ [id] } ∧ t.txn? id = some { x with phase := .entry k } ∧
        ∀ j, j ≠ id → t.txn? j = s.txn? j) ∧
    (8192 ≤ s.lensUsed slice → (∀ y ∈ s.intake slice, room s y.2 = none) →
      exec (.lensIntakeRelease slice) s = .next s)) ∧
  (∀ id s x, s.txn? id = some x → x.phase = .made → x.op = .wr ∨ x.op = .wrm →
    (x.owner = false → s.mustWait id x = true → exec (.lensWritePassage id) s = .next s) ∧
    ((x.owner = true ∨ s.mustWait id x = false) → ∃ t, exec (.lensWritePassage id) s = .next t ∧
      t = { s with mreg := t.mreg, net := t.net } ∧
      (∃ y n, t.txn? id = some y ∧ y = { x with phase := y.phase, tag := y.tag } ∧ (y.phase = .sent n ∨
        y.phase = .held n)) ∧
      ∀ k e, t.net.lens.get? k = some e → e.isOpen = true → e.line ≠ x.pa / 128)) ∧
  ∀ id s e x r y u el core slot w o, s.net.lens.get? id = some e → s.txn? id = some x → x.phase = .replied →
    x.status = .ok → e.reqs = [r] → r ≠ id → s.txn? r = some y → y.op = .rd → y.owner = false → y.users = [u] →
      u.elems = [el] →
    awaited s u core slot w o → o.clear = false →
    ∃ t w', exec (.lensEntryReply id) s = .next t ∧ t.net.lens.get? id = none ∧ t.txn? id = none ∧ t.txn? r = none ∧
      t.mem = s.mem ∧ t.wave? core slot = some w' ∧ w'.work.outs = answeredOut w.work.outs o ∧
      (∀ q frag, u.dest = .scalar q frag → 1 ≤ q.toNat → q.toNat < 176 → el.size = 8 →
        w'.scl.get q.toNat = wordOfBytes ((x.data.drop (el.pa - y.pa)).take 8) ∧
        ∀ k, k ≠ q.toNat → w'.scl.get k = w.scl.get k) ∧
      (y.fill = true → (t.core y.core).l1.head? = some ⟨x.pa / 128, x.key, x.job, BitVec.ofNat 1024 (natOfBytes x.data)⟩)

/-- R10, R12, R13, R23, R60, R151, R184, R215, R406: what the host and a peer do. A host access to populated memory runs
under the key of its region; one to a hole is an error completion or a discarded write; one of the management window reads
or writes a register, and a write of a command register is that command. A store to a queue's page appends an entry, or
counts in QERR; the entry stands in memory at once where the queue's port is clear. A peer's access runs under the key it
carries, and its status goes back. A register write drops reserved bits where its rule says nothing of them (log 82). -/
def Obligations.HostAccesses : Prop :=
  (∀ off size (s : State) k, 0 < size → off + size ≤ s.populated → regionOf (off + size - 1) = regionOf off →
    s.liveEntry (regionOf off) = ⟨true, k, false⟩ → s.sound off size →
    exec (.hostMemoryRead off size []) s =
      .next { s with host := { s.host with reply := some (some (s.mem.read off size)) } }) ∧
  (∀ off size ecc (s : State), 0 < size → s.populated < off + size → off + size ≤ 0x20000000000 →
    exec (.hostMemoryRead off size ecc) s = .next { s with host := { s.host with reply := some none } }) ∧
  (∀ o ecc (s : State), o + 8 ≤ 0x1000000 → o % 8 = 0 → (o < 0x1000 ∨ 0x1180 ≤ o) →
    exec (.hostMemoryRead (0x20001000000 + o) 8 ecc) s =
      .next { s with host := { s.host with reply := some (some (bytesOfWord (s.mgmtRead o))) } }) ∧
  (∀ off bs m (s : State) k, bs ≠ [] → off + bs.length ≤ s.populated → regionOf (off + bs.length - 1) = regionOf off →
    s.liveEntry (regionOf off) = ⟨true, k, false⟩ → s.sound off bs.length →
    ∃ t, exec (.hostMemoryWrite off bs m) s = .next t ∧ t = { s with mem := t.mem, mreg := t.mreg, net := t.net } ∧
      storesMem s t off bs ∧
      ∀ j e, t.net.lens.get? j = some e → e.isOpen = true → ∀ a, off ≤ a → a < off + bs.length → e.line ≠ a / 128) ∧
  (∀ off bs m (s : State), bs ≠ [] → s.populated < off + bs.length → off + bs.length ≤ 0x20000000000 →
    exec (.hostMemoryWrite off bs m) s = .next { s with host := { s.host with drops := s.host.drops + 1 } }) ∧
  (∀ o bs m (s : State), bs ≠ [] → o + bs.length ≤ 0x1000000 →
    exec (.hostMemoryWrite (0x20001000000 + o) bs m) s = exec (.registerWrite o bs) s) ∧
  (∀ q o bs m (s : State), bs ≠ [] → q < 64 → o + bs.length ≤ 4096 →
    exec (.hostMemoryWrite (0x20000000000 + q * 4096 + o) bs m) s = exec (.queueApertureStore q o bs) s) ∧
  (∀ o bs (s : State), (bs.length ≠ 8 ∨ o % 8 ≠ 0) →
    exec (.registerWrite o bs) s = .next { s with host := { s.host with drops := s.host.drops + 1 } }) ∧
  (∀ (v : Word) (s : State) j q, j < 1024 → q < 64 →
    let w (o : Nat) (i : Instr) : Prop := exec (.registerWrite o (bytesOfWord v)) s = exec i s
    (bits v 1 0 = 1 → w 0x008 (.tlbInvalidateAll v) ∧ w 0x140 (.keyLoad v) ∧ w 0x400 (.bindRegions v) ∧
      w 0x500 (.verify v)) ∧
    (bits v 1 0 = 2 → w 0x008 (.tlbInvalidateJob v) ∧ w 0x140 (.keyGen v) ∧ w 0x400 (.unbindRegions v) ∧
      w 0x500 (.install v)) ∧
    (bits v 1 0 = 3 → w 0x008 (.tlbInvalidateRange v) ∧ w 0x140 (.keyDestroy v)) ∧
    w 0x420 (.mpointSwitch v) ∧ w 0x538 (.dumpstatClear v) ∧
    (∀ k, k < 12 → (bits v 1 0 = 1 → w (0x1010 + k * 0x20) (.retrain k v)) ∧
      (bits v 1 0 = 2 → w (0x1010 + k * 0x20) (.repair k v))) ∧
    (v.getLsbD 1 = true → w (jobReg j 0x80) (.debugHalt j v)) ∧ (v.getLsbD 1 = false →
      w (jobReg j 0x80) (.debugRelease j v)) ∧
    (bits v 3 2 = 1 → w (jobReg j 0x88) (.create j v)) ∧ (bits v 3 2 = 2 → w (jobReg j 0x88) (.endJob j v)) ∧
    (v.getLsbD 0 = true → w (queueReg q 0) (.queueEnable q v)) ∧ (v.getLsbD 0 = false →
      w (queueReg q 0) (.queueDisable q v))) ∧
  (∀ (v : Word) (s : State) j, j < 1024 →
    let plain (o : Nat) (m : Word) : Prop := exec (.registerWrite o (bytesOfWord v)) s = .next (s.setReg o (v &&& m))
    plain (jobReg j 0x00) 0x000FFFFFFFFFF001 ∧ plain (jobReg j 0x08) 0x3FF ∧ plain (jobReg j 0x10) 0x000FFFFFFFFFF000 ∧
    plain (jobReg j 0x60) 0x01FFFFFFFFFFFFFD ∧ plain (jobReg j 0x68) 0xFFFFFFFF ∧ plain 0x408 0x7FFFFFFF ∧
    plain 0x410 0x1FFFF ∧ plain 0x100 (BitVec.allOnes 64)) ∧
  (∀ q bs (s : State), q < 64 → s.queueOn q = true → s.queueCount q ≠ s.queueSize q → s.jobState (s.queueJob q) = 1 →
    s.serves (s.queueSlot q (s.queueTail q)) 0 → s.sound (s.queueSlot q (s.queueTail q)) bs.length →
    s.portsClear (queueDie q) (s.queueSlot q (s.queueTail q)) bs.length = true →
    ((s.queueData q = true ∧ bs.length = 8) ∨ (s.queueData q = false ∧ bs.length = 64 ∧
      taskMalformed (wordsOfBytes 8 bs) = false ∧ taskWen (wordsOfBytes 8 bs) = false)) →
    ∃ t, exec (.queueApertureStore q 0 bs) s = .next t ∧ storesMem s t (s.queueSlot q (s.queueTail q)) bs ∧
      t.reg (queueReg q 0x20) = BitVec.ofNat 64 ((s.queueTail q + 1) % 2 ^ 32) ∧
      t.reg (queueReg q 0x28) = s.reg (queueReg q 0x28) ∧ t.sched = s.sched ∧ t.waves = s.waves) ∧
  (∀ q o bs (s : State), q < 64 → (o ≠ 0 ∨ s.queueOn q = false ∨ s.queueCount q = s.queueSize q ∨
      s.jobState (s.queueJob q) ≠ 1 ∨ (s.queueData q = true ∧ bs.length ≠ 8) ∨ (s.queueData q = false ∧ bs.length ≠ 64)) →
    exec (.queueApertureStore q o bs) s = .next (s.setReg (queueReg q 0x28) (s.reg (queueReg q 0x28) + 1))) ∧
  ∀ dev pa key (s : State),
    (∀ n, s.serves pa key → s.sound pa n → exec (.peerAccessArrival ⟨dev, pa, key, .read n, []⟩) s =
      .next { s with host := { s.host with peer := some (.ok, s.mem.read pa n) } }) ∧
    (∀ n, (s.liveEntry (regionOf pa)).live = true → (s.liveEntry (regionOf pa)).ret = false →
      (s.liveEntry (regionOf pa)).key ≠ key → exec (.peerAccessArrival ⟨dev, pa, key, .read n, []⟩) s =
        .next { s with host := { s.host with peer := some (.keyMismatch, List.replicate n 0) } }) ∧
    (∀ bs, s.serves pa key → s.sound pa bs.length →
      ∃ t, exec (.peerAccessArrival ⟨dev, pa, key, .write bs, []⟩) s = .next t ∧
      storesMem s t pa bs ∧ t.host = { s.host with peer := some (.ok, []) } ∧ t.waves = s.waves) ∧
    (∀ aop ty x y, s.serves pa key →
      let n := typWidth ty / 8
      s.sound pa n →
      let op := aop.toNat % 16
      let old := BitVec.ofNat 64 (natOfBytes (s.mem.read pa n))
      ∃ t, exec (.peerAccessArrival ⟨dev, pa, key, .atomic aop ty x y, []⟩) s = .next t ∧
        t.host = { s.host with peer := some (.ok, bytesOfWord old) } ∧
        storesMem s t pa (if aopWrites op ty old y then bytesOfNat n (aopNew op ty old x y).toNat else []))

/-- R23, R24, R183, R188, R204, R207, R211, R212, R214, R333: jobs, queues, the debugger and the limits. CREATE of a
FREE or ENDED job makes it ACTIVE with WDFIRE and ENDCAUSE 0; END of an ACTIVE one ends its grids, clears EN of its
queues and leaves it ENDING with ENDCAUSE level 4; an ENDING job of which nothing remains is ENDED; any other command
sets ERR only. QCFG.EN empties the ring's counts when it is set, and alone changes when it is cleared;
either way no turn has skipped the queue's next head. HALT halts every
wave of the job, one with an unresolved BRM after its resolution; HALTED shows whether one is halted; its clearing
releases them. A watchdog that has counted its period fires at every wave of the grid; a chosen wave that has not
stopped in SLICECEIL clocks takes SLICEOVER, and after as many more ends its grid. The model's choices: an event that is not
due changes nothing (log 4), what remains of a job (log 40), and a write to QCFG drops reserved bits (log 82). -/
def Obligations.JobsQueuesAndLimits : Prop :=
  let ctl (j : Nat) : Nat := jobReg j 0x88
  (∀ j (v : Word) (s : State), j < 1024 → bits v 3 2 = 1 →
    (bits v 63 5 = 0 → s.jobState j = 0 ∨ s.jobState j = 3 → ∃ t, exec (.create j v) s = .next t ∧
      t = { s with mreg := t.mreg } ∧ t.reg (ctl j) = 1 ∧ t.reg (jobReg j 0x70) = 0 ∧ t.reg (jobReg j 0x78) = 0 ∧
      otherRegs s t [ctl j, jobReg j 0x70, jobReg j 0x78]) ∧
    (bits v 63 5 ≠ 0 ∨ s.jobState j = 1 ∨ s.jobState j = 2 →
      exec (.create j v) s = .next (s.setReg (ctl j) (BitVec.ofNat 64 (s.jobState j + 16))))) ∧
  (∀ j (v : Word) (s : State), j < 1024 → bits v 3 2 = 2 →
    (bits v 63 5 = 0 → s.jobState j = 1 → ∃ t, exec (.endJob j v) s = .next t ∧ t.jobState j = 2 ∧
      t.reg (jobReg j 0x78) = 0x0080_0000_0000_0000 ∧ (∀ a, t.mem.byte a = s.mem.byte a) ∧
      (∀ q, q < 64 → t.queueJob q = j → t.queueOn q = false) ∧
      ∀ n g k x, s.sched.grids.get? n = some g → g.job = j → g.gangs.get? k = some x →
        ∃ g' x', t.sched.grids.get? n = some g' ∧ g'.gangs.get? k = some x' ∧ x'.here = [] ∧ x'.gone = [] ∧
          x'.forced = true) ∧
    (bits v 63 5 ≠ 0 ∨ s.jobState j ≠ 1 →
      exec (.endJob j v) s = .next (s.setReg (ctl j) (BitVec.ofNat 64 (s.jobState j + 16))))) ∧
  (∀ j (s : State), s.jobState j = 2 →
    (s.jobRemains j = true → exec (.jobEnded j) s = .next s) ∧
    (s.jobRemains j = false → ∃ t, exec (.jobEnded j) s = .next t ∧ t = { s with mreg := t.mreg } ∧ t.jobState j = 3 ∧
      otherRegs s t [ctl j])) ∧
  (∀ q (v : Word) (s : State), q < 64 →
    (v.getLsbD 0 = true → s.queueOn q = true → exec (.queueEnable q v) s = .next s) ∧
    (v.getLsbD 0 = true → s.queueOn q = false → ∃ t, exec (.queueEnable q v) s = .next t ∧
      t = { s with mreg := t.mreg, sched := { s.sched with skips := s.sched.skips.del q } } ∧
      t.reg (queueReg q 0) = v &&& 0xFFFF ∧ t.queueCount q = 0 ∧ t.reg (queueReg q 0x18) = 0 ∧
      otherRegs s t [queueReg q 0, queueReg q 0x18, queueReg q 0x20]) ∧
    (v.getLsbD 0 = false → ∃ t, exec (.queueDisable q v) s = .next t ∧
      t = { s with mreg := t.mreg, sched := { s.sched with skips := s.sched.skips.del q } } ∧
      t.reg (queueReg q 0) = (if s.queueOn q then s.reg (queueReg q 0) &&& ~~~1 else v &&& 0xFFFF) ∧
      otherRegs s t [queueReg q 0])) ∧
  (∀ n (s : State), ∃ t, exec (.depcntFree n) s = .next t ∧
    t = { s with sched := { s.sched with deps := t.sched.deps } } ∧
    t.sched.deps.get? n = none ∧ ∀ k, k ≠ n → t.sched.deps.get? k = s.sched.deps.get? k) ∧
  (∀ j (v : Word) (s : State), j < 1024 →
    (v.getLsbD 1 = true → ∃ t, exec (.debugHalt j v) s = .next t ∧ sameBytes s t ∧
      t.reg (jobReg j 0x80) = (v &&& 3) |||
        (if t.waves.any (fun e => e.2.ident.job == j && e.2.sched.halted) then 4 else 0) ∧
      t.waves = ((s.jobWaves j).foldl (fun s u => s.halt u) (s.setReg (jobReg j 0x80) (v &&& 3))).waves) ∧
    (v.getLsbD 1 = false → ∃ t, exec (.debugRelease j v) s = .next t ∧ sameBytes s t ∧ t.reg (jobReg j 0x80) = v &&& 1 ∧
      t.waves = ((s.jobWaves j).foldl (fun s u => s.release u) s).waves)) ∧
  (∀ (s : State) u core slot w, s.findWave u = some (core, slot, w) → s.wave? core slot = some w →
    (w.spec ≠ [] → s.halt u = s) ∧
    (w.spec = [] → (s.reg (jobReg w.ident.job 0x80)).getLsbD 1 = true →
      (s.halt u).wave? core slot = some { w with sched := { w.sched with halted := true } } ∧
      ((s.halt u).reg (jobReg w.ident.job 0x80)).getLsbD 2 = ((s.reg (jobReg w.ident.job 0x80)).getLsbD 2 ||
        !w.sched.halted) ∧
      ∀ k, k ≠ slotKey core slot → (s.halt u).waves.get? k = s.waves.get? k) ∧
    ∃ w', (s.release u).wave? core slot = some w' ∧ w'.sched.halted = false ∧ w'.vec = w.vec ∧ w'.ident = w.ident ∧
      (∀ n f, w.sched.halted = true → w.sched.atBkpt = some n → w.frags.get? n = some f → fragAt w w' n f (f.spc + 4)) ∧
      (w.sched.halted = true → w.sched.atBkpt = none → w'.frags = w.frags) ∧
      (inNoConvoy s u → ∀ k, k ≠ slotKey core slot → (s.release u).waves.get? k = s.waves.get? k)) ∧
  (∀ n (s : State) g, s.sched.grids.get? n = some g →
    let v := (s.reg (jobReg g.job 0x68)).toNat % 2 ^ 32
    let due : Prop := v ≠ 0 ∧ max v 65536 ≤ g.wd
    (¬ due → exec (.watchdog n) s = .next s) ∧
    (due → ∃ t, exec (.watchdog n) s = .next t ∧ t.reg (jobReg g.job 0x70) = s.reg (jobReg g.job 0x70) + 1 ∧
      t.sched.grids.get? n = some { g with wd := 0 } ∧ sameBytes s t ∧
      (∀ k w, t.waves.get? k = some w → w.ident.grid = n → w.work.pending.any (fun p => p.cause == 0x09) = true) ∧
      ∀ k w, s.waves.get? k = some w → w.ident.grid ≠ n → t.waves.get? k = some w)) ∧
  (∀ core slot (s : State) w, s.wave? core slot = some w → s.gridChosen w.ident.grid = true → w.atStop = false →
    max 4096 (bits (s.reg 0x421030) 31 0) ≤ w.sched.overRun → w.sched.overTrap = none →
    w.work.pending.any (fun p => p.cause == 0x08) = false →
    ∃ t w', exec (.sliceover core slot) s = .next t ∧ onlyWave s t core slot w' ∧
      w' = { w with work := { w.work with pending := w.work.pending ++ [⟨0x08, BitVec.ofNat 64 w.sched.overRun⟩] } }) ∧
  ∀ core slot (s : State) w n, s.wave? core slot = some w → w.sched.overTrap = some n →
    (n < max 4096 (bits (s.reg 0x421030) 31 0) ∨ w.atStop = true → exec (.sliceoverEnd core slot) s = .next s) ∧
    (max 4096 (bits (s.reg 0x421030) 31 0) ≤ n → w.atStop = false → ∃ t, exec (.sliceoverEnd core slot) s = .next t ∧
      t = s.forcedEnd w.ident core slot 3 0x08 ∧ t.reg (jobReg w.ident.job 0x78) =
        BitVec.ofNat 64 (0x08 * 2 ^ 56 + 3 * 2 ^ 53 + w.ident.gang % 256 * 2 ^ 32 + w.ident.grid % 2 ^ 32))

/-- R50, R218 to R222: VERIFY and INSTALL check the staged image in the order of R218 and leave the code for their
completion; INSTALL of an image that passes puts it in the slot that does not run. A fatal error stops the device, names
its source in DEVSTAT and raises the interrupt. A warm reset keeps the memory, slot-0 regions, retirements, the error log,
the repair maps and the point in force, empties the keys and everything else, and starts the newer image that passes its
check; a cold reset keeps none of these and takes what training found. The model's readings: the check is made at the command,
with SM3 and SM2 of the standards (log 41), digests compared with byte 0 lowest (log 58); what fails a check and what FWSTAT
shows is also log 101; errors that atoms hold outlast a warm reset (log 43), and the memory is empty after a cold one (log 8). -/
def Obligations.FirmwareAndResets : Prop :=
  (∀ n b, imageCode n b = 0 ↔
    imgField b 0 8 = 0x4D49574631445853 ∧ imgField b 8 4 = 1 ∧ imgField b 0x18 8 % 64 = 0 ∧ 65536 ≤ imgField b 0x18 8 ∧
    imgField b 0x18 8 ≤ 33554432 ∧ sm3 ((b.drop 0x40).take 64) = Config.fusedKeyDigest ∧
    sm2Valid ((b.drop 0x40).take 64) ((b.drop 0x80).take 16) (b.take 0xC0) ((b.drop 0xC0).take 64) = true ∧
    n ≤ imgField b 0x10 4 ∧ (sm3 ((b.drop 256).take (imgField b 0x18 8))).toNat = imgField b 0x20 32) ∧
  (∀ (v : Word) (s : State), ∀ i ∈ [(Instr.verify v, 1), (.install v, 2)], bits v 1 0 = i.2 →
    let b := (s.setReg 0x500 (v &&& 3)).staged.1
    let code := imageCode s.fw.minSvn.toNat b
    (s.fw.cmd ≠ none → exec i.1 s = .next s.fwRefused) ∧
    (s.fw.cmd = none → ∃ t, exec i.1 s = .next t ∧ t.reg 0x500 = v &&& 3 ∧ t.fw.cmd = some (BitVec.ofNat 2 i.2, code) ∧
      (t.mgmtRead 0x508).getLsbD 0 = true ∧ t.mem = s.mem ∧ t.waves = s.waves ∧
      (i.2 = 1 ∨ code ≠ 0 → t.fw = { s.fw with cmd := t.fw.cmd }) ∧
      (i.2 = 2 → code = 0 → bits (s.reg 0x520) 1 0 ≠ 2 → ∀ r, s.fw.running = some r →
        t.fw = { s.fw with cmd := t.fw.cmd, flash := listSet s.fw.flash (1 - r) (some b), newer := 1 - r }))) ∧
  (∀ s op code, s.fw.cmd = some (op, code) → ∃ t, exec .fwCommandComplete s = .next t ∧
    t = { s with mreg := t.mreg, fw := { s.fw with cmd := none } } ∧ otherRegs s t [0x508] ∧
    bits (t.reg 0x508) 31 24 = code.toNat ∧ (t.reg 0x508).getLsbD 1 = decide (code ≠ 0)) ∧
  (∀ (v : Word) (s : State), ∃ t, exec (.dumpstatClear v) s = .next t ∧ t = { s with mreg := t.mreg } ∧
    otherRegs s t [0x538] ∧
    t.reg 0x538 = (if v.getLsbD 0 then s.reg 0x538 &&& ~~~3 else s.reg 0x538)) ∧
  (∀ src info (s : State), ∃ t, exec (.fatalError src info) s = .next t ∧ t.stopped = true ∧
    t.reg 0x520 = BitVec.ofNat 64 (src.toNat * 256 + 1) ∧ t.host.fatal = s.host.fatal + 1 ∧ t.waves = s.waves ∧
    (bits (s.reg 0x530) 31 0 = 0 → t.mem = s.mem ∧ t.reg 0x538 = s.reg 0x538) ∧
    (bits (s.reg 0x530) 31 0 ≠ 0 → (t.reg 0x538).getLsbD 0 = true ∧
      bits (t.reg 0x538) 31 16 = (bits (s.reg 0x538) 31 16 + 1) % 2 ^ 16)) ∧
  let clears (t : State) : Prop :=
    t.clk = 0 ∧ t.waves = [] ∧ t.away = [] ∧ t.cores = [] ∧ t.clusters = [] ∧ t.net.txns = [] ∧ t.net.lens = [] ∧
    t.xlate.walks = [] ∧ t.xlate.held = [] ∧ t.engines = [] ∧ t.arrivals = [] ∧ t.convoys = [] ∧ t.sched.grids = [] ∧
    t.sched.deps = [] ∧ t.ctl.keys = [] ∧ t.ctl.keyCmd = none ∧ t.ctl.lmCmd = none ∧ t.ctl.tlbCmd = none ∧
    t.ctl.mpoint = none ∧ t.ctl.retrain = [] ∧ t.ctl.alerts = [] ∧ t.drains = [] ∧ t.fw.cmd = none
  let boots (s t : State) : Prop :=
    t.fw.flash = s.fw.flash ∧
    (s.fw.codeOf s.fw.newer = 0 → t.fw.running = some s.fw.newer ∧ t.reg 0x520 = 0) ∧
    (s.fw.codeOf s.fw.newer ≠ 0 → s.fw.codeOf (1 - s.fw.newer) = 0 → t.fw.running = some (1 - s.fw.newer) ∧
      t.reg 0x520 = 0) ∧
    (s.fw.codeOf s.fw.newer ≠ 0 → s.fw.codeOf (1 - s.fw.newer) ≠ 0 → t.fw.running = none ∧ t.reg 0x520 = 2)
  (∀ s, ∃ t, exec .warmReset s = .next t ∧ clears t ∧ boots s t ∧ t.mem = s.mem ∧
    (∀ r, t.liveEntry r = { s.liveEntry r with live := (s.liveEntry r).live && (s.liveEntry r).key == 0 }) ∧
    t.ctl.repairs = s.ctl.repairs ∧ t.ctl.flaws = s.ctl.flaws ∧ t.reg 0x428 = (s.reg 0x428 &&& 0xE0) ||| 4 ∧
    ∀ o, o ≠ 0x428 → o ≠ 0x508 → o ≠ 0x520 → t.reg o =
      (if o = 0x420 then BitVec.ofNat 64 (bits (s.reg 0x428) 7 6)
        else if o ∈ [0x430, 0x438, 0x440, 0x448, 0x450, 0x528, 0x530, 0x538] ∨ (0x800 ≤ o ∧ o < 0x1000) ∨
          (0x1000 ≤ o ∧ o < 0x1180 ∧ o % 0x20 = 0x18)
        then s.reg o
        else if o = 0x421008 then 0x100000 else if o = 0x421010 then 2800 else if o = 0x421030 then 262144 else 0)) ∧
  ∀ tr s, ∃ t, exec (.coldReset tr) s = .next t ∧ clears t ∧ boots s t ∧ t.mem = [] ∧
    (∀ r, (t.liveEntry r).live = false) ∧
    t.reg 0x428 = (if tr.eccm then 0x20 else 0) ∧ t.reg 0x450 = tr.num.setWidth 64 ∧ t.ctl.routes = tr.routes

/-- R73, R185 to R196, R239: a die's turn that is not due changes nothing. At a due turn with one candidate, the head of
a queue, a head of one gang of one wave that fits is admitted: its grid takes the next number, the queue counts it, its
gang's scratch reads zero and its wave starts with TASKARG in s1, at ENTRY, with the lanes of its rank; a head that no
empty device could place is taken off and its grid completes with STATUS 3, QERR counting it. A grid is marked once it
has run a SLICE, a window ends when due, and a grid all of whose work is done, and every access of whose waves has been
performed, performs its signals once and leaves, with its convoys. A REGGROW that waits takes its groups in request
order once they fit. The model's readings: a turn or a window that is not due changes nothing (log 4), a malformed head is one
that no empty device could place (log 23), a wave takes the lowest free slot of its quarter (log 7), and accesses that need a
port wait for it (log 11). -/
def Obligations.Scheduling : Prop :=
  (∀ die (s : State), s.sched.due.contains die = false → exec (.admissionTurn die) s = .next s) ∧
  (∀ die (s : State) c q, s.sched.due.contains die = true →
    let s1 : State := { s with sched := { s.sched with due := s.sched.due.filter (· != die) } }
    let n := s.sched.nextGrid
    (s.headsClear die = false → s.dieEmpty die = false → exec (.admissionTurn die) s = .next s) ∧
    (s.headsClear die = true → s.dieEmpty die = false → s1.dieCands die = [c] → c.queue = some q →
    let taken (t : State) : Prop := t.sched.nextGrid = (if n + 1 = 2 ^ 32 then 1 else n + 1) ∧
      t.reg (queueReg q 0x18) = BitVec.ofNat 64 ((s.queueHead q + 1) % 2 ^ 32) ∧ t.sched.due = s1.sched.due
    (c.unfit = true → ∃ t g, exec (.admissionTurn die) s = .next t ∧ taken t ∧ (s.ctl.flaws = [] → t.waves = s.waves) ∧
      t.sched.grids.get? n = some g ∧ g.job = c.job ∧ g.gangs = [] ∧ g.status = 3 ∧
      t.reg (queueReg q 0x28) = s.reg (queueReg q 0x28) + 1) ∧
    (∀ cl slot, c.unfit = false → (s1.fit c []).ok = true → (s1.fit c []).place = some [(0, cl)] → taskWaves c.task = 1 →
      s.freeSlot (cl * 4) 0 = some slot → s.gangAlloc n 0 = none →
      ∃ t g w f x, exec (.admissionTurn die) s = .next t ∧ taken t ∧ t.sched.grids.get? n = some g ∧
        g.job = c.job ∧ g.task = c.task ∧ g.queue = q ∧ g.pri = c.pri ∧ g.status = 0 ∧
        g.gangs = [(0, ⟨cl, taskCspu c.task * 65536, [0], [], none, false, [], false, false, false⟩)] ∧
        t.wave? (cl * 4) slot = some w ∧ w.ident = ⟨c.job, n, 0, 0⟩ ∧ w.vcount = 8 * taskVgrp c.task ∧
        w.scl.get 1 = wordAt c.task 4 ∧ (∀ r, r ≠ 1 → w.scl.get r = 0) ∧ w.vec = [] ∧ w.pred = [] ∧ w.trap.sup = false ∧
        w.frags = [(0, f)] ∧ f.spc = wordAt c.task 0 &&& 0x01FF_FFFF_FFFF_FFFC#64 ∧ f.wait = .run ∧
        (∀ l, l < 128 → f.emask.getLsbD l = decide (l < if taskTail c.task = 0 then 128 else taskTail c.task)) ∧
        t.gangAlloc n 0 = some (cl, x) ∧ x.len = taskCspu c.task * 65536 ∧
        (∀ a, x.base ≤ a → a < x.base + x.len → (t.cluster cl).csp.byte a = 0) ∧
        (s.ctl.flaws = [] → ∀ k, k ≠ slotKey (cl * 4) slot → t.waves.get? k = s.waves.get? k)))) ∧
  (∀ n (s : State) g, s.sched.grids.get? n = some g →
    let due : Prop := g.expired = false ∧ g.waiting = none ∧
      g.since + max 65536 (bits (s.reg 0x421008) 31 0) ≤ s.clk.toNat
    (¬ due → exec (.timeSliceExpiry n) s = .next s) ∧
    (due → ∃ t, exec (.timeSliceExpiry n) s = .next t ∧ t.sched.grids.get? n = some { g with expired := true } ∧
      t = { s with sched := { s.sched with grids := t.sched.grids } } ∧
      ∀ k, k ≠ n → t.sched.grids.get? k = s.sched.grids.get? k)) ∧
  (∀ s : State, exec .bandwidthWindow s = .next { s with sched := { s.sched with window := false } }) ∧
  (∀ n (s : State) g, s.sched.grids.get? n = some g → g.liveGangs = [] → (∀ e ∈ s.engines, e.2.ident.grid ≠ n) →
    g.crec = none →
    let gone (t : State) : Prop := t.sched.grids.get? n = none ∧ ∀ k c, t.convoys.get? k = some c → c.grid ≠ n
    (g.signaled = true → ∃ t, exec (.gridCompletion n) s = .next t ∧ gone t ∧ t.waves = s.waves ∧ t.mem = s.mem ∧
      t.sched.deps = s.sched.deps) ∧
    (g.signaled = false → s.accessesDone n = false ∨ s.countClear g.task = false → exec (.gridCompletion n) s = .next s) ∧
    (g.signaled = false → s.accessesDone n = true → s.countClear g.task = true →
      (taskRen g.task = false → ∃ t, exec (.gridCompletion n) s = .next t ∧ gone t ∧
        (taskDen g.task = false → t.waves = s.waves ∧ t.mem = s.mem)) ∧
      (taskRen g.task = true → ∀ pa leaf s',
        let va := (wordAt g.task 7 &&& 0x01FF_FFFF_FFFF_FFF0#64).toNat
        let key : BitVec 10 := BitVec.ofNat 10 (bits leaf 60 51)
        windowOf va = .global → s.xlateNow (g.die * 64) 0 g.job va 1 true (.task n) = (.ok pa leaf, s') →
        (s'.portsClear g.die pa 16 = false → exec (.gridCompletion n) s = .next s') ∧
        (s'.portsClear g.die pa 16 = true → s'.serves pa key → ∃ t, exec (.gridCompletion n) s = .next t ∧ gone t ∧
          (taskDen g.task = false → s'.sound pa 16 →
            storesMem s' t pa (bytesOfWords [BitVec.ofNat 64 (g.status.toNat * 2 ^ 56 + n % 2 ^ 32), s.clk])))))) ∧
  ∀ core (s : State) u rest k slot w n f m, (s.core core).growq = u :: rest → s.findWave u = some (k, slot, w) →
    s.wave? k slot = some w →
    w.frags.find? (fun e => match e.2.wait with | .grow _ => true | _ => false) = some (n, f) →
    w.frags.get? n = some f → f.wait = .grow m → w.sched.halted = false → w.spec = [] →
    (w.trap.sup = true → n = w.trap.slot) → s.growFits core w m = true → w.vcount ≤ m → inNoConvoy s u →
    ∃ t w', exec (.reggrowGrant core) s = .next t ∧ t = { s with waves := t.waves, cores := t.cores } ∧
      (t.core core).growq = rest ∧ t.wave? k slot = some w' ∧ fragAt w w' n f (f.spc + 4) ∧
      w' = { w with frags := w'.frags, vec := w'.vec, vcount := m } ∧
      ∀ r, w'.vec.get r = if r < w.vcount then w.vec.get r else 0

/-- R117 to R132, R193, R206, R210: a wave of a chosen grid that stands at a blocking point leaves its slot: its image
holds what it was, replies still due are counted in an entry, the slot's epoch is the next, and its gang counts it as
gone. A gang whose last wave has left takes a Lightship entry; opening it copies its scratch to the image and frees the
allocation. A grid of which nothing is left retires its entries. Each waits while its ports cannot take the accesses of
its images. A gang that resumes has its scratch and its waves back, and its reopening frees the entry. What arrives for an
absent gang acts on the image, and for a resident one on its scratch. The model's readings: the waits for ports (log 11), the
epoch in an image (log 49), the waves restored at GANG_RESUME (log 50), and the lowest-numbered free entry (log 98). -/
def Obligations.EvictionAndReturn : Prop :=
  let jobKey (s : State) (j : Nat) : BitVec 10 := BitVec.ofNat 10 (bits (s.reg (jobReg j 0x08)) 9 0)
  (∀ core slot (s : State) w, s.wave? core slot = some w → s.mayLeave w = false →
    exec (.waveEviction core slot) s = .next s) ∧
  (∀ core slot (s : State) w image e, s.wave? core slot = some w → s.mayLeave w = true → w.vcount ≤ 256 →
    s.saveRoom w.ident.job (s.savedRanges w.ident.job) (ctxSize (w.vcount / 8)) 1024 = some image →
    s.freeEntry core = some e →
    let clear := s.imageClear (dieOf core) w.ident.job image (ctxSize (w.vcount / 8))
    (clear = false → exec (.waveEviction core slot) s = .next s) ∧
    (∀ u, clear = true → s.liveWave core slot w = (none, u) → exec (.waveEviction core slot) s = .next u) ∧
    ∀ l v, clear = true → s.liveWave core slot w = (some l, v) →
    let u := v.forget (.save w.ident.uid)
    let epoch := (u.core core).epochs.get slot
    let img := u.ctxImage core slot epoch w l image
    ∃ t, exec (.waveEviction core slot) s = .next t ∧ t.wave? core slot = none ∧
      t.away.get? w.ident.uid = some (w.leave image core slot epoch) ∧
      (t.core core).epochs.get slot = epoch + 1 ∧
      (s.dueReplies w ≠ [] →
        (t.core core).rdiv.get? e = some ⟨1, w.ident.job, slot, epoch, image, w.ident.uid, s.dueReplies w⟩) ∧
      (∀ g x, t.sched.grids.get? w.ident.grid = some g → g.gangs.get? w.ident.gang = some x →
        w.ident.rank ∉ x.here ∧ w.ident.rank ∈ x.gone) ∧
      (s.ctl.flaws = [] → (∀ k, k ≠ slotKey core slot → t.waves.get? k = s.waves.get? k) ∧
        ((∀ a, image ≤ a → a < image + ctxSize (w.vcount / 8) → img.2.serves a (jobKey img.2 w.ident.job)) →
          ∀ a, image ≤ a → a < image + ctxSize (w.vcount / 8) → t.mem.byte a = img.1.getD (a - image) 0))) ∧
  (∀ grid gang (s : State) g x k pa, s.gangOf grid gang = some (g, x) → x.here = [] → x.gone ≠ [] → x.resuming = false →
    x.image = none → s.shipOf grid gang = none →
    (List.range 256).find? (fun k => !(Tab.has (s.cluster x.cluster).ships k)) = some k →
    s.saveRoom g.job (s.savedRanges g.job) (shipSize x.len) 65536 = some pa →
    ∃ t, exec (.lightshipSave grid gang) s = .next t ∧ t = { s with clusters := t.clusters, sched := t.sched } ∧
      (t.cluster x.cluster).ships.get? k = some ⟨1, g.job, gang, grid, pa, x.len, 0⟩ ∧
      (t.gangOf grid gang).map (·.2) = some { x with image := some pa } ∧ sameBytes s t) ∧
  (∀ grid gang (s : State) g x cl k h al, s.gangOf grid gang = some (g, x) → s.shipOf grid gang = some (cl, k, h) →
    (s.cluster cl).ships.get? k = some h → s.gangAlloc grid gang = some (cl, al) → h.state = 1 → x.full = true →
      h.image % 65536 = 0 → al.len ≤ 16777216 →
    s.imageClear (dieOfCluster cl) g.job h.image (shipSize h.len) = true → s.ctl.flaws = [] →
    (∀ a, h.image ≤ a → a < h.image + al.len → s.serves a (jobKey s g.job)) →
    ∃ t, exec (.lightshipOpen grid gang) s = .next t ∧ t.waves = s.waves ∧
      (t.cluster cl).ships.get? k = some { h with state := 2 } ∧
      (∀ a ∈ (t.cluster cl).allocs, ¬ (a.grid = grid ∧ a.gang = gang)) ∧
      t.reg (lsReg cl 0x28) = s.reg (lsReg cl 0x28) + 1 ∧
      ∀ i, i < al.len → t.mem.byte (h.image + i) = (s.cluster cl).csp.byte (al.base + i)) ∧
  (∀ grid (s : State) g, s.sched.grids.get? grid = some g →
    g.gangs.any (fun e => !e.2.here.isEmpty || e.2.resuming) = false → (∀ e ∈ s.engines, e.2.ident.grid ≠ grid) →
    (∀ a ∈ s.arrivals, a.grid ≠ grid) → (∀ e ∈ s.away, e.2.ident.grid = grid → s.awayClear e.1 [(0x20, 8)] = true) →
    ∃ t, exec (.lightshipRetire grid) s = .next t ∧ (s.ctl.flaws = [] → t.waves = s.waves) ∧ t.sched = s.sched ∧
      ∀ cl k h, (t.cluster cl).ships.get? k = some h → h.grid = grid → h.state ≠ 2) ∧
  (∀ grid gang (s : State) g x pa, s.gangOf grid gang = some (g, x) → x.image = some pa → x.resuming = true →
    s.gangAlloc grid gang = none → (∀ h, s.shipOf grid gang = some h → h.2.2.state = 2) → pa % 65536 = 0 →
    x.len ≤ 16777216 → s.imageClear (dieOfCluster x.cluster) g.job pa (shipSize x.len) = true →
    (∀ e ∈ s.away, e.2.ident.grid = grid → e.2.ident.gang = gang →
      s.imageClear (dieOfCluster x.cluster) g.job e.2.image (ctxSize e.2.groups) = true) →
    s.sound pa (imgArmsAt x.len) → (∀ a, pa ≤ a → a < pa + x.len → s.serves a (jobKey s g.job)) →
    ∃ t al, exec (.gangResume grid gang) s = .next t ∧ t.gangAlloc grid gang = some (x.cluster, al) ∧ al.len = x.len ∧
      (∀ i, i < x.len → (t.cluster x.cluster).csp.byte (al.base + i) = s.mem.byte (pa + i)) ∧
      (t.gangOf grid gang).map (·.2) = some { x with here := x.gone, gone := [] } ∧
      ∀ e ∈ s.away, e.2.ident.grid = grid → e.2.ident.gang = gang → t.away.get? e.2.ident.uid = none) ∧
  (∀ grid gang (s : State) g x pa, s.gangOf grid gang = some (g, x) → x.image = some pa → x.resuming = true →
    (s.gangAlloc grid gang).isSome = true → s.imageClear (dieOfCluster x.cluster) g.job (pa + imgArmsAt x.len) 128 = true →
    (∀ e ∈ s.waves, e.2.ident.grid ≠ grid ∨ e.2.work.absent = []) →
    ∃ t, exec (.resumeReopen grid gang) s = .next t ∧
      (t.gangOf grid gang).map (·.2) = some { x with image := none, resuming := false } ∧
      (∀ cl k h, (t.cluster cl).ships.get? k = some h → ¬ (h.grid = grid ∧ h.gang = gang)) ∧
      t.reg (lsReg x.cluster 0x30) = s.reg (lsReg x.cluster 0x30) + 1) ∧
  ∀ grid gang sender off bs (s : State), s.arrivals = [⟨grid, gang, sender, false, .write off bs false none⟩] →
    s.engines = [] →
    (∀ cl base, s.scratchHome grid gang = .here cl base → ∃ t, exec (.divertedArrival grid gang) s = .next t ∧
      t.arrivals = [] ∧ storesScratch s t cl (base + off) bs) ∧
    (∀ cl k h, s.scratchHome grid gang = .away → s.shipOf grid gang = some (cl, k, h) → h.state = 2 → cl < 64 →
      bs.length ≤ 1024 → s.imageClear (dieOfCluster cl) h.job (h.image + off) bs.length = true →
        s.sound (h.image + off) bs.length →
      (∀ a, h.image + off ≤ a → a < h.image + off + bs.length → s.serves a (jobKey s h.job)) →
      ∃ t, exec (.divertedArrival grid gang) s = .next t ∧ t.arrivals = [] ∧ storesMem s t (h.image + off) bs ∧
        t.reg (lsReg cl 0) = s.reg (lsReg cl 0) + BitVec.ofNat 64 bs.length) ∧
    (s.scratchHome grid gang = .gone → ∃ t, exec (.divertedArrival grid gang) s = .next t ∧ t.arrivals = [] ∧
      sameBytes s t)

/-- A wave that a context image has room for (R210). -/
def Says.FitsImage (w : Wave) : Prop :=
  w.vcount % 8 = 0 ∧ w.vcount ≤ 256 ∧ w.stack.length ≤ 16 ∧ (∀ e ∈ w.stack, e.owner < 4) ∧ w.work.red.length ≤ 128 ∧
  w.work.absent.length ≤ 32 ∧ w.trap.frozen.length ≤ 64 ∧ (∀ i ∈ w.trap.frozen, i.slots.length = 8 ∧ i.nfrag < 8) ∧
  (∀ e ∈ w.work.sends, e.1 < 8 ∧ ∀ l, e.2.result = some l → l.length = 41) ∧
  ∀ e ∈ w.groups, e.2.slots.Nodup ∧ ∀ n ∈ e.2.slots, n < 4

/-- R118, R126, R204, R210: what a full context image saves of a wave is what its return restores: registers, predicates,
fragments with their banks, groups, stack, trap registers and frozen queue, convoy, tree and batch registers, HIST, the
reduction buffer, and its place in its grid. Reserved bits of addresses read 0. -/
def Obligations.ContextImageReturns : Prop :=
  ∀ (s : State) core slot epoch w image, Says.FitsImage w →
    let bs := (s.ctxImage core slot epoch w .all image).1
    let v := (w.leave image core slot epoch).restore bs false
    let va : Word := 0x01FF_FFFF_FFFF_FFFC
    v.ident = w.ident ∧ v.vcount = w.vcount ∧
    (∀ r, 1 ≤ r → r < 176 → v.scl.get r = w.scl.get r) ∧
    (∀ r, r < w.vcount → v.vec.get r = w.vec.get r) ∧
    (∀ p, 1 ≤ p → p < 16 → v.pred.get p = w.pred.get p) ∧
    (∀ n, n < 4 →
      (w.frags.get? n = none → v.frags.get? n = none) ∧
      ∀ f, w.frags.get? n = some f → ∃ f', v.frags.get? n = some f' ∧
        f' = { f with spc := f.spc &&& va, wait := .run, bank := f'.bank } ∧
        ∀ r, 176 ≤ r → r < 192 → f'.bank.get r = f.bank.get r) ∧
    (∀ k, k < 16 →
      (w.groups.get? k = none → v.groups.get? k = none) ∧
      ∀ g, w.groups.get? k = some g → ∃ g', v.groups.get? k = some g' ∧ g'.fmt = g.fmt ∧
        ∀ n, n ∈ g'.slots ↔ n ∈ g.slots) ∧
    v.stack.length = w.stack.length ∧
    (∀ (k : Nat) e, w.stack[k]? = some e → ∃ e', v.stack[k]? = some e' ∧
      e' = { e with spc := e.spc &&& va, bank := e'.bank } ∧ ∀ r, 176 ≤ r → r < 192 → e'.bank.get r = e.bank.get r) ∧
    v.trap = { w.trap with h := v.trap.h } ∧ (∀ k, k < 16 → v.trap.h.get k = w.trap.h.get k) ∧
    v.cv = w.cv ∧ v.mat = w.mat ∧ v.hist = w.hist ∧ v.work.outs = w.work.outs ∧ v.work.pending = w.work.pending ∧
    v.work.deferred = w.work.deferred ∧ v.work.treesel = w.work.treesel ∧ v.work.trtime = w.work.trtime ∧
    v.work.red = w.work.red.map (fun e => { e with va := e.va &&& 0x01FF_FFFF_FFFF_FFFF, order := e.order % 512 }) ∧
    (∀ f, f ∈ v.work.absent ↔ f ∈ w.work.absent)

/-- R87 to R95, R108 to R112, R319, R341: a piece of a linear copy between scratch of resident gangs moves its bytes and
the operation stands at the next piece; one that has none left writes its status word to its status address, then to d,
and ends. An outbound port sends the next line of the send at its head, and an inbound port writes the line at its head
into the armed window, FULL, and advances the arm. A contribution opens a generation or joins one, or comes too late and
is dropped; a timeout completes one with the contributors that are missing; a result reaches the waves of a core that
await it. A tile operation whose operands are there leaves its accumulator latched, and its completion writes the
registers of its range. The model's readings: an inbound port takes a line when it holds none (log 33), the generation of a
contribution (log 34), the L1 of the issuing core that a completion empties (log 53), and a timeout that is not due (log 4). -/
def Obligations.EnginesPortsTreeAndTiles : Prop :=
  (∀ id ext ecc (s : State) o, s.engines.get? id = some o → s.stopped = false → s.engNext (clusterOf o.core) = some id →
    o.aborted = false → o.buf = none →
    (∀ d1 b1 d2 b2 a1 a2, o.kind = .linear → o.pos < o.total → s.engHeld o (o.partRuns o.pos o.pieceEnd).2 = false → o.flight = none → o.idx = none →
      o.served = 0 → o.lines = 0 →
      let src := wordAt o.desc 1
      let dst := wordAt o.desc 2
      let n := o.pieceEnd - o.pos
      windowOf src.toNat = .scratch → windowOf dst.toNat = .scratch → ctlProd o.desc = false → ctlBar o.desc = false →
      s.gangAlloc o.ident.grid (scratchGang src.toNat) = some (d1, a1) → a1.base = b1 →
      s.gangAlloc o.ident.grid (scratchGang dst.toNat) = some (d2, a2) → a2.base = b2 →
      s.scratchHome o.ident.grid (scratchGang dst.toNat) = .here d2 b2 →
      scratchOff src.toNat + o.total ≤ 2 ^ 24 → scratchOff dst.toNat + o.total ≤ 2 ^ 24 →
      (∀ a ∈ s.arrivals, a.sender ≠ id) →
      ∃ t o', exec (.enginePiece id ext ecc) s = .next t ∧ t.engines.get? id = some o' ∧
        o' = { o with pos := o.pieceEnd, bytes := o.bytes + n } ∧ 0 < n ∧ n ≤ 1024 ∧
        storesScratch s t d2 (b2 + scratchOff dst.toNat + o.pos)
          ((s.cluster d1).csp.read (b1 + scratchOff src.toNat + o.pos) n) ∧
        t.reg (ceReg (clusterOf o.core) 0x30) = s.reg (ceReg (clusterOf o.core) 0x30) + BitVec.ofNat 64 n) ∧
    (o.kind ≠ .nlsend → o.total ≤ o.pos → o.served = 0 → (∀ a ∈ s.arrivals, a.sender ≠ id) →
      let ended : EngOp := { o with pos := o.total, idx := none, served := 1, flight := none }
      let va := (wordAt o.desc 7).toNat
      (ctlStw o.desc = false → ∃ t, exec (.enginePiece id ext ecc) s = .next t ∧ sameBytes s t ∧
        t.engines.get? id = some ended ∧ t.waves = s.waves) ∧
      (∀ cl base, ctlStw o.desc = true → windowOf va = .scratch →
        s.scratchHome o.ident.grid (scratchGang va) = .here cl base →
        ∃ t, exec (.enginePiece id ext ecc) s = .next t ∧ t.engines.get? id = some ended ∧
          storesScratch s t cl (base + scratchOff va) (bytesOfWord o.status))) ∧
    (∀ core slot w, o.kind ≠ .nlsend → o.total ≤ o.pos → o.served = 1 → o.conds = [] → o.dropped = [] →
      s.xlate.held = [] → (∀ a ∈ s.arrivals, a.sender ≠ id) → s.rdivClosed o.uid = false → s.away.get? o.uid = none →
      s.findWave o.uid = some (core, slot, w) →
      ∃ t w', exec (.enginePiece id ext ecc) s = .next t ∧ t.engines.get? id = none ∧ t.mem = s.mem ∧
        t.wave? core slot = some w' ∧ w'.work = w.work ∧ w'.vec = w.vec ∧ (o.wide = true → (t.core core).l1 = []) ∧
        (1 ≤ o.d.toNat → o.d.toNat < 176 → ∀ r, w'.scl.get r = if r = o.d.toNat then
          BitVec.ofNat 64 (o.flags.toNat / 2 * 2 ^ 51 + o.bytes % 2 ^ 48) else w.scl.get r))) ∧
  (∀ cl side (s : State) id rest to_ o d a, cl < 64 → side < 4 → s.outQueue cl side = id :: rest →
    neighbourOf cl side = some to_ → s.engines.get? id = some o → s.stopped = false → o.aborted = false →
    s.engHeld o [] = false → ((s.cluster to_).inq.get? (opposite side)).getD [] = [] →
    s.gangAlloc o.ident.grid o.ident.gang = some (d, a) →
    ∃ t, exec (.neighbourLineSend cl side) s = .next t ∧ sameBytes s t ∧ t.waves = s.waves ∧
      t.engines.get? id = some { o with pos := o.pos + 128 } ∧
      (t.cluster to_).inq.get? (opposite side) = some [⟨id, o.ident.grid, BitVec.ofNat 1024
        (natOfBytes ((s.cluster d).csp.read (a.base + ((wordAt o.desc 1).toNat + o.pos)) 128))⟩] ∧
      t.outQueue cl side = (if o.total ≤ o.pos + 128 then rest else id :: rest)) ∧
  (∀ cl side (s : State) l ls m base, ((s.cluster cl).inq.get? side).getD [] = l :: ls → s.sched.grids.has l.grid = true →
    (s.cluster cl).arms.get? side = some m → m.grid = l.grid → s.scratchHome m.grid m.gang = .here cl base →
    (∀ a ∈ s.arrivals, ¬ (a.grid = m.grid ∧ a.gang = m.gang)) →
    let p := base + m.base + m.cur % m.len * 128
    (s.lineFull cl (p / 128) = true → ∃ t, exec (.neighbourArrival cl side) s = .next t ∧ sameBytes s t ∧
      (t.cluster cl).inq = (s.cluster cl).inq ∧ (t.cluster cl).arms = (s.cluster cl).arms) ∧
    (s.lineFull cl (p / 128) = false → (s.cluster cl).linew = [] → ∃ t, exec (.neighbourArrival cl side) s = .next t ∧
      storesScratch s t cl p (bytesOfNat 128 l.data.toNat) ∧ t.lineFull cl (p / 128) = true ∧
      (t.cluster cl).arms.get? side = some { m with cur := (m.cur + 1) % 2 ^ 32 } ∧
      (t.cluster cl).inq.get? side = some ls)) ∧
  (∀ id (s : State) m, s.tree.msgs.get? id = some m →
    let sid := bits m.sel 2 0
    (s.tree.gens.find? (fun g => g.isOf m.grid sid m.gen) = none →
      (m.gen < s.genCount m.grid sid → exec (.treeContribution id) s =
        .next { s with tree := { s.tree with msgs := s.tree.msgs.del id } }) ∧
      (s.genCount m.grid sid ≤ m.gen → 2 ≤ bits m.sel 56 48 →
        ∃ t, exec (.treeContribution id) s = .next t ∧ t.tree.msgs.get? id = none ∧ t.waves = s.waves ∧
          t.genCount m.grid sid = m.gen + 1 ∧ t.tree.gens = s.tree.gens ++
            [⟨m.grid, sid, m.gen, m.sel, 0, m.time.toNat % 2 ^ 32, [(m.core, m.elems)], none, [], [m.core]⟩])) ∧
    (∀ g, s.tree.gens.find? (fun g => g.isOf m.grid sid m.gen) = some g → g.result = none →
      g.inputs.has m.core = true ∨ selAgrees g.sel m.sel = false →
      ∃ t, exec (.treeContribution id) s = .next t ∧ { g with sent := g.sent ++ [m.core] } ∈ t.tree.gens ∧
        (∀ x, x.isOf m.grid sid m.gen = false → (x ∈ t.tree.gens ↔ x ∈ s.tree.gens)) ∧ t.tree.msgs.get? id = none)) ∧
  (∀ grid sid (s : State) g, s.tree.gens.find? (fun g => g.grid == grid && g.sid == sid && g.result.isNone) = some g →
    (g.clocks < g.limit → exec (.treeTimeout grid sid) s = .next s) ∧
    (g.limit ≤ g.clocks → ∃ t g' l, exec (.treeTimeout grid sid) s = .next t ∧ g' ∈ t.tree.gens ∧
      g' = { g with result := some l, cores := g'.cores, sent := g'.sent } ∧ l.length = 41 ∧ l[40]? = some 1 ∧
      (∀ k, k < bits g.sel 56 48 → bits g.sel 47 40 + k ∈ g'.cores) ∧
      ∀ k, k < 256 → k < bits g.sel 56 48 → (((l[32 + k / 32]?).getD 0).getLsbD (k % 32) = true ↔
        g.inputs.has (bits g.sel 47 40 + k) = false))) ∧
  (∀ shape op (core : Nat → Option Word32) a b x y, shape = 0 ∨ shape = 2 → a < b → b < 256 → core a = some x →
    core b = some y →
    (∀ k, k ≠ a → k ≠ b → core k = none) → treeValue op shape core = some (treeOp op x y)) ∧
  (∀ grid sid core (s : State) g l k w x, s.tree.gens.find? (fun g => g.grid == grid && g.sid == sid && g.result.isSome &&
      g.cores.contains core) = some g → g.result = some l → s.away = [] → (∀ u, s.rdivClosed u = false) →
        s.waves.get? k = some w →
    w.ident.grid = grid →
    w.work.sends.get? sid = some x → x.core = core → x.gen = g.gen → x.result = none →
    ∃ t w', exec (.treeResult grid sid core) s = .next t ∧ t.mem = s.mem ∧ t.waves.get? k = some w' ∧
      w' = { w with work := { w.work with sends := w'.work.sends } } ∧
      w'.work.sends.get? sid = some { x with result := some (l.take 40 ++
        [BitVec.ofNat 32 (max x.status ((l[40]?).getD 0).toNat)]) }) ∧
  (∀ cl ext ecc (s s' : State) e o, s.stopped = false → s.tileNow cl = some (e, o) → s.away = [] →
    (s.rdivClosed e.ident.uid = true → exec (.tileOperation cl ext ecc) s = .next s) ∧
    (s.rdivClosed e.ident.uid = false → (s.addFlaws ecc).tileFetch e o ext = (.wait, s') →
      exec (.tileOperation cl ext ecc) s = .next s') ∧
    ∀ bs, s.rdivClosed e.ident.uid = false → (s.addFlaws ecc).tileFetch e o ext = (.bytes bs, s') → s'.away = [] →
    ∃ t l, exec (.tileOperation cl ext ecc) s = .next t ∧ t.mem = s'.mem ∧ (t.cluster cl).latch = some l ∧
      l.uid = e.ident.uid ∧ l.cbase = o.cbase ∧
      l.acc = tileRegs o.spec o.fmt (s'.startRegs cl e o).1 (valAt (fetchedVals o bs false) (fetchedCols o false))
        (valAt (fetchedVals o bs true) (fetchedCols o true)) ∧
      ∀ core slot w, s'.findWave e.ident.uid = some (core, slot, w) →
        t.wave? core slot = some { w with mat := { w.mat with ops := latchNext w.mat.ops } }) ∧
  ∀ cl (s : State) l core slot w, (s.cluster cl).latch = some l → s.tileNow cl = none → s.rdivClosed l.uid = false →
    s.awayClear l.uid (imageOfTile l.cbase l.acc.length) = true → s.findWave l.uid = some (core, slot, w) →
    ∃ t w', exec (.tileCompletion cl) s = .next t ∧ t.mem = s.mem ∧ (t.cluster cl).latch = none ∧
      t.wave? core slot = some w' ∧
      w' = { w with vec := w'.vec, mat := { w.mat with ops := w.mat.ops.filter (fun o => !o.latched) } } ∧
      ∀ r, w'.vec.get r = if l.cbase ≤ r ∧ r < l.cbase + l.acc.length then l.acc.getD (r - l.cbase) 0 else w.vec.get r

/-- R64 to R72, R78, R178, R312, R316, R326: the events that end a wait. WAIT completes once its counters lie within its
limits, a woken BARWAIT once the operations that had landed have completed, a QPOP with the entry that its turn brings, a
held CVSTEP once its wave is no longer SLIP ahead, a VLDC or VSTP with the effect that it has when it begins, once its lines
are ready and no access that reached them earlier could take them (all its lines in one step, log 89); an event that is
not due changes nothing (log 4). A member without patience is ejected with cause 2. A predicted BRM, the only one of its wave, whose lanes all
go on as predicted leaves its wave as it is; one whose lanes all fall through where all were predicted taken is undone and
falls through; one whose target lies out of the window is undone and, the model's choice (log 77), teaches the predictor
nothing. -/
def Obligations.WaitsEnd : Prop :=
  (∀ core slot n (s : State) x l st cp tl, s.waiter core slot n = some x → x.f.wait = .counters l st cp tl →
    x.w.work.deferred = [] → inNoConvoy s x.uid →
    let within : Prop := min 63 x.w.ldCount ≤ l.toNat ∧ min 63 x.w.stCount ≤ st.toNat ∧
      min 63 (s.cpCount x.uid) ≤ cp.toNat ∧ min 63 x.w.mat.ops.length ≤ tl.toNat
    (within → ∃ t, exec (.waitComplete core slot n) s = .next t ∧ goesOn s t x (x.after 4)) ∧
    (¬ within → exec (.waitComplete core slot n) s = .next s)) ∧
  (∀ core slot n (s : State) c d r ops wide, s.waiter core slot n = some c → c.f.wait = .barrierDone d r ops wide →
    inNoConvoy s c.uid →
    ((∃ k ∈ ops, s.engines.has k = true) → exec (.barwaitReturn core slot n) s = .next s) ∧
    ((∀ k ∈ ops, s.engines.has k = false) → ∃ t, exec (.barwaitReturn core slot n) s = .next t ∧
      writesReg (s.acquireL1 core true wide) t c d r (c.after 8))) ∧
  (∀ q (s : State), s.headClear q = false → exec (.qpopWake q) s = .next s) ∧
  (∀ q (s : State) u n rest core slot w c d, s.queueReady q = true → s.queueData q = true → s.headClear q = true →
    s.sched.qwait = (q, u, n) :: rest →
    s.findWave u = some (core, slot, w) → s.waiter core slot n = some c → c.f.wait = .queue q d → inNoConvoy s c.uid →
    s.serves (s.queueSlot q (s.queueHead q)) 0 → s.sound (s.queueSlot q (s.queueHead q)) 8 →
    ∃ t, exec (.qpopWake q) s = .next t ∧ t.sched.qwait = rest ∧ t.mem = s.mem ∧
      t.reg (queueReg q 0x18) = BitVec.ofNat 64 ((s.queueHead q + 1) % 2 ^ 32) ∧
      ∃ w', t.wave? core slot = some w' ∧
        scalarWrite c.w w' c.frag c.f d (wordOfBytes (s.mem.read (s.queueSlot q (s.queueHead q)) 8)) (c.after 4)) ∧
  (∀ core slot n (s : State) w f k c i m, s.wave? core slot = some w → w.cvFrags = [n] → w.frags.get? n = some f →
    f.wait = .cvstep →
    (w.sched.halted = true → exec (.cvstepRelease core slot) s = .next s) ∧
    (w.sched.halted = false → w.cv.mem = true → w.cv.pos ≠ BitVec.allOnes 64 →
      s.membership w.ident.uid = some (k, c, i, m) →
      (c.mustHold m.pos = true → exec (.cvstepRelease core slot) s = .next s) ∧
      (c.mustHold m.pos = false → ∃ t w', exec (.cvstepRelease core slot) s = .next t ∧
        t = { s with waves := t.waves, convoys := t.convoys } ∧ t.wave? core slot = some w' ∧
        fragAt w w' n f (f.spc + 4) ∧ w' = { w with frags := w'.frags, cv := { w.cv with pos := m.pos + 1 } } ∧
        ∃ c', t.convoys.get? k = some c' ∧ c'.mem.get? i = some { m with pos := m.pos + 1, idle := 0 } ∧
          c'.slip = c.slip ∧ c'.hwm.toNat = max c.hwm.toNat (m.pos + 1).toNat))) ∧
  (∀ k i (s : State) c m, s.convoys.get? k = some c → c.mem.get? i = some m → (∀ e ∈ c.mem, e.1 = i → e.2 = m) →
    let due : Prop := m.parked = false ∧ c.pat.toNat ≤ m.idle ∧ c.min? = some m.pos.toNat ∧
      ∃ e ∈ c.mem, s.heldMember c e.2 = true
    (¬ due → exec (.convoyPatienceEjection k i) s = .next s) ∧
    (due → ∃ t, exec (.convoyPatienceEjection k i) s = .next t ∧ sameBytes s t ∧
      (∀ k' c' i' m', t.convoys.get? k' = some c' → c'.mem.get? i' = some m' → m'.uid ≠ m.uid) ∧
      ∀ core slot w, s.findWave m.uid = some (core, slot, w) →
        t.wave? core slot = some { w with cv := { w.cv with mem := false, cause := 2, state := 2 } })) ∧
  (∀ core slot (s : State) wv it rest x, s.wave? core slot = some wv → wv.lane.queue = it :: rest →
    (s.cluster (clusterOf core)).linew.find? (fun x => x.kind == 0 && x.id == wv.ident.uid && x.seq == it.seq) = some x →
    let c : LCtx := ⟨core, slot, wv, it⟩
    let cl := clusterOf core
    let stays : Prop := s.stopped = true ∨ wv.sched.halted = true ∨ wv.dueAsync ≠ none ∨ x.ready (s.cluster cl) = false
    (stays → exec (.lineStateTake core slot) s = .next s) ∧
    (¬ stays → wv.fenced = false → ∀ w at_, (1 ≤ w.scp.toNat → wv.work.outs = []) →
      (decodeLane it.word = .ok (.vldc w) → inOwnScratch s c w c.mask (typWidth w.typ / 8) false cl at_ →
        (∀ l, l < 128 → c.mask.getLsbD l = true → s.lineFull cl (at_ l / 128) = true) → ¬ Says.beaten s c c.mask at_ →
        Says.takesLines (exec (.lineStateTake core slot) s) s c w at_) ∧
      (decodeLane it.word = .ok (.vstp w) → inOwnScratch s c w (c.taking w true) (typWidth w.typ / 8) true cl at_ →
        (∀ l, l < 128 → (c.taking w true).getLsbD l = true → s.lineFull cl (at_ l / 128) = false) →
        ¬ Says.beaten s c (c.taking w true) at_ → Says.fillsLines (exec (.lineStateTake core slot) s) s c w at_)) ∧
    (¬ stays → ∀ w,
      (decodeLane it.word = .ok (.vldc w) → laneGate (.vldc w) s = .run c →
        exec (.lineStateTake core slot) s = exec (.vldc w) s) ∧
      (decodeLane it.word = .ok (.vstp w) → laneGate (.vstp w) s = .run c →
        exec (.lineStateTake core slot) s = exec (.vstp w) s))) ∧
  ∀ core slot (s : State) w r, s.wave? core slot = some w → w.spec = [r] →
    (w.predPending r.p.toNat r.frag.emask r.seq = true → exec (.maskResolution core slot) s = .next s) ∧
    (w.predPending r.p.toNat r.frag.emask r.seq = false → w.groups = [] → r.frag.rcv = none → r.wrote = false →
      (s.reg (jobReg w.ident.job 0x80)).getLsbD 1 = false →
      let m := r.frag.emask
      let T := w.tested r.neg r.p m
      let guess := predicted r.kind r.mask m
      let target := branchTarget r.frag.spc r.off
      let stays (w' : Wave) : Prop :=
        w' = { w with spec := [], scl := w'.scl, frags := w'.frags, lane := w'.lane, sched := w'.sched, hist := w'.hist } ∧
          (r.later = [] → w'.hist = histShift r.hist (outcome T m).1)
      let undone (w' : Wave) (f : Frag) : Prop :=
        w'.scl = r.scl ∧ w'.frags.get? r.slot = some f ∧
        (∀ k, k ≠ r.slot → w'.frags.get? k = if r.taken = some k ∨ r.fall = some k then none else w.frags.get? k) ∧
        w'.lane.queue.map (·.seq) = (w.lane.queue.filter (fun i => i.spec.isEmpty)).map (·.seq)
      (inGlobal target = true → inGlobal (r.frag.spc + 4) = true → T = guess → T = m → T ≠ 0 →
        r.taken = some r.slot → r.fall = none →
        ∀ f, w.frags.get? r.slot = some f →
          f = { r.frag with spc := f.spc, bank := f.bank, fmt := f.fmt, wait := f.wait } →
        ∃ t w', exec (.maskResolution core slot) s = .next t ∧ sameBytes s t ∧ t.wave? core slot = some w' ∧ stays w' ∧
          w'.scl = w.scl ∧ (∀ k, w'.frags.get? k = w.frags.get? k) ∧
          t.reg (pmReg core 0x10) = s.reg (pmReg core 0x10) + 1) ∧
      (inGlobal (r.frag.spc + 4) = true → T = 0 → guess = m → m ≠ 0 → r.taken = some r.slot → r.fall = none →
        ∃ t w', exec (.maskResolution core slot) s = .next t ∧ sameBytes s t ∧ t.wave? core slot = some w' ∧ stays w' ∧
          undone w' { r.frag with spc := r.frag.spc + 4, wait := .run } ∧
          t.reg (pmReg core 0x18) = s.reg (pmReg core 0x18) + 1) ∧
      (T ≠ 0 → inGlobal target = false →
        ∃ t w', exec (.maskResolution core slot) s = .next t ∧ sameBytes s t ∧ t.wave? core slot = some w' ∧
          undone w' r.frag ∧ w'.spec = [] ∧ t.cores = s.cores))


/-- R170, R177, R179, R245, R246, R297, R301: what stands before every scalar instruction. It traps in the order of
R245, with the instruction word in TVAL, and performs nothing: ILLEGAL for a field of no allowed value, PRIVINSTR in
user mode for a handler register, ERET or a supervisor special register, SHAREDWRITE; then ADDRWINDOW at the end of the
window and the deferred trap of a register it reads or writes. A trap waits while a BRM of the wave is unresolved; on a
predicted path a stop and (log 12) a load wait. It waits while a register it reads or writes is pending; otherwise it
may have its effect. A tile operation reads sb+5 to sb+7 only where FMT has SMODE 01 (R336). The model's readings: TVAL of
an SX form has its literal in the upper half (log 27), and MFS, TRAP and BKPT wait for every BRM of the wave (log 12). -/
def Obligations.ScalarGate : Prop :=
  ∀ (i : Instr) (s : State) c info, scalarInfo i = some info → s.ctx = some c →
    let user : Prop := c.w.trap.sup = false
    let illegal : Prop :=
      (∃ r ∈ info.regs, 208 ≤ r.toNat) ∨ (∃ r ∈ info.bases, ¬ (r.toNat % 8 = 0 ∧ 8 ≤ r.toNat ∧ r.toNat ≤ 184)) ∨
        info.good = false
    let priv : Prop := (i = .eret ∧ user) ∨ (∃ d n, i = .mfs d n ∧ 0x100 ≤ n.toNat ∧ user) ∨
      (∃ a n, i = .mts a n ∧ (0x100 ≤ n.toNat ∨ (n = 0x22 ∧ user))) ∨ (user ∧ ∃ r ∈ info.regs, 192 ≤ r.toNat)
    let shared : Prop := 1 < c.w.frags.length ∧
      ((∃ r, i = .reggrow r ∨ i = .regshrink r) ∨ (∃ a n, i = .mts a n ∧ user ∧ roSpecial n = false) ∨
        (user ∧ ∃ d, info.dst = some d ∧ 1 ≤ d.toNat ∧ d.toNat ≤ 175))
    let ends : Prop := fallsThrough i = true ∧ c.f.spc.toNat + instrLen i = 2 ^ 56
    let named := readsAt i info c ++ info.dst.toList
    let held := c.w.deferredAt c.frag named
    let traps (tr : Trap) : Prop :=
      (c.w.spec = [] → exec i s = .next (s.trapAt c tr)) ∧ (c.w.spec ≠ [] → exec i s = .next s)
    (illegal → traps { cause := 0x01, tval := instrTval i }) ∧
    (¬ illegal → priv → traps { cause := 0x03, tval := instrTval i }) ∧
    (¬ illegal → ¬ priv → shared → traps { cause := 0x60, tval := instrTval i }) ∧
    (¬ illegal → ¬ priv → ¬ shared → ends → traps { cause := 0x20, tval := 0x0100_0000_0000_0000 }) ∧
    (¬ illegal → ¬ priv → ¬ shared → ¬ ends → ∀ d, held = some d →
      traps { cause := d.cause, tval := d.tval, h2 := d.h2, taken := some d }) ∧
    (¬ illegal → ¬ priv → ¬ shared → ¬ ends → held = none →
      let pending : Prop := ∃ r ∈ named, s.pendingScalar c.w c.frag r = true
      let stop : Prop := (c.w.pathOf c.frag ≠ [] ∧ (specStop i = true ∨ specLoad i = true)) ∨
        (c.w.spec ≠ [] ∧ (i = .bkpt ∨ (∃ x, i = .trap x) ∨ ∃ d n, i = .mfs d n))
      (stop ∨ pending → exec i s = .next s) ∧
      (¬ stop → ¬ pending → gate i s = .run { c with w := c.w.noteWrite c.frag info }))

/-- R162, R170, R177, R257, R341, R379, R380: what stands before every lane instruction. The head of the lane queue is
the word; it waits on a predicted path (log 12) and behind an acquire; a trap waits as well for an instruction that has begun and
for a BRM that can resolve (R177); a word that R257 refuses raises ILLEGALLANE, a word that would write one of s1 to
s175 for one of several fragments SHAREDWRITE, with bits 63:0 of the word in TVAL and its mask; it waits for its vector
registers; otherwise it may have its effect. A VADD word passes exactly where its type is an integer type, its unused
fields are 0, its sources are registers below VCOUNT, slots or integer constants and its destination is a register below
VCOUNT, registers of a 64-bit type even. -/
def Obligations.LaneGate : Prop :=
  (∀ (i : Instr) (s : State) c, s.lctx = some c → encode i = .lane c.it.word →
    let waits : Prop := c.it.spec ≠ [] ∨ ∃ o ∈ c.w.work.outs, o.acq = true
    let shared : Prop := 1 < c.it.nfrag ∧ c.w.trap.sup = false ∧
      ∃ d, c.it.scalarDst = some d ∧ 1 ≤ d.toNat ∧ d.toNat ≤ 175
    let traps (cause : BitVec 8) : Prop :=
      exec i s = (if c.w.trapHeld = true ∨ c.w.canResolve = true then .next s else .next (s.laneTrapAt c
        { cause := cause, tval := c.it.word.extractLsb' 0 64, lane := true, mask := c.mask }))
    (waits → exec i s = .next s) ∧
    (¬ waits → laneGood i c.w.vcount = false → traps 0x02) ∧
    (¬ waits → laneGood i c.w.vcount = true → shared → traps 0x60) ∧
    (¬ waits → laneGood i c.w.vcount = true → ¬ shared →
      ((∃ r ∈ laneRegs i, c.w.pendingVec c.it.seq r = true) → exec i s = .next s) ∧
      ((∀ r ∈ laneRegs i, c.w.pendingVec c.it.seq r = false) → laneGate i s = .run c))) ∧
  ∀ (w : LaneWord) vc,
    let wide := w.typ = 0x04 ∨ w.typ = 0x08
    let reg (r : Nat) : Prop := r < 256 ∧ r < vc ∧ (wide → r % 2 = 0)
    laneGood (.vadd w) vc = true ↔
      w.typ.toNat ∈ [0x02, 0x03, 0x04, 0x06, 0x07, 0x08] ∧ w.mod = 0 ∧ w.neg = 0 ∧ w.pred = 0 ∧ w.sc = 0 ∧
      w.low = 0 ∧ reg w.dst.toNat ∧ (reg w.sa.toNat ∨ (256 ≤ w.sa.toNat ∧ w.sa.toNat < 344)) ∧
      (reg w.sb.toNat ∨ (256 ≤ w.sb.toNat ∧ w.sb.toNat < 344))

/-- Table 13 and Table 5 of the encodings: sample words decode to what they stand for. -/
def Obligations.SampleWordsDecode : Prop :=
  decodeScalar 0x4005_0603 0 = .ok (.addImm 5 6 3) ∧
  decodeScalar 0x4105_0600 0x0001_86A0 = .ok (.addSx 5 6 0 0x0001_86A0) ∧
  decodeScalar 0x7204_0249 0 = .ok (.sld 4 2 0x49) ∧
  decodeScalar 0x7403_0251 0 = .ok (.sst 3 2 0x51) ∧
  decodeScalar 0x8601_1406 0 = .ok (.brm 0 1 1 1 6) ∧
  decodeScalar 0x8E08_000C 0 = .ok (.issue 8 12) ∧
  decodeScalar 0x92FF_F03F 0 = .ok (.wait 63 63 0 63) ∧
  decodeLane 0x2003_8000_1200_0100_0100_0000 = .ok (.vld ⟨0x07, 0, 0, 0, 4, 256, 1, 0, 0x0100_0000⟩) ∧
  decodeLane 0x0104_8000_0807_5900_0000_0000 = .ok (.vfadd ⟨0x09, 0, 0, 0, 2, 3, 345, 0, 0⟩) ∧
  decodeLane 0x9400_0000_1C00_0000_3F80_0000 = .ok (.vmovi ⟨0x00, 0, 0, 0, 7, 0, 0, 0, 0x3F80_0000⟩) ∧
  decodeScalar 0x0100_0000 0 = .error .reservedOpcode ∧ decodeScalar 0x9600_0001 0 = .error .fixedBits

/-- R239, R240, R248: the bytes of an instruction's encoding, each word lowest byte first, decode to that instruction,
with every field at every value, and to the bytes that follow it: for every scalar and every lane instruction. -/
def Obligations.DecodeOfEncode : Prop :=
  ∀ (i : Instr) (rest : List Byte),
    (∀ w, encode i = .scalar w → decodeScalarBytes (bytesOfWord32 w ++ rest) = .ok (i, rest)) ∧
    (∀ w lit, encode i = .scalarLit w lit →
      decodeScalarBytes (bytesOfWord32 w ++ bytesOfWord32 lit ++ rest) = .ok (i, rest)) ∧
    (∀ w, encode i = .lane w →
      decodeLaneBytes (bytesOfWord32 (w.extractLsb' 0 32) ++ bytesOfWord32 (w.extractLsb' 32 32) ++
      bytesOfWord32 (w.extractLsb' 64 32) ++ rest) = .ok (i, rest)) ∧
    (encode i = .none ↔ scalarInfo i = none ∧ laneInfo i = none)

/-- R240, R244, R248: each word has one meaning. A word that decodes is the encoding of what it decodes to, an SX form
with its literal; so two words that decode to one instruction are one word. -/
def Obligations.EncodeOfDecode : Prop :=
  (∀ w lit i, decodeScalar w lit = .ok i → encode i = (if hasLiteral w then .scalarLit w lit else .scalar w)) ∧
  ∀ w i, decodeLane w = .ok i → encode i = .lane w

/-- R194, R204, R239, log 3: a step is one turn and a clock. Where the words at the SPC of the fragment that issues
next, in memory, decode to an instruction, the step is `exec` of that instruction in a state that differs from this one
in the agenda, in `cur` and in the core's instruction cache; then the wave's issue books are kept and a clock passes. A
lane turn is `exec` of the head of the lane queue, an event turn of the event; a turn that waves of its quarter that have
waited longer could use is offered to them first (R194). With no agenda and no event due, the wave
that has waited longest, and past one that only stalls the next. With no ended wave's reductions left to perform, a
clock leaves every byte as it was and changes a wave only in its scheduling state, its convoy registers and, where a CVSTEP
waits, its fragments (R71); without one, its convoy counts alone, unless it is ejected for want of patience (R67). -/
def Obligations.StepRunsInstruction : Prop :=
  let then_ (books : State → State) (r : Host.Outcome State Fault Refusal) : Host.Outcome State Fault Refusal :=
    match r with
    | .next v => .next (books v).tick
    | .fault e => .fault e
    | .refused e => .refused e
  (∀ (s : State) core slot rest w n f w0 lit i (pa : Nat → Nat) (leaf : Nat → Word),
    s.agenda = .scalar core slot :: rest → State.ahead { s with agenda := rest } (.scalar core slot) = [] →
    s.wave? core slot = some w → s.stopped = false → w.sched.halted = false →
    s.inResume w = false → (w.spec = [] → (s.reg (jobReg w.ident.job 0x80)).getLsbD 1 = false) → w.dueAsync = none →
    nextSlot w.sched.lastFrag (s.issuable w) = some n → w.frags.get? n = some f →
    decodeScalar w0 lit = .ok i → (s.core core).noMiss = false →
    (∀ k, k = 0 ∨ (k = 1 ∧ hasLiteral w0 = true) →
      let key := BitVec.ofNat 10 (bits (leaf k) 60 51)
      let word := if k = 0 then w0 else lit
      windowOf (f.spc.toNat + 4 * k) = .global ∧
      s.translate core w.ident.job (f.spc.toNat + 4 * k) 3 w.sched.fails = .ok (pa k) (leaf k) ∧
      s.serves (pa k) key ∧ s.sound (pa k) 4 ∧ s.portsClear (dieOf core) (pa k) 4 = true ∧
      BitVec.ofNat 32 (natOfBytes (s.mem.read (pa k) 4)) = word ∧
      ∀ e ∈ (s.core core).icache, e.at_ = pa k / 4 → e.key = key → e.job = w.ident.job → e.word = word) →
    ∃ u, u = { s with agenda := rest, cur := some ⟨core, slot, n⟩, cores := u.cores } ∧
      (∀ c, u.core c = { s.core c with icache := (u.core c).icache }) ∧
      step s = then_ (fun v => (State.atTurn { s with agenda := rest } core slot n).scalarBooks v core slot n (!u.jumps i))
        (exec i u)) ∧
  (∀ (s : State) core slot rest w it q i, s.agenda = .lane core slot :: rest → State.ahead { s with agenda := rest } (.lane core slot) = [] →
    s.wave? core slot = some w → w.lane.queue = it :: q → s.laneStalls w = false → s.stopped = false → w.sched.halted = false → s.inResume w = false → w.dueAsync = none →
    decodeLane it.word = .ok i →
    let u := { s with agenda := rest, cur := some ⟨core, slot, it.frag⟩ }
    step s = then_ (fun v => u.laneBooks v core slot) (exec i u)) ∧
  (∀ (s : State) i rest, s.agenda = .dev i :: rest → step s = then_ id (exec i { s with agenda := rest, cur := none })) ∧
  (∀ (s : State) k rest l ls, s.agenda = k :: rest → State.ahead { s with agenda := rest } k = l :: ls →
    step s = then_ id (State.offer { s with agenda := rest } (l :: ls ++ [k]))) ∧
  (∀ s : State, s.agenda = [] → s.firstChange s.candidates = none →
    let turns := s.waveTurns.foldr turnInsert []
    let used (turn : Turn) (v : State) : Bool := match turn with
      | .scalar core slot => s.useful v core slot false
      | .lane core slot => s.useful v core slot true
      | .dev _ => true
    turns.Perm s.waveTurns ∧ turns.Pairwise (fun a b => a.1 ≤ b.1) ∧ (turns = [] → step s = .next s.tick) ∧
    ∀ turn more, turns.map (·.2) = turn :: more →
      ((∀ v, s.chance turn = .next v → used turn v = true) → step s = step { s with agenda := [turn] }) ∧
      ∀ v, s.chance turn = .next v → used turn v = false → step s = then_ id (v.offer more)) ∧
  (∀ (s v : State) core slot n stay, ∀ u ∈ [s.scalarBooks v core slot n stay, s.laneBooks v core slot],
    u = { v with waves := u.waves } ∧ (∀ k, k ≠ slotKey core slot → u.waves.get? k = v.waves.get? k) ∧
    ∀ w, v.wave? core slot = some w → ∃ w', u.wave? core slot = some w' ∧ w' = { w with sched := w'.sched }) ∧
  ∀ s : State, s.tick.clk = s.clk + 1 ∧ (s.drains = [] → sameBytes s s.tick ∧
    ∀ k w, s.waves.get? k = some w → ∃ w', s.tick.waves.get? k = some w' ∧
      w' = { w with sched := w'.sched, cv := w'.cv, frags := w'.frags } ∧
      (w.cvFrags = [] → w'.frags = w.frags ∧ (w'.cv = { w.cv with held := w'.cv.held } ∨
        w'.cv = { w.cv with held := w'.cv.held, mem := false, cause := 2, state := 2 })))

/-- R174, R190, R222 to R225, log 8: after a cold reset the registers of Table 16 hold what it says and every other
register of the management window 0; no job, queue, key, region, grid, convoy, counter, predictor entry or diversion entry
is in use; the first grid is grid 1 and the first fault record carries SEQ 0. What unwritten memory reads as (0) is the
model's choice, log 8; that FABID.NUM and the ECC mode read 0 before any training is log 1, and FWSTAT's VERSION with DEVSTAT
is log 21. -/
def Obligations.ResetState : Prop :=
  let r := State.reset
  (∀ o, r.reg o = if o = 0x421008 then 0x100000 else if o = 0x421010 then 2800 else if o = 0x421030 then 262144 else 0) ∧
  (∀ o, o = 0x428 ∨ o = 0x508 ∨ o = 0x520 → r.mgmtRead o = 0) ∧
  (∀ j, r.jobState j = 0) ∧ (∀ q, r.queueOn q = false) ∧ (∀ k, r.ctl.keys.get k = 0) ∧
  (∀ n, r.liveEntry n = ⟨false, 0, false⟩) ∧ (∀ a, r.mem.byte a = 0) ∧ (∀ k, r.waves.get? k = none) ∧
  (∀ k, r.convoys.get? k = none) ∧ (∀ k, r.sched.deps.get? k = none) ∧ (∀ k, r.sched.grids.get? k = none) ∧
  (∀ c k, (r.core c).rdiv.get? k = none ∧ (r.core c).pred.get? k = none) ∧ (∀ c k, (r.cluster c).ships.get? k = none) ∧
  r.sched.nextGrid = 1 ∧ r.xlate.seq = 0 ∧ r.clk = 0 ∧ r.stopped = false

/-- Log 8: after reset main memory and every scratch memory hold their canonical form. -/
def Obligations.ResetStoresCanonical : Prop := State.reset.storesCanonical

/-- Every step keeps the canonical form of main memory and of every scratch memory: addresses strictly rising, no entry 0
(log 8), so that equal memories are equal data. -/
def Obligations.StepKeepsStores : Prop := ∀ s t, s.storesCanonical → step s = .next t → t.storesCanonical
end

