-- ==== Sys2Proof/Laws/Store.lean ====
section
/-!
SUPPORT. Tables, sparse files and byte stores: what a read gives after a write, for every list, and that every write
keeps the canonical form.
-/
namespace Sys2Proof.Machine

/-! ### Tables -/

@[simp] theorem Tab.get?_nil {α : Type} (n : Nat) : Tab.get? ([] : Tab α) n = none := rfl

theorem Tab.get?_cons {α : Type} (e : Nat × α) (t : Tab α) (n : Nat) :
    Tab.get? (e :: t) n = if e.1 = n then some e.2 else Tab.get? t n := rfl

@[simp] theorem Tab.get?_set_self {α : Type} (t : Tab α) (n : Nat) (a : α) : (t.set n a).get? n = some a := by
  induction t with
  | nil => simp [Tab.set, Tab.get?]
  | cons e t ih =>
    obtain ⟨k, b⟩ := e
    simp only [Tab.set]
    split
    · simp [Tab.get?]
    · split
      · simp [Tab.get?]
      · rename_i h; simp [Tab.get?, h, ih]

theorem Tab.get?_set_other {α : Type} (t : Tab α) {n m : Nat} (a : α) (h : m ≠ n) : (t.set n a).get? m = t.get? m := by
  have hn : n ≠ m := fun e => h e.symm
  induction t with
  | nil => simp [Tab.set, Tab.get?, hn]
  | cons e t ih =>
    obtain ⟨k, b⟩ := e
    simp only [Tab.set]
    split
    · simp [Tab.get?, hn]
    · split
      · rename_i h2; subst h2; simp [Tab.get?, hn]
      · simp [Tab.get?, ih]

theorem Tab.get?_set {α : Type} (t : Tab α) (n m : Nat) (a : α) :
    (t.set n a).get? m = if m = n then some a else t.get? m := by
  split
  · rename_i h; subst h; simp
  · rename_i h; exact Tab.get?_set_other t a h

@[simp] theorem Tab.get?_del_self {α : Type} (t : Tab α) (n : Nat) : (t.del n).get? n = none := by
  induction t with
  | nil => rfl
  | cons e t ih =>
    simp only [Tab.del, List.filter_cons] at *
    split
    · rename_i h; simp at h; simp [Tab.get?_cons, h, ih]
    · exact ih

theorem Tab.get?_del_other {α : Type} (t : Tab α) {n m : Nat} (h : m ≠ n) : (t.del n).get? m = t.get? m := by
  induction t with
  | nil => rfl
  | cons e t ih =>
    simp only [Tab.del, List.filter_cons] at *
    split
    · simp [Tab.get?_cons, ih]
    · rename_i h2; simp at h2; rw [ih, Tab.get?_cons, if_neg (by omega)]

theorem Tab.get?_update {α : Type} (t : Tab α) (n m : Nat) (f : α → α) :
    (t.update n f).get? m = if m = n then (t.get? n).map f else t.get? m := by
  unfold Tab.update
  split
  · rename_i a h; rw [Tab.get?_set]; simp [h]
  · rename_i h; split
    · rename_i e; subst e; simp [h]
    · rfl

theorem Tab.get?_mapAll {α : Type} (t : Tab α) (f : Nat → α → α) (n : Nat) :
    (t.mapAll f).get? n = (t.get? n).map (f n) := by
  induction t with
  | nil => rfl
  | cons e t ih =>
    simp only [Tab.mapAll, List.map_cons] at *
    rw [Tab.get?_cons, Tab.get?_cons]
    split
    · rename_i h; simp_all
    · exact ih

/-! ### Sparse files -/

@[simp] theorem Sparse.get_nil {n : Nat} (m : Nat) : Sparse.get ([] : Sparse n) m = 0 := rfl

theorem Sparse.get_cons {n : Nat} (e : Nat × BitVec n) (t : Sparse n) (m : Nat) :
    Sparse.get (e :: t) m = if e.1 = m then e.2 else Sparse.get t m := rfl

theorem Sparse.get_filter {n : Nat} (s : Sparse n) (p : Nat → Bool) (k : Nat) :
    Sparse.get (s.filter (fun e => p e.1)) k = if p k then s.get k else 0 := by
  induction s with
  | nil => simp
  | cons e t ih =>
    simp only [List.filter_cons]
    by_cases h : p e.1 = true
    · simp only [h, if_true, Sparse.get_cons, ih]
      split
      · rename_i e1; subst e1; simp [h]
      · rfl
    · rw [if_neg h, ih, Sparse.get_cons]
      by_cases hk : e.1 = k
      · subst hk; rw [if_neg h, if_neg h]
      · rw [if_neg hk]

theorem Sparse.get_put {n : Nat} (s : Sparse n) (m k : Nat) (v : BitVec n) :
    (s.put m v).get k = if k = m then v else s.get k := by
  induction s with
  | nil => by_cases h : m = k <;> simp [Sparse.put, Sparse.get, h, eq_comm]
  | cons e t ih =>
    obtain ⟨j, a⟩ := e
    by_cases hk : k = m
    · subst hk
      simp only [Sparse.put, if_true] at ih ⊢
      split
      · simp [Sparse.get]
      · split
        · simp [Sparse.get]
        · rename_i h; simp [Sparse.get, h, ih]
    · have hm : m ≠ k := fun e => hk e.symm
      simp only [Sparse.put, hk, if_false] at ih ⊢
      split
      · simp [Sparse.get, hm]
      · split
        · rename_i h; subst h; simp [Sparse.get, hm]
        · simp [Sparse.get, ih]

/-- A read after a write, in any file. -/
theorem Sparse.get_set {n : Nat} (s : Sparse n) (m k : Nat) (v : BitVec n) :
    (s.set m v).get k = if k = m then v else s.get k := by
  unfold Sparse.set
  split
  · rename_i h
    rw [Sparse.get_filter s (fun j => j != m) k]
    by_cases hk : k = m <;> simp [hk, h]
  · exact Sparse.get_put s m k v

@[simp] theorem Sparse.get_set_self {n : Nat} (s : Sparse n) (m : Nat) (v : BitVec n) : (s.set m v).get m = v := by
  simp [Sparse.get_set]

theorem Sparse.get_set_other {n : Nat} (s : Sparse n) {m k : Nat} (v : BitVec n) (h : k ≠ m) :
    (s.set m v).get k = s.get k := by simp [Sparse.get_set, h]

theorem Sparse.wfFrom_mono {n : Nat} {s : Sparse n} {lo hi : Nat} (h : hi ≤ lo) (w : Sparse.wfFrom lo s = true) :
    Sparse.wfFrom hi s = true := by
  cases s with
  | nil => rfl
  | cons e t =>
    simp only [Sparse.wfFrom, Bool.and_eq_true, decide_eq_true_eq] at *
    exact ⟨⟨Nat.le_trans h w.1.1, w.1.2⟩, w.2⟩

theorem Sparse.wfFrom_filter {n : Nat} (p : Nat × BitVec n → Bool) {s : Sparse n} {lo : Nat}
    (w : Sparse.wfFrom lo s = true) : Sparse.wfFrom lo (s.filter p) = true := by
  induction s generalizing lo with
  | nil => rfl
  | cons e t ih =>
    simp only [Sparse.wfFrom, Bool.and_eq_true, decide_eq_true_eq] at w
    simp only [List.filter_cons]
    split
    · simp only [Sparse.wfFrom, Bool.and_eq_true, decide_eq_true_eq]
      exact ⟨w.1, ih w.2⟩
    · exact Sparse.wfFrom_mono (by omega) (ih w.2)

theorem Sparse.wfFrom_put {n : Nat} {s : Sparse n} {lo m : Nat} {v : BitVec n} (hv : v ≠ 0) (hm : lo ≤ m)
    (w : Sparse.wfFrom lo s = true) : Sparse.wfFrom lo (s.put m v) = true := by
  induction s generalizing lo with
  | nil =>
    simp only [Sparse.put, Sparse.wfFrom, Bool.and_true, Bool.and_eq_true, decide_eq_true_eq]
    exact ⟨hm, hv⟩
  | cons e t ih =>
    obtain ⟨k, a⟩ := e
    simp only [Sparse.wfFrom, Bool.and_eq_true, decide_eq_true_eq] at w
    simp only [Sparse.put]
    split
    · simp only [Sparse.wfFrom, Bool.and_eq_true, decide_eq_true_eq]
      exact ⟨⟨hm, hv⟩, ⟨by omega, w.1.2⟩, w.2⟩
    · split
      · rename_i e; subst e
        simp only [Sparse.wfFrom, Bool.and_eq_true, decide_eq_true_eq]
        exact ⟨⟨hm, hv⟩, w.2⟩
      · simp only [Sparse.wfFrom, Bool.and_eq_true, decide_eq_true_eq]
        exact ⟨w.1, ih (by omega) w.2⟩

/-- A write keeps the canonical form. -/
theorem Sparse.wf_set {n : Nat} {s : Sparse n} (m : Nat) (v : BitVec n) (w : s.wf = true) : (s.set m v).wf = true := by
  unfold Sparse.set Sparse.wf at *
  split
  · exact Sparse.wfFrom_filter _ w
  · rename_i h; exact Sparse.wfFrom_put h (Nat.zero_le _) w

/-! ### Byte stores -/

theorem Memory.byte_setByte (m : Memory) (a k : Nat) (b : Byte) :
    (m.setByte a b).byte k = if k = a then b else m.byte k := Sparse.get_set (n := 8) m a k b

theorem Memory.wf_setByte {m : Memory} (a : Nat) (b : Byte) (w : m.wf = true) : (m.setByte a b).wf = true :=
  Sparse.wf_set (n := 8) a b w

theorem Memory.wf_write {m : Memory} (a : Nat) (bs : List Byte) (w : m.wf = true) : (m.write a bs).wf = true := by
  induction bs generalizing m a with
  | nil => exact w
  | cons b bs ih => exact ih (a + 1) (Memory.wf_setByte a b w)

theorem Memory.wf_writeMasked {m : Memory} (a mask : Nat) (bs : List Byte) (w : m.wf = true) :
    (m.writeMasked a mask bs).wf = true := by
  induction bs generalizing m a mask with
  | nil => exact w
  | cons b bs ih =>
    simp only [Memory.writeMasked]
    split
    · exact ih (a + 1) (mask / 2) (Memory.wf_setByte a b w)
    · exact ih (a + 1) (mask / 2) w

theorem Memory.wf_zero {m : Memory} (a n : Nat) (w : m.wf = true) : (m.zero a n).wf = true :=
  Sparse.wfFrom_filter (n := 8) _ w

/-- A byte outside a write reads as before; a byte inside it is the byte written. -/
theorem Memory.byte_write (m : Memory) (a k : Nat) (bs : List Byte) :
    (m.write a bs).byte k = if a ≤ k ∧ k < a + bs.length then bs.getD (k - a) 0 else m.byte k := by
  induction bs generalizing m a with
  | nil => rw [if_neg (by simp)]; rfl
  | cons b bs ih =>
    simp only [Memory.write, ih, Memory.byte_setByte, List.length_cons]
    by_cases h : k = a
    · subst h
      rw [if_neg (by omega), if_pos rfl, if_pos (by omega)]
      simp
    · by_cases h2 : a + 1 ≤ k ∧ k < a + 1 + bs.length
      · rw [if_pos h2, if_pos (by omega)]
        obtain ⟨j, hj⟩ : ∃ j, k - a = j + 1 := ⟨k - a - 1, by omega⟩
        rw [hj, show k - (a + 1) = j by omega]
        simp
      · rw [if_neg h2, if_neg h, if_neg (by omega)]

theorem Memory.byte_write_outside (m : Memory) {a k : Nat} (bs : List Byte) (h : k < a ∨ a + bs.length ≤ k) :
    (m.write a bs).byte k = m.byte k := by rw [Memory.byte_write, if_neg (by omega)]

theorem Memory.byte_zero (m : Memory) (a n k : Nat) :
    (m.zero a n).byte k = if a ≤ k ∧ k < a + n then 0 else m.byte k := by
  refine (Sparse.get_filter (n := 8) m (fun j => decide (j < a ∨ a + n ≤ j)) k).trans ?_
  by_cases h : a ≤ k ∧ k < a + n
  · rw [if_pos h, if_neg (by simp; omega)]
  · rw [if_neg h, if_pos (by simp; omega)]; rfl

@[simp] theorem bytesOfNat_length (n v : Nat) : (bytesOfNat n v).length = n := by
  induction n generalizing v with
  | zero => rfl
  | succ n ih => simp [bytesOfNat, ih]

theorem natOfBytes_bytesOfNat (n v : Nat) : natOfBytes (bytesOfNat n v) = v % 256 ^ n := by
  induction n generalizing v with
  | zero => simp [bytesOfNat, natOfBytes, Nat.mod_one]
  | succ n ih =>
    simp only [bytesOfNat, natOfBytes, ih, BitVec.toNat_ofNat]
    rw [show (256 : Nat) ^ (n + 1) = 256 * 256 ^ n by rw [Nat.pow_succ, Nat.mul_comm]]
    have := Nat.mod_mul (a := 256) (b := 256 ^ n) (x := v)
    omega

theorem Memory.read_write (m : Memory) (a : Nat) (bs : List Byte) : (m.write a bs).read a bs.length = bs := by
  have key : ∀ (cs : List Byte) (m : Memory) (b : Nat),
      (∀ i, i < cs.length → m.byte (b + i) = cs.getD i 0) → m.read b cs.length = cs := by
    intro cs
    induction cs with
    | nil => intros; rfl
    | cons c cs ih =>
      intro m b h
      simp only [List.length_cons, Memory.read]
      rw [ih m (b + 1) (fun i hi => by
        have := h (i + 1) (by simp; omega)
        simpa [Nat.add_assoc, Nat.add_comm 1 i] using this)]
      have := h 0 (by simp)
      simp at this
      rw [this]
  exact key bs _ a (fun i hi => by rw [Memory.byte_write, if_pos (by omega)]; simp)

end Sys2Proof.Machine
end

