-- ==== Sys2Proof/Laws/Scalar.lean ====
section
/-!
SUPPORT. What the shared operations of the scalar instructions do: the gate, the write of one register, the step of the
SPC, and the effect of an instruction that computes one register.
-/
namespace Sys2Proof.Machine

/-! ### One wave of the table -/

@[simp] theorem wave?_setWave_self (s : State) (core slot : Nat) (w : Wave) :
    (s.setWave core slot w).wave? core slot = some w := Tab.get?_set_self _ _ _

theorem onlyWave_setWave (s : State) (core slot : Nat) (w : Wave) : onlyWave s (s.setWave core slot w) core slot w :=
  ⟨rfl, ⟨fun _ => rfl, fun _ _ => rfl⟩, wave?_setWave_self s core slot w, fun _ h => Tab.get?_set_other _ _ h⟩

/-! ### Scalar registers -/

/-- Register writes leave the rest of the wave. -/
theorem putReg_frame (w : Wave) (n : Nat) (d : BitVec 8) (v : Word) :
    w.putReg n d v = { w with
      scl := (w.putReg n d v).scl, frags := (w.putReg n d v).frags,
      trap := { w.trap with h := (w.putReg n d v).trap.h } } := by
  unfold Wave.putReg; repeat' split
  all_goals rfl

theorem putReg_frags_other (w : Wave) {n k : Nat} (d : BitVec 8) (v : Word) (h : k ≠ n) :
    (w.putReg n d v).frags.get? k = w.frags.get? k := by
  unfold Wave.putReg; repeat' split
  all_goals first
    | rfl
    | (simp only [Tab.get?_update, if_neg h])

theorem putReg_frag (w : Wave) {n : Nat} {f : Frag} (d : BitVec 8) (v : Word) (h : w.frags.get? n = some f) :
    ∃ b, (w.putReg n d v).frags.get? n = some { f with bank := b } := by
  unfold Wave.putReg; repeat' split
  all_goals exact ⟨_, by simp only [Tab.get?_update, if_true, h]; rfl⟩

/-- A read after a write of a scalar register (R198, R258). -/
theorem readReg_putReg (w : Wave) {n : Nat} {f f' : Frag} (d r : BitVec 8) (v : Word) (h : w.frags.get? n = some f)
    (h' : (w.putReg n d v).frags.get? n = some f') :
    readReg (w.putReg n d v) f' r = if r = d then (if d = 0 then 0 else v) else readReg w f r := by
  have e0 : ∀ x : BitVec 8, x = 0 ↔ x.toNat = 0 := fun x => by
    constructor
    · rintro rfl; rfl
    · intro e; exact BitVec.eq_of_toNat_eq e
  have en : ∀ x y : BitVec 8, x = y ↔ x.toNat = y.toNat := fun x y => BitVec.toNat_inj.symm
  unfold Wave.putReg at h' ⊢
  by_cases hd0 : d.toNat = 0
  · rw [if_pos hd0] at h' ⊢
    rw [h] at h'; cases h'
    by_cases hr : r = d
    · subst hr; rw [if_pos rfl, if_pos ((e0 r).2 hd0)]; simp [readReg, hd0]
    · simp [hr]
  · rw [if_neg hd0] at h' ⊢
    have hz : ¬ d = 0 := fun e => hd0 ((e0 d).1 e)
    by_cases h1 : d.toNat < 176
    · rw [if_pos h1] at h' ⊢
      rw [h] at h'; cases h'
      by_cases hr : r = d
      · subst hr; rw [if_pos rfl, if_neg hz]; simp [readReg, hd0, h1]
      · have : r.toNat ≠ d.toNat := fun e => hr ((en r d).2 e)
        simp only [readReg, hr, if_false, Sparse.get_set_other _ _ this]
    · rw [if_neg h1] at h' ⊢
      by_cases h2 : d.toNat < 192
      · rw [if_pos h2] at h' ⊢
        simp only [Tab.get?_update, if_true, h, Option.map_some, Option.some.injEq] at h'
        subst h'
        by_cases hr : r = d
        · subst hr; rw [if_pos rfl, if_neg hz]; simp [readReg, hd0, h1, h2]
        · have : r.toNat ≠ d.toNat := fun e => hr ((en r d).2 e)
          simp only [readReg, hr, if_false, Sparse.get_set_other _ _ this]
      · rw [if_neg h2] at h' ⊢
        rw [h] at h'; cases h'
        by_cases hr : r = d
        · subst hr; rw [if_pos rfl, if_neg hz]; simp [readReg, hd0, h1, h2]
        · simp only [readReg, hr, if_false]
          by_cases a : r.toNat < 192
          · by_cases b : r.toNat < 176 <;> simp [a, b]
          · have : r.toNat - 192 ≠ d.toNat - 192 := fun e => hr ((en r d).2 (by omega))
            simp [a, Sparse.get_set_other _ _ this]

/-- A register write and the step of the SPC, within the wave. -/
theorem scalarWrite_advance (w : Wave) (n : Nat) (f : Frag) (d : BitVec 8) (v : Word) (len : Nat)
    (h : w.frags.get? n = some f) :
    scalarWrite w ((w.putReg n d v).advance n len) n f d v (f.spc + BitVec.ofNat 64 len) := by
  obtain ⟨b, hb⟩ := putReg_frag w d v h
  refine ⟨?_, ?_, ?_⟩
  · conv => lhs; unfold Wave.advance; rw [putReg_frame]
    rfl
  · intro k hk
    show ((w.putReg n d v).frags.update n _).get? k = _
    rw [Tab.get?_update, if_neg hk, putReg_frags_other w d v hk]
  · refine ⟨{ f with bank := b, spc := f.spc + BitVec.ofNat 64 len, wait := .run }, ?_, rfl, ?_, ?_⟩
    · show ((w.putReg n d v).frags.update n _).get? n = _
      rw [Tab.get?_update, if_pos rfl, hb]; rfl
    · exact (readReg_putReg w d d v h hb).trans (if_pos rfl)
    · intro r hr
      exact (readReg_putReg w d r v h hb).trans (if_neg hr)

/-! ### The gate -/

/-- The fragment of the context is the one its wave has. -/
theorem ctx_frag {s : State} {c : Ctx} (h : s.ctx = some c) : c.w.frags.get? c.frag = some c.f := by
  unfold State.ctx at h
  repeat' split at h
  all_goals first
    | (simp only [Option.some.injEq] at h; subst h; assumption)
    | cases h

theorem noteWrite_frags (w : Wave) (n : Nat) (i : ScalarInfo) : (w.noteWrite n i).frags = w.frags := by
  unfold Wave.noteWrite; repeat' split
  all_goals rfl

/-- What it says that an instruction's effect follows: the wave of `cur`, no trap, no stop or load of a fragment on a
predicted path, none of the instructions that a wave's unresolved BRMs hold back, no register pending. -/
theorem gate_run {i : Instr} {s : State} {c : Ctx} (h : gate i s = .run c) :
    ∃ c0 info, s.ctx = some c0 ∧ scalarInfo i = some info ∧ c = { c0 with w := c0.w.noteWrite c0.frag info } ∧
      scalarTrap i info c0 = none ∧ ((c0.w.pathOf c0.frag).isEmpty = true ∨ (specStop i || specLoad i) = false) ∧
      (c0.w.spec.isEmpty = true ∨ specBar i = false) ∧
      (readsAt i info c0 ++ info.dst.toList).any (s.pendingScalar c0.w c0.frag) = false := by
  unfold gate at h
  split at h
  · rename_i c0 info hc hi
    split at h
    · split at h <;> cases h
    · rename_i ht
      split at h
      · cases h
      · rename_i hs
        split at h
        · cases h
        · rename_i hb
          split at h
          · cases h
          · rename_i hp
            simp only [Gate.run.injEq] at h
            simp only [Bool.and_eq_true, Bool.not_eq_true', not_and, Bool.not_eq_true] at hs hb
            refine ⟨c0, info, hc, hi, h.symm, ht, ?_, ?_, by simpa using hp⟩
            · cases he : (c0.w.pathOf c0.frag).isEmpty
              · exact .inr (hs he)
              · exact .inl rfl
            · cases he : c0.w.spec.isEmpty
              · exact .inr (hb he)
              · exact .inl rfl
  · cases h

theorem gate_frag {i : Instr} {s : State} {c : Ctx} (h : gate i s = .run c) :
    c.w.frags.get? c.frag = some c.f := by
  obtain ⟨c0, info, hc, -, rfl, -⟩ := gate_run h
  simpa [noteWrite_frags] using ctx_frag hc

theorem scalarOp_run {i : Instr} {s : State} {c : Ctx} (h : gate i s = .run c) (body : Ctx → Result) :
    scalarOp i s body = body c := by unfold scalarOp; rw [h]

/-! ### One register -/

/-- Completing with a value writes one register and goes on. -/
theorem finish_writesReg (s : State) {c : Ctx} (h : c.w.frags.get? c.frag = some c.f) (d : BitVec 8) (v : Word)
    (len : Nat) : writesReg s (c.finish s d v len) c d v (c.after len) :=
  ⟨_, onlyWave_setWave s c.core c.slot _, scalarWrite_advance c.w c.frag c.f d v len h⟩

theorem skip_goesOn (s : State) {c : Ctx} (h : c.w.frags.get? c.frag = some c.f) (len : Nat) :
    goesOn s (c.skip s len) c (c.after len) := finish_writesReg s h 0 0 len

/-- An instruction that computes one register: its whole effect, where its gate lets it run. -/
theorem computeOp_run {i : Instr} {s : State} {c : Ctx} (h : gate i s = .run c) (d : BitVec 8) (v : Ctx → Word) :
    ∃ t, computeOp i s d v = .next t ∧ writesReg s t c d (v c) (c.after (instrLen i)) :=
  ⟨_, scalarOp_run h _, finish_writesReg s (gate_frag h) d (v c) _⟩

end Sys2Proof.Machine
end

