-- ==== Sys2Proof/Laws/State.lean ====
section
/-!
SUPPORT. What each update of the state and of a wave leaves as it was, one lemma for each field, and what a read gives
after a write, so that no proof unfolds a record update.
-/
namespace Sys2Proof.Machine

/-! ### A wave of a slot -/

@[simp] theorem setWave_clk (s : State) (core slot : Nat) (w : Wave) : (s.setWave core slot w).clk = s.clk := rfl
@[simp] theorem setWave_mreg (s : State) (core slot : Nat) (w : Wave) : (s.setWave core slot w).mreg = s.mreg := rfl
@[simp] theorem setWave_mem (s : State) (core slot : Nat) (w : Wave) : (s.setWave core slot w).mem = s.mem := rfl
@[simp] theorem setWave_away (s : State) (core slot : Nat) (w : Wave) : (s.setWave core slot w).away = s.away := rfl
@[simp] theorem setWave_cores (s : State) (core slot : Nat) (w : Wave) : (s.setWave core slot w).cores = s.cores := rfl
@[simp] theorem setWave_clusters (s : State) (core slot : Nat) (w : Wave) : (s.setWave core slot w).clusters = s.clusters := rfl
@[simp] theorem setWave_net (s : State) (core slot : Nat) (w : Wave) : (s.setWave core slot w).net = s.net := rfl
@[simp] theorem setWave_ctl (s : State) (core slot : Nat) (w : Wave) : (s.setWave core slot w).ctl = s.ctl := rfl
@[simp] theorem setWave_xlate (s : State) (core slot : Nat) (w : Wave) : (s.setWave core slot w).xlate = s.xlate := rfl
@[simp] theorem setWave_engines (s : State) (core slot : Nat) (w : Wave) : (s.setWave core slot w).engines = s.engines := rfl
@[simp] theorem setWave_arrivals (s : State) (core slot : Nat) (w : Wave) : (s.setWave core slot w).arrivals = s.arrivals := rfl
@[simp] theorem setWave_drains (s : State) (core slot : Nat) (w : Wave) : (s.setWave core slot w).drains = s.drains := rfl
@[simp] theorem setWave_convoys (s : State) (core slot : Nat) (w : Wave) : (s.setWave core slot w).convoys = s.convoys := rfl
@[simp] theorem setWave_tree (s : State) (core slot : Nat) (w : Wave) : (s.setWave core slot w).tree = s.tree := rfl
@[simp] theorem setWave_sched (s : State) (core slot : Nat) (w : Wave) : (s.setWave core slot w).sched = s.sched := rfl
@[simp] theorem setWave_host (s : State) (core slot : Nat) (w : Wave) : (s.setWave core slot w).host = s.host := rfl
@[simp] theorem setWave_fw (s : State) (core slot : Nat) (w : Wave) : (s.setWave core slot w).fw = s.fw := rfl
@[simp] theorem setWave_agenda (s : State) (core slot : Nat) (w : Wave) : (s.setWave core slot w).agenda = s.agenda := rfl
@[simp] theorem setWave_cur (s : State) (core slot : Nat) (w : Wave) : (s.setWave core slot w).cur = s.cur := rfl
@[simp] theorem setWave_free (s : State) (core slot : Nat) (w : Wave) : (s.setWave core slot w).free = s.free := rfl

/-! ### A management register -/

@[simp] theorem setReg_clk (s : State) (o : Nat) (v : Word) : (s.setReg o v).clk = s.clk := rfl
@[simp] theorem setReg_mem (s : State) (o : Nat) (v : Word) : (s.setReg o v).mem = s.mem := rfl
@[simp] theorem setReg_waves (s : State) (o : Nat) (v : Word) : (s.setReg o v).waves = s.waves := rfl
@[simp] theorem setReg_away (s : State) (o : Nat) (v : Word) : (s.setReg o v).away = s.away := rfl
@[simp] theorem setReg_cores (s : State) (o : Nat) (v : Word) : (s.setReg o v).cores = s.cores := rfl
@[simp] theorem setReg_clusters (s : State) (o : Nat) (v : Word) : (s.setReg o v).clusters = s.clusters := rfl
@[simp] theorem setReg_net (s : State) (o : Nat) (v : Word) : (s.setReg o v).net = s.net := rfl
@[simp] theorem setReg_ctl (s : State) (o : Nat) (v : Word) : (s.setReg o v).ctl = s.ctl := rfl
@[simp] theorem setReg_xlate (s : State) (o : Nat) (v : Word) : (s.setReg o v).xlate = s.xlate := rfl
@[simp] theorem setReg_engines (s : State) (o : Nat) (v : Word) : (s.setReg o v).engines = s.engines := rfl
@[simp] theorem setReg_arrivals (s : State) (o : Nat) (v : Word) : (s.setReg o v).arrivals = s.arrivals := rfl
@[simp] theorem setReg_drains (s : State) (o : Nat) (v : Word) : (s.setReg o v).drains = s.drains := rfl
@[simp] theorem setReg_convoys (s : State) (o : Nat) (v : Word) : (s.setReg o v).convoys = s.convoys := rfl
@[simp] theorem setReg_tree (s : State) (o : Nat) (v : Word) : (s.setReg o v).tree = s.tree := rfl
@[simp] theorem setReg_sched (s : State) (o : Nat) (v : Word) : (s.setReg o v).sched = s.sched := rfl
@[simp] theorem setReg_host (s : State) (o : Nat) (v : Word) : (s.setReg o v).host = s.host := rfl
@[simp] theorem setReg_fw (s : State) (o : Nat) (v : Word) : (s.setReg o v).fw = s.fw := rfl
@[simp] theorem setReg_agenda (s : State) (o : Nat) (v : Word) : (s.setReg o v).agenda = s.agenda := rfl
@[simp] theorem setReg_cur (s : State) (o : Nat) (v : Word) : (s.setReg o v).cur = s.cur := rfl
@[simp] theorem setReg_free (s : State) (o : Nat) (v : Word) : (s.setReg o v).free = s.free := rfl

/-! ### A core -/

@[simp] theorem setCore_clk (s : State) (n : Nat) (c : Core) : (s.setCore n c).clk = s.clk := rfl
@[simp] theorem setCore_mreg (s : State) (n : Nat) (c : Core) : (s.setCore n c).mreg = s.mreg := rfl
@[simp] theorem setCore_mem (s : State) (n : Nat) (c : Core) : (s.setCore n c).mem = s.mem := rfl
@[simp] theorem setCore_waves (s : State) (n : Nat) (c : Core) : (s.setCore n c).waves = s.waves := rfl
@[simp] theorem setCore_away (s : State) (n : Nat) (c : Core) : (s.setCore n c).away = s.away := rfl
@[simp] theorem setCore_clusters (s : State) (n : Nat) (c : Core) : (s.setCore n c).clusters = s.clusters := rfl
@[simp] theorem setCore_net (s : State) (n : Nat) (c : Core) : (s.setCore n c).net = s.net := rfl
@[simp] theorem setCore_ctl (s : State) (n : Nat) (c : Core) : (s.setCore n c).ctl = s.ctl := rfl
@[simp] theorem setCore_xlate (s : State) (n : Nat) (c : Core) : (s.setCore n c).xlate = s.xlate := rfl
@[simp] theorem setCore_engines (s : State) (n : Nat) (c : Core) : (s.setCore n c).engines = s.engines := rfl
@[simp] theorem setCore_arrivals (s : State) (n : Nat) (c : Core) : (s.setCore n c).arrivals = s.arrivals := rfl
@[simp] theorem setCore_drains (s : State) (n : Nat) (c : Core) : (s.setCore n c).drains = s.drains := rfl
@[simp] theorem setCore_convoys (s : State) (n : Nat) (c : Core) : (s.setCore n c).convoys = s.convoys := rfl
@[simp] theorem setCore_tree (s : State) (n : Nat) (c : Core) : (s.setCore n c).tree = s.tree := rfl
@[simp] theorem setCore_sched (s : State) (n : Nat) (c : Core) : (s.setCore n c).sched = s.sched := rfl
@[simp] theorem setCore_host (s : State) (n : Nat) (c : Core) : (s.setCore n c).host = s.host := rfl
@[simp] theorem setCore_fw (s : State) (n : Nat) (c : Core) : (s.setCore n c).fw = s.fw := rfl
@[simp] theorem setCore_agenda (s : State) (n : Nat) (c : Core) : (s.setCore n c).agenda = s.agenda := rfl
@[simp] theorem setCore_cur (s : State) (n : Nat) (c : Core) : (s.setCore n c).cur = s.cur := rfl
@[simp] theorem setCore_free (s : State) (n : Nat) (c : Core) : (s.setCore n c).free = s.free := rfl

/-! ### A cluster -/

@[simp] theorem setCluster_clk (s : State) (n : Nat) (c : Cluster) : (s.setCluster n c).clk = s.clk := rfl
@[simp] theorem setCluster_mreg (s : State) (n : Nat) (c : Cluster) : (s.setCluster n c).mreg = s.mreg := rfl
@[simp] theorem setCluster_mem (s : State) (n : Nat) (c : Cluster) : (s.setCluster n c).mem = s.mem := rfl
@[simp] theorem setCluster_waves (s : State) (n : Nat) (c : Cluster) : (s.setCluster n c).waves = s.waves := rfl
@[simp] theorem setCluster_away (s : State) (n : Nat) (c : Cluster) : (s.setCluster n c).away = s.away := rfl
@[simp] theorem setCluster_cores (s : State) (n : Nat) (c : Cluster) : (s.setCluster n c).cores = s.cores := rfl
@[simp] theorem setCluster_net (s : State) (n : Nat) (c : Cluster) : (s.setCluster n c).net = s.net := rfl
@[simp] theorem setCluster_ctl (s : State) (n : Nat) (c : Cluster) : (s.setCluster n c).ctl = s.ctl := rfl
@[simp] theorem setCluster_xlate (s : State) (n : Nat) (c : Cluster) : (s.setCluster n c).xlate = s.xlate := rfl
@[simp] theorem setCluster_engines (s : State) (n : Nat) (c : Cluster) : (s.setCluster n c).engines = s.engines := rfl
@[simp] theorem setCluster_arrivals (s : State) (n : Nat) (c : Cluster) : (s.setCluster n c).arrivals = s.arrivals := rfl
@[simp] theorem setCluster_drains (s : State) (n : Nat) (c : Cluster) : (s.setCluster n c).drains = s.drains := rfl
@[simp] theorem setCluster_convoys (s : State) (n : Nat) (c : Cluster) : (s.setCluster n c).convoys = s.convoys := rfl
@[simp] theorem setCluster_tree (s : State) (n : Nat) (c : Cluster) : (s.setCluster n c).tree = s.tree := rfl
@[simp] theorem setCluster_sched (s : State) (n : Nat) (c : Cluster) : (s.setCluster n c).sched = s.sched := rfl
@[simp] theorem setCluster_host (s : State) (n : Nat) (c : Cluster) : (s.setCluster n c).host = s.host := rfl
@[simp] theorem setCluster_fw (s : State) (n : Nat) (c : Cluster) : (s.setCluster n c).fw = s.fw := rfl
@[simp] theorem setCluster_agenda (s : State) (n : Nat) (c : Cluster) : (s.setCluster n c).agenda = s.agenda := rfl
@[simp] theorem setCluster_cur (s : State) (n : Nat) (c : Cluster) : (s.setCluster n c).cur = s.cur := rfl
@[simp] theorem setCluster_free (s : State) (n : Nat) (c : Cluster) : (s.setCluster n c).free = s.free := rfl

/-! ### Scratch -/

@[simp] theorem cspWrite_clk (s : State) (cl a : Nat) (bs : List Byte) : (s.cspWrite cl a bs).clk = s.clk := rfl
@[simp] theorem cspWrite_mreg (s : State) (cl a : Nat) (bs : List Byte) : (s.cspWrite cl a bs).mreg = s.mreg := rfl
@[simp] theorem cspWrite_mem (s : State) (cl a : Nat) (bs : List Byte) : (s.cspWrite cl a bs).mem = s.mem := rfl
@[simp] theorem cspWrite_waves (s : State) (cl a : Nat) (bs : List Byte) : (s.cspWrite cl a bs).waves = s.waves := rfl
@[simp] theorem cspWrite_away (s : State) (cl a : Nat) (bs : List Byte) : (s.cspWrite cl a bs).away = s.away := rfl
@[simp] theorem cspWrite_cores (s : State) (cl a : Nat) (bs : List Byte) : (s.cspWrite cl a bs).cores = s.cores := rfl
@[simp] theorem cspWrite_net (s : State) (cl a : Nat) (bs : List Byte) : (s.cspWrite cl a bs).net = s.net := rfl
@[simp] theorem cspWrite_ctl (s : State) (cl a : Nat) (bs : List Byte) : (s.cspWrite cl a bs).ctl = s.ctl := rfl
@[simp] theorem cspWrite_xlate (s : State) (cl a : Nat) (bs : List Byte) : (s.cspWrite cl a bs).xlate = s.xlate := rfl
@[simp] theorem cspWrite_engines (s : State) (cl a : Nat) (bs : List Byte) : (s.cspWrite cl a bs).engines = s.engines := rfl
@[simp] theorem cspWrite_arrivals (s : State) (cl a : Nat) (bs : List Byte) : (s.cspWrite cl a bs).arrivals = s.arrivals := rfl
@[simp] theorem cspWrite_drains (s : State) (cl a : Nat) (bs : List Byte) : (s.cspWrite cl a bs).drains = s.drains := rfl
@[simp] theorem cspWrite_convoys (s : State) (cl a : Nat) (bs : List Byte) : (s.cspWrite cl a bs).convoys = s.convoys := rfl
@[simp] theorem cspWrite_tree (s : State) (cl a : Nat) (bs : List Byte) : (s.cspWrite cl a bs).tree = s.tree := rfl
@[simp] theorem cspWrite_sched (s : State) (cl a : Nat) (bs : List Byte) : (s.cspWrite cl a bs).sched = s.sched := rfl
@[simp] theorem cspWrite_host (s : State) (cl a : Nat) (bs : List Byte) : (s.cspWrite cl a bs).host = s.host := rfl
@[simp] theorem cspWrite_fw (s : State) (cl a : Nat) (bs : List Byte) : (s.cspWrite cl a bs).fw = s.fw := rfl
@[simp] theorem cspWrite_agenda (s : State) (cl a : Nat) (bs : List Byte) : (s.cspWrite cl a bs).agenda = s.agenda := rfl
@[simp] theorem cspWrite_cur (s : State) (cl a : Nat) (bs : List Byte) : (s.cspWrite cl a bs).cur = s.cur := rfl
@[simp] theorem cspWrite_free (s : State) (cl a : Nat) (bs : List Byte) : (s.cspWrite cl a bs).free = s.free := rfl

/-! ### The executing fragment -/

@[simp] theorem atTurn_clk (s : State) (core slot n : Nat) : (s.atTurn core slot n).clk = s.clk := rfl
@[simp] theorem atTurn_mreg (s : State) (core slot n : Nat) : (s.atTurn core slot n).mreg = s.mreg := rfl
@[simp] theorem atTurn_mem (s : State) (core slot n : Nat) : (s.atTurn core slot n).mem = s.mem := rfl
@[simp] theorem atTurn_waves (s : State) (core slot n : Nat) : (s.atTurn core slot n).waves = s.waves := rfl
@[simp] theorem atTurn_away (s : State) (core slot n : Nat) : (s.atTurn core slot n).away = s.away := rfl
@[simp] theorem atTurn_cores (s : State) (core slot n : Nat) : (s.atTurn core slot n).cores = s.cores := rfl
@[simp] theorem atTurn_clusters (s : State) (core slot n : Nat) : (s.atTurn core slot n).clusters = s.clusters := rfl
@[simp] theorem atTurn_net (s : State) (core slot n : Nat) : (s.atTurn core slot n).net = s.net := rfl
@[simp] theorem atTurn_ctl (s : State) (core slot n : Nat) : (s.atTurn core slot n).ctl = s.ctl := rfl
@[simp] theorem atTurn_xlate (s : State) (core slot n : Nat) : (s.atTurn core slot n).xlate = s.xlate := rfl
@[simp] theorem atTurn_engines (s : State) (core slot n : Nat) : (s.atTurn core slot n).engines = s.engines := rfl
@[simp] theorem atTurn_arrivals (s : State) (core slot n : Nat) : (s.atTurn core slot n).arrivals = s.arrivals := rfl
@[simp] theorem atTurn_drains (s : State) (core slot n : Nat) : (s.atTurn core slot n).drains = s.drains := rfl
@[simp] theorem atTurn_convoys (s : State) (core slot n : Nat) : (s.atTurn core slot n).convoys = s.convoys := rfl
@[simp] theorem atTurn_tree (s : State) (core slot n : Nat) : (s.atTurn core slot n).tree = s.tree := rfl
@[simp] theorem atTurn_sched (s : State) (core slot n : Nat) : (s.atTurn core slot n).sched = s.sched := rfl
@[simp] theorem atTurn_host (s : State) (core slot n : Nat) : (s.atTurn core slot n).host = s.host := rfl
@[simp] theorem atTurn_fw (s : State) (core slot n : Nat) : (s.atTurn core slot n).fw = s.fw := rfl
@[simp] theorem atTurn_agenda (s : State) (core slot n : Nat) : (s.atTurn core slot n).agenda = s.agenda := rfl
@[simp] theorem atTurn_free (s : State) (core slot n : Nat) : (s.atTurn core slot n).free = s.free := rfl

/-! ### A gang, and a grid -/

@[simp] theorem updGang_clk (s : State) (g k : Nat) (f : Gang → Gang) : (s.updGang g k f).clk = s.clk := rfl
@[simp] theorem updGang_mreg (s : State) (g k : Nat) (f : Gang → Gang) : (s.updGang g k f).mreg = s.mreg := rfl
@[simp] theorem updGang_mem (s : State) (g k : Nat) (f : Gang → Gang) : (s.updGang g k f).mem = s.mem := rfl
@[simp] theorem updGang_waves (s : State) (g k : Nat) (f : Gang → Gang) : (s.updGang g k f).waves = s.waves := rfl
@[simp] theorem updGang_away (s : State) (g k : Nat) (f : Gang → Gang) : (s.updGang g k f).away = s.away := rfl
@[simp] theorem updGang_cores (s : State) (g k : Nat) (f : Gang → Gang) : (s.updGang g k f).cores = s.cores := rfl
@[simp] theorem updGang_clusters (s : State) (g k : Nat) (f : Gang → Gang) : (s.updGang g k f).clusters = s.clusters := rfl
@[simp] theorem updGang_net (s : State) (g k : Nat) (f : Gang → Gang) : (s.updGang g k f).net = s.net := rfl
@[simp] theorem updGang_ctl (s : State) (g k : Nat) (f : Gang → Gang) : (s.updGang g k f).ctl = s.ctl := rfl
@[simp] theorem updGang_xlate (s : State) (g k : Nat) (f : Gang → Gang) : (s.updGang g k f).xlate = s.xlate := rfl
@[simp] theorem updGang_engines (s : State) (g k : Nat) (f : Gang → Gang) : (s.updGang g k f).engines = s.engines := rfl
@[simp] theorem updGang_arrivals (s : State) (g k : Nat) (f : Gang → Gang) : (s.updGang g k f).arrivals = s.arrivals := rfl
@[simp] theorem updGang_drains (s : State) (g k : Nat) (f : Gang → Gang) : (s.updGang g k f).drains = s.drains := rfl
@[simp] theorem updGang_convoys (s : State) (g k : Nat) (f : Gang → Gang) : (s.updGang g k f).convoys = s.convoys := rfl
@[simp] theorem updGang_tree (s : State) (g k : Nat) (f : Gang → Gang) : (s.updGang g k f).tree = s.tree := rfl
@[simp] theorem updGang_host (s : State) (g k : Nat) (f : Gang → Gang) : (s.updGang g k f).host = s.host := rfl
@[simp] theorem updGang_fw (s : State) (g k : Nat) (f : Gang → Gang) : (s.updGang g k f).fw = s.fw := rfl
@[simp] theorem updGang_agenda (s : State) (g k : Nat) (f : Gang → Gang) : (s.updGang g k f).agenda = s.agenda := rfl
@[simp] theorem updGang_cur (s : State) (g k : Nat) (f : Gang → Gang) : (s.updGang g k f).cur = s.cur := rfl
@[simp] theorem updGang_free (s : State) (g k : Nat) (f : Gang → Gang) : (s.updGang g k f).free = s.free := rfl

/-! ### A grid -/

@[simp] theorem updGrid_clk (s : State) (g : Nat) (f : Grid → Grid) : (s.updGrid g f).clk = s.clk := rfl
@[simp] theorem updGrid_mreg (s : State) (g : Nat) (f : Grid → Grid) : (s.updGrid g f).mreg = s.mreg := rfl
@[simp] theorem updGrid_mem (s : State) (g : Nat) (f : Grid → Grid) : (s.updGrid g f).mem = s.mem := rfl
@[simp] theorem updGrid_waves (s : State) (g : Nat) (f : Grid → Grid) : (s.updGrid g f).waves = s.waves := rfl
@[simp] theorem updGrid_away (s : State) (g : Nat) (f : Grid → Grid) : (s.updGrid g f).away = s.away := rfl
@[simp] theorem updGrid_cores (s : State) (g : Nat) (f : Grid → Grid) : (s.updGrid g f).cores = s.cores := rfl
@[simp] theorem updGrid_clusters (s : State) (g : Nat) (f : Grid → Grid) : (s.updGrid g f).clusters = s.clusters := rfl
@[simp] theorem updGrid_net (s : State) (g : Nat) (f : Grid → Grid) : (s.updGrid g f).net = s.net := rfl
@[simp] theorem updGrid_ctl (s : State) (g : Nat) (f : Grid → Grid) : (s.updGrid g f).ctl = s.ctl := rfl
@[simp] theorem updGrid_xlate (s : State) (g : Nat) (f : Grid → Grid) : (s.updGrid g f).xlate = s.xlate := rfl
@[simp] theorem updGrid_engines (s : State) (g : Nat) (f : Grid → Grid) : (s.updGrid g f).engines = s.engines := rfl
@[simp] theorem updGrid_arrivals (s : State) (g : Nat) (f : Grid → Grid) : (s.updGrid g f).arrivals = s.arrivals := rfl
@[simp] theorem updGrid_drains (s : State) (g : Nat) (f : Grid → Grid) : (s.updGrid g f).drains = s.drains := rfl
@[simp] theorem updGrid_convoys (s : State) (g : Nat) (f : Grid → Grid) : (s.updGrid g f).convoys = s.convoys := rfl
@[simp] theorem updGrid_tree (s : State) (g : Nat) (f : Grid → Grid) : (s.updGrid g f).tree = s.tree := rfl
@[simp] theorem updGrid_host (s : State) (g : Nat) (f : Grid → Grid) : (s.updGrid g f).host = s.host := rfl
@[simp] theorem updGrid_fw (s : State) (g : Nat) (f : Grid → Grid) : (s.updGrid g f).fw = s.fw := rfl
@[simp] theorem updGrid_agenda (s : State) (g : Nat) (f : Grid → Grid) : (s.updGrid g f).agenda = s.agenda := rfl
@[simp] theorem updGrid_cur (s : State) (g : Nat) (f : Grid → Grid) : (s.updGrid g f).cur = s.cur := rfl
@[simp] theorem updGrid_free (s : State) (g : Nat) (f : Grid → Grid) : (s.updGrid g f).free = s.free := rfl

/-! ### A fragment of a wave -/

@[simp] theorem Wave_setFrag_ident (w : Wave) (n : Nat) (f : Frag) : (w.setFrag n f).ident = w.ident := rfl
@[simp] theorem Wave_setFrag_vcount (w : Wave) (n : Nat) (f : Frag) : (w.setFrag n f).vcount = w.vcount := rfl
@[simp] theorem Wave_setFrag_scl (w : Wave) (n : Nat) (f : Frag) : (w.setFrag n f).scl = w.scl := rfl
@[simp] theorem Wave_setFrag_vec (w : Wave) (n : Nat) (f : Frag) : (w.setFrag n f).vec = w.vec := rfl
@[simp] theorem Wave_setFrag_pred (w : Wave) (n : Nat) (f : Frag) : (w.setFrag n f).pred = w.pred := rfl
@[simp] theorem Wave_setFrag_groups (w : Wave) (n : Nat) (f : Frag) : (w.setFrag n f).groups = w.groups := rfl
@[simp] theorem Wave_setFrag_stack (w : Wave) (n : Nat) (f : Frag) : (w.setFrag n f).stack = w.stack := rfl
@[simp] theorem Wave_setFrag_trap (w : Wave) (n : Nat) (f : Frag) : (w.setFrag n f).trap = w.trap := rfl
@[simp] theorem Wave_setFrag_lane (w : Wave) (n : Nat) (f : Frag) : (w.setFrag n f).lane = w.lane := rfl
@[simp] theorem Wave_setFrag_work (w : Wave) (n : Nat) (f : Frag) : (w.setFrag n f).work = w.work := rfl
@[simp] theorem Wave_setFrag_cv (w : Wave) (n : Nat) (f : Frag) : (w.setFrag n f).cv = w.cv := rfl
@[simp] theorem Wave_setFrag_mat (w : Wave) (n : Nat) (f : Frag) : (w.setFrag n f).mat = w.mat := rfl
@[simp] theorem Wave_setFrag_spec (w : Wave) (n : Nat) (f : Frag) : (w.setFrag n f).spec = w.spec := rfl
@[simp] theorem Wave_setFrag_hist (w : Wave) (n : Nat) (f : Frag) : (w.setFrag n f).hist = w.hist := rfl
@[simp] theorem Wave_setFrag_sched (w : Wave) (n : Nat) (f : Frag) : (w.setFrag n f).sched = w.sched := rfl

/-! ### The step of the SPC -/

@[simp] theorem Wave_advance_ident (w : Wave) (n len : Nat) : (w.advance n len).ident = w.ident := rfl
@[simp] theorem Wave_advance_vcount (w : Wave) (n len : Nat) : (w.advance n len).vcount = w.vcount := rfl
@[simp] theorem Wave_advance_scl (w : Wave) (n len : Nat) : (w.advance n len).scl = w.scl := rfl
@[simp] theorem Wave_advance_vec (w : Wave) (n len : Nat) : (w.advance n len).vec = w.vec := rfl
@[simp] theorem Wave_advance_pred (w : Wave) (n len : Nat) : (w.advance n len).pred = w.pred := rfl
@[simp] theorem Wave_advance_groups (w : Wave) (n len : Nat) : (w.advance n len).groups = w.groups := rfl
@[simp] theorem Wave_advance_stack (w : Wave) (n len : Nat) : (w.advance n len).stack = w.stack := rfl
@[simp] theorem Wave_advance_trap (w : Wave) (n len : Nat) : (w.advance n len).trap = w.trap := rfl
@[simp] theorem Wave_advance_lane (w : Wave) (n len : Nat) : (w.advance n len).lane = w.lane := rfl
@[simp] theorem Wave_advance_work (w : Wave) (n len : Nat) : (w.advance n len).work = w.work := rfl
@[simp] theorem Wave_advance_cv (w : Wave) (n len : Nat) : (w.advance n len).cv = w.cv := rfl
@[simp] theorem Wave_advance_mat (w : Wave) (n len : Nat) : (w.advance n len).mat = w.mat := rfl
@[simp] theorem Wave_advance_spec (w : Wave) (n len : Nat) : (w.advance n len).spec = w.spec := rfl
@[simp] theorem Wave_advance_hist (w : Wave) (n len : Nat) : (w.advance n len).hist = w.hist := rfl
@[simp] theorem Wave_advance_sched (w : Wave) (n len : Nat) : (w.advance n len).sched = w.sched := rfl

/-! ### The fence of an entry -/

@[simp] theorem Wave_fenceNow_ident (w : Wave) : (w.fenceNow).ident = w.ident := rfl
@[simp] theorem Wave_fenceNow_vcount (w : Wave) : (w.fenceNow).vcount = w.vcount := rfl
@[simp] theorem Wave_fenceNow_scl (w : Wave) : (w.fenceNow).scl = w.scl := rfl
@[simp] theorem Wave_fenceNow_vec (w : Wave) : (w.fenceNow).vec = w.vec := rfl
@[simp] theorem Wave_fenceNow_pred (w : Wave) : (w.fenceNow).pred = w.pred := rfl
@[simp] theorem Wave_fenceNow_frags (w : Wave) : (w.fenceNow).frags = w.frags := rfl
@[simp] theorem Wave_fenceNow_groups (w : Wave) : (w.fenceNow).groups = w.groups := rfl
@[simp] theorem Wave_fenceNow_stack (w : Wave) : (w.fenceNow).stack = w.stack := rfl
@[simp] theorem Wave_fenceNow_trap (w : Wave) : (w.fenceNow).trap = w.trap := rfl
@[simp] theorem Wave_fenceNow_lane (w : Wave) : (w.fenceNow).lane = w.lane := rfl
@[simp] theorem Wave_fenceNow_cv (w : Wave) : (w.fenceNow).cv = w.cv := rfl
@[simp] theorem Wave_fenceNow_mat (w : Wave) : (w.fenceNow).mat = w.mat := rfl
@[simp] theorem Wave_fenceNow_spec (w : Wave) : (w.fenceNow).spec = w.spec := rfl
@[simp] theorem Wave_fenceNow_hist (w : Wave) : (w.fenceNow).hist = w.hist := rfl
@[simp] theorem Wave_fenceNow_sched (w : Wave) : (w.fenceNow).sched = w.sched := rfl

/-! ### Lanes of a vector register -/

@[simp] theorem Wave_putVec_ident (w : Wave) (r : Nat) (m : Mask) (f : Nat → Word32) : (w.putVec r m f).ident = w.ident := rfl
@[simp] theorem Wave_putVec_vcount (w : Wave) (r : Nat) (m : Mask) (f : Nat → Word32) : (w.putVec r m f).vcount = w.vcount := rfl
@[simp] theorem Wave_putVec_scl (w : Wave) (r : Nat) (m : Mask) (f : Nat → Word32) : (w.putVec r m f).scl = w.scl := rfl
@[simp] theorem Wave_putVec_pred (w : Wave) (r : Nat) (m : Mask) (f : Nat → Word32) : (w.putVec r m f).pred = w.pred := rfl
@[simp] theorem Wave_putVec_frags (w : Wave) (r : Nat) (m : Mask) (f : Nat → Word32) : (w.putVec r m f).frags = w.frags := rfl
@[simp] theorem Wave_putVec_groups (w : Wave) (r : Nat) (m : Mask) (f : Nat → Word32) : (w.putVec r m f).groups = w.groups := rfl
@[simp] theorem Wave_putVec_stack (w : Wave) (r : Nat) (m : Mask) (f : Nat → Word32) : (w.putVec r m f).stack = w.stack := rfl
@[simp] theorem Wave_putVec_trap (w : Wave) (r : Nat) (m : Mask) (f : Nat → Word32) : (w.putVec r m f).trap = w.trap := rfl
@[simp] theorem Wave_putVec_lane (w : Wave) (r : Nat) (m : Mask) (f : Nat → Word32) : (w.putVec r m f).lane = w.lane := rfl
@[simp] theorem Wave_putVec_work (w : Wave) (r : Nat) (m : Mask) (f : Nat → Word32) : (w.putVec r m f).work = w.work := rfl
@[simp] theorem Wave_putVec_cv (w : Wave) (r : Nat) (m : Mask) (f : Nat → Word32) : (w.putVec r m f).cv = w.cv := rfl
@[simp] theorem Wave_putVec_mat (w : Wave) (r : Nat) (m : Mask) (f : Nat → Word32) : (w.putVec r m f).mat = w.mat := rfl
@[simp] theorem Wave_putVec_spec (w : Wave) (r : Nat) (m : Mask) (f : Nat → Word32) : (w.putVec r m f).spec = w.spec := rfl
@[simp] theorem Wave_putVec_hist (w : Wave) (r : Nat) (m : Mask) (f : Nat → Word32) : (w.putVec r m f).hist = w.hist := rfl
@[simp] theorem Wave_putVec_sched (w : Wave) (r : Nat) (m : Mask) (f : Nat → Word32) : (w.putVec r m f).sched = w.sched := rfl

/-! ### A convoy membership that ends -/

@[simp] theorem Wave_leaveConvoy_ident (w : Wave) (a : BitVec 4) (b : BitVec 2) : (w.leaveConvoy a b).ident = w.ident := rfl
@[simp] theorem Wave_leaveConvoy_vcount (w : Wave) (a : BitVec 4) (b : BitVec 2) : (w.leaveConvoy a b).vcount = w.vcount := rfl
@[simp] theorem Wave_leaveConvoy_scl (w : Wave) (a : BitVec 4) (b : BitVec 2) : (w.leaveConvoy a b).scl = w.scl := rfl
@[simp] theorem Wave_leaveConvoy_vec (w : Wave) (a : BitVec 4) (b : BitVec 2) : (w.leaveConvoy a b).vec = w.vec := rfl
@[simp] theorem Wave_leaveConvoy_pred (w : Wave) (a : BitVec 4) (b : BitVec 2) : (w.leaveConvoy a b).pred = w.pred := rfl
@[simp] theorem Wave_leaveConvoy_frags (w : Wave) (a : BitVec 4) (b : BitVec 2) : (w.leaveConvoy a b).frags = w.frags := rfl
@[simp] theorem Wave_leaveConvoy_groups (w : Wave) (a : BitVec 4) (b : BitVec 2) : (w.leaveConvoy a b).groups = w.groups := rfl
@[simp] theorem Wave_leaveConvoy_stack (w : Wave) (a : BitVec 4) (b : BitVec 2) : (w.leaveConvoy a b).stack = w.stack := rfl
@[simp] theorem Wave_leaveConvoy_trap (w : Wave) (a : BitVec 4) (b : BitVec 2) : (w.leaveConvoy a b).trap = w.trap := rfl
@[simp] theorem Wave_leaveConvoy_lane (w : Wave) (a : BitVec 4) (b : BitVec 2) : (w.leaveConvoy a b).lane = w.lane := rfl
@[simp] theorem Wave_leaveConvoy_work (w : Wave) (a : BitVec 4) (b : BitVec 2) : (w.leaveConvoy a b).work = w.work := rfl
@[simp] theorem Wave_leaveConvoy_mat (w : Wave) (a : BitVec 4) (b : BitVec 2) : (w.leaveConvoy a b).mat = w.mat := rfl
@[simp] theorem Wave_leaveConvoy_spec (w : Wave) (a : BitVec 4) (b : BitVec 2) : (w.leaveConvoy a b).spec = w.spec := rfl
@[simp] theorem Wave_leaveConvoy_hist (w : Wave) (a : BitVec 4) (b : BitVec 2) : (w.leaveConvoy a b).hist = w.hist := rfl
@[simp] theorem Wave_leaveConvoy_sched (w : Wave) (a : BitVec 4) (b : BitVec 2) : (w.leaveConvoy a b).sched = w.sched := rfl

/-! ### A request that changes -/

@[simp] theorem setTxn_clk (s : State) (id : Nat) (t : Txn) : (s.setTxn id t).clk = s.clk := rfl
@[simp] theorem setTxn_mreg (s : State) (id : Nat) (t : Txn) : (s.setTxn id t).mreg = s.mreg := rfl
@[simp] theorem setTxn_mem (s : State) (id : Nat) (t : Txn) : (s.setTxn id t).mem = s.mem := rfl
@[simp] theorem setTxn_waves (s : State) (id : Nat) (t : Txn) : (s.setTxn id t).waves = s.waves := rfl
@[simp] theorem setTxn_away (s : State) (id : Nat) (t : Txn) : (s.setTxn id t).away = s.away := rfl
@[simp] theorem setTxn_cores (s : State) (id : Nat) (t : Txn) : (s.setTxn id t).cores = s.cores := rfl
@[simp] theorem setTxn_clusters (s : State) (id : Nat) (t : Txn) : (s.setTxn id t).clusters = s.clusters := rfl
@[simp] theorem setTxn_ctl (s : State) (id : Nat) (t : Txn) : (s.setTxn id t).ctl = s.ctl := rfl
@[simp] theorem setTxn_xlate (s : State) (id : Nat) (t : Txn) : (s.setTxn id t).xlate = s.xlate := rfl
@[simp] theorem setTxn_engines (s : State) (id : Nat) (t : Txn) : (s.setTxn id t).engines = s.engines := rfl
@[simp] theorem setTxn_arrivals (s : State) (id : Nat) (t : Txn) : (s.setTxn id t).arrivals = s.arrivals := rfl
@[simp] theorem setTxn_drains (s : State) (id : Nat) (t : Txn) : (s.setTxn id t).drains = s.drains := rfl
@[simp] theorem setTxn_convoys (s : State) (id : Nat) (t : Txn) : (s.setTxn id t).convoys = s.convoys := rfl
@[simp] theorem setTxn_tree (s : State) (id : Nat) (t : Txn) : (s.setTxn id t).tree = s.tree := rfl
@[simp] theorem setTxn_sched (s : State) (id : Nat) (t : Txn) : (s.setTxn id t).sched = s.sched := rfl
@[simp] theorem setTxn_host (s : State) (id : Nat) (t : Txn) : (s.setTxn id t).host = s.host := rfl
@[simp] theorem setTxn_fw (s : State) (id : Nat) (t : Txn) : (s.setTxn id t).fw = s.fw := rfl
@[simp] theorem setTxn_agenda (s : State) (id : Nat) (t : Txn) : (s.setTxn id t).agenda = s.agenda := rfl
@[simp] theorem setTxn_cur (s : State) (id : Nat) (t : Txn) : (s.setTxn id t).cur = s.cur := rfl
@[simp] theorem setTxn_free (s : State) (id : Nat) (t : Txn) : (s.setTxn id t).free = s.free := rfl

/-! ### A request that is gone -/

@[simp] theorem delTxn_clk (s : State) (id : Nat) : (s.delTxn id).clk = s.clk := rfl
@[simp] theorem delTxn_mreg (s : State) (id : Nat) : (s.delTxn id).mreg = s.mreg := rfl
@[simp] theorem delTxn_mem (s : State) (id : Nat) : (s.delTxn id).mem = s.mem := rfl
@[simp] theorem delTxn_waves (s : State) (id : Nat) : (s.delTxn id).waves = s.waves := rfl
@[simp] theorem delTxn_away (s : State) (id : Nat) : (s.delTxn id).away = s.away := rfl
@[simp] theorem delTxn_cores (s : State) (id : Nat) : (s.delTxn id).cores = s.cores := rfl
@[simp] theorem delTxn_clusters (s : State) (id : Nat) : (s.delTxn id).clusters = s.clusters := rfl
@[simp] theorem delTxn_ctl (s : State) (id : Nat) : (s.delTxn id).ctl = s.ctl := rfl
@[simp] theorem delTxn_xlate (s : State) (id : Nat) : (s.delTxn id).xlate = s.xlate := rfl
@[simp] theorem delTxn_engines (s : State) (id : Nat) : (s.delTxn id).engines = s.engines := rfl
@[simp] theorem delTxn_arrivals (s : State) (id : Nat) : (s.delTxn id).arrivals = s.arrivals := rfl
@[simp] theorem delTxn_drains (s : State) (id : Nat) : (s.delTxn id).drains = s.drains := rfl
@[simp] theorem delTxn_convoys (s : State) (id : Nat) : (s.delTxn id).convoys = s.convoys := rfl
@[simp] theorem delTxn_tree (s : State) (id : Nat) : (s.delTxn id).tree = s.tree := rfl
@[simp] theorem delTxn_sched (s : State) (id : Nat) : (s.delTxn id).sched = s.sched := rfl
@[simp] theorem delTxn_host (s : State) (id : Nat) : (s.delTxn id).host = s.host := rfl
@[simp] theorem delTxn_fw (s : State) (id : Nat) : (s.delTxn id).fw = s.fw := rfl
@[simp] theorem delTxn_agenda (s : State) (id : Nat) : (s.delTxn id).agenda = s.agenda := rfl
@[simp] theorem delTxn_cur (s : State) (id : Nat) : (s.delTxn id).cur = s.cur := rfl
@[simp] theorem delTxn_free (s : State) (id : Nat) : (s.delTxn id).free = s.free := rfl

/-! ### A walk that changes -/

@[simp] theorem setWalk_clk (s : State) (id : Nat) (w : Walk) : (s.setWalk id w).clk = s.clk := rfl
@[simp] theorem setWalk_mreg (s : State) (id : Nat) (w : Walk) : (s.setWalk id w).mreg = s.mreg := rfl
@[simp] theorem setWalk_mem (s : State) (id : Nat) (w : Walk) : (s.setWalk id w).mem = s.mem := rfl
@[simp] theorem setWalk_waves (s : State) (id : Nat) (w : Walk) : (s.setWalk id w).waves = s.waves := rfl
@[simp] theorem setWalk_away (s : State) (id : Nat) (w : Walk) : (s.setWalk id w).away = s.away := rfl
@[simp] theorem setWalk_cores (s : State) (id : Nat) (w : Walk) : (s.setWalk id w).cores = s.cores := rfl
@[simp] theorem setWalk_clusters (s : State) (id : Nat) (w : Walk) : (s.setWalk id w).clusters = s.clusters := rfl
@[simp] theorem setWalk_net (s : State) (id : Nat) (w : Walk) : (s.setWalk id w).net = s.net := rfl
@[simp] theorem setWalk_ctl (s : State) (id : Nat) (w : Walk) : (s.setWalk id w).ctl = s.ctl := rfl
@[simp] theorem setWalk_engines (s : State) (id : Nat) (w : Walk) : (s.setWalk id w).engines = s.engines := rfl
@[simp] theorem setWalk_arrivals (s : State) (id : Nat) (w : Walk) : (s.setWalk id w).arrivals = s.arrivals := rfl
@[simp] theorem setWalk_drains (s : State) (id : Nat) (w : Walk) : (s.setWalk id w).drains = s.drains := rfl
@[simp] theorem setWalk_convoys (s : State) (id : Nat) (w : Walk) : (s.setWalk id w).convoys = s.convoys := rfl
@[simp] theorem setWalk_tree (s : State) (id : Nat) (w : Walk) : (s.setWalk id w).tree = s.tree := rfl
@[simp] theorem setWalk_sched (s : State) (id : Nat) (w : Walk) : (s.setWalk id w).sched = s.sched := rfl
@[simp] theorem setWalk_host (s : State) (id : Nat) (w : Walk) : (s.setWalk id w).host = s.host := rfl
@[simp] theorem setWalk_fw (s : State) (id : Nat) (w : Walk) : (s.setWalk id w).fw = s.fw := rfl
@[simp] theorem setWalk_agenda (s : State) (id : Nat) (w : Walk) : (s.setWalk id w).agenda = s.agenda := rfl
@[simp] theorem setWalk_cur (s : State) (id : Nat) (w : Walk) : (s.setWalk id w).cur = s.cur := rfl
@[simp] theorem setWalk_free (s : State) (id : Nat) (w : Walk) : (s.setWalk id w).free = s.free := rfl

/-! ### What a walk that failed left for one that waited -/

@[simp] theorem forget_clk (s : State) (a : Asker) : (s.forget a).clk = s.clk := rfl
@[simp] theorem forget_mreg (s : State) (a : Asker) : (s.forget a).mreg = s.mreg := rfl
@[simp] theorem forget_mem (s : State) (a : Asker) : (s.forget a).mem = s.mem := rfl
@[simp] theorem forget_waves (s : State) (a : Asker) : (s.forget a).waves = s.waves := rfl
@[simp] theorem forget_away (s : State) (a : Asker) : (s.forget a).away = s.away := rfl
@[simp] theorem forget_cores (s : State) (a : Asker) : (s.forget a).cores = s.cores := rfl
@[simp] theorem forget_clusters (s : State) (a : Asker) : (s.forget a).clusters = s.clusters := rfl
@[simp] theorem forget_net (s : State) (a : Asker) : (s.forget a).net = s.net := rfl
@[simp] theorem forget_ctl (s : State) (a : Asker) : (s.forget a).ctl = s.ctl := rfl
@[simp] theorem forget_engines (s : State) (a : Asker) : (s.forget a).engines = s.engines := rfl
@[simp] theorem forget_arrivals (s : State) (a : Asker) : (s.forget a).arrivals = s.arrivals := rfl
@[simp] theorem forget_drains (s : State) (a : Asker) : (s.forget a).drains = s.drains := rfl
@[simp] theorem forget_convoys (s : State) (a : Asker) : (s.forget a).convoys = s.convoys := rfl
@[simp] theorem forget_tree (s : State) (a : Asker) : (s.forget a).tree = s.tree := rfl
@[simp] theorem forget_sched (s : State) (a : Asker) : (s.forget a).sched = s.sched := rfl
@[simp] theorem forget_host (s : State) (a : Asker) : (s.forget a).host = s.host := rfl
@[simp] theorem forget_fw (s : State) (a : Asker) : (s.forget a).fw = s.fw := rfl
@[simp] theorem forget_agenda (s : State) (a : Asker) : (s.forget a).agenda = s.agenda := rfl
@[simp] theorem forget_cur (s : State) (a : Asker) : (s.forget a).cur = s.cur := rfl
@[simp] theorem forget_free (s : State) (a : Asker) : (s.forget a).free = s.free := rfl

/-! ### An engine operation that changes -/

@[simp] theorem setOp_clk (s : State) (id : Nat) (o : EngOp) : (s.setOp id o).clk = s.clk := rfl
@[simp] theorem setOp_mreg (s : State) (id : Nat) (o : EngOp) : (s.setOp id o).mreg = s.mreg := rfl
@[simp] theorem setOp_mem (s : State) (id : Nat) (o : EngOp) : (s.setOp id o).mem = s.mem := rfl
@[simp] theorem setOp_waves (s : State) (id : Nat) (o : EngOp) : (s.setOp id o).waves = s.waves := rfl
@[simp] theorem setOp_away (s : State) (id : Nat) (o : EngOp) : (s.setOp id o).away = s.away := rfl
@[simp] theorem setOp_cores (s : State) (id : Nat) (o : EngOp) : (s.setOp id o).cores = s.cores := rfl
@[simp] theorem setOp_clusters (s : State) (id : Nat) (o : EngOp) : (s.setOp id o).clusters = s.clusters := rfl
@[simp] theorem setOp_net (s : State) (id : Nat) (o : EngOp) : (s.setOp id o).net = s.net := rfl
@[simp] theorem setOp_ctl (s : State) (id : Nat) (o : EngOp) : (s.setOp id o).ctl = s.ctl := rfl
@[simp] theorem setOp_xlate (s : State) (id : Nat) (o : EngOp) : (s.setOp id o).xlate = s.xlate := rfl
@[simp] theorem setOp_arrivals (s : State) (id : Nat) (o : EngOp) : (s.setOp id o).arrivals = s.arrivals := rfl
@[simp] theorem setOp_drains (s : State) (id : Nat) (o : EngOp) : (s.setOp id o).drains = s.drains := rfl
@[simp] theorem setOp_convoys (s : State) (id : Nat) (o : EngOp) : (s.setOp id o).convoys = s.convoys := rfl
@[simp] theorem setOp_tree (s : State) (id : Nat) (o : EngOp) : (s.setOp id o).tree = s.tree := rfl
@[simp] theorem setOp_sched (s : State) (id : Nat) (o : EngOp) : (s.setOp id o).sched = s.sched := rfl
@[simp] theorem setOp_host (s : State) (id : Nat) (o : EngOp) : (s.setOp id o).host = s.host := rfl
@[simp] theorem setOp_fw (s : State) (id : Nat) (o : EngOp) : (s.setOp id o).fw = s.fw := rfl
@[simp] theorem setOp_agenda (s : State) (id : Nat) (o : EngOp) : (s.setOp id o).agenda = s.agenda := rfl
@[simp] theorem setOp_cur (s : State) (id : Nat) (o : EngOp) : (s.setOp id o).cur = s.cur := rfl
@[simp] theorem setOp_free (s : State) (id : Nat) (o : EngOp) : (s.setOp id o).free = s.free := rfl

/-! ### Reads after writes -/

theorem txn?_setTxn (s : State) (id k : Nat) (t : Txn) : (s.setTxn id t).txn? k = if k = id then some t else s.txn? k :=
  Tab.get?_set _ _ _ _
@[simp] theorem txn?_setTxn_self (s : State) (id : Nat) (t : Txn) : (s.setTxn id t).txn? id = some t := by simp [txn?_setTxn]
@[simp] theorem txn?_delTxn_self (s : State) (id : Nat) : (s.delTxn id).txn? id = none := Tab.get?_del_self _ _
theorem txn?_delTxn_other (s : State) {id k : Nat} (h : k ≠ id) : (s.delTxn id).txn? k = s.txn? k := Tab.get?_del_other _ h
theorem walks_setWalk (s : State) (id k : Nat) (w : Walk) :
    (s.setWalk id w).xlate.walks.get? k = if k = id then some w else s.xlate.walks.get? k := Tab.get?_set _ _ _ _
theorem engines_setOp (s : State) (id k : Nat) (o : EngOp) :
    (s.setOp id o).engines.get? k = if k = id then some o else s.engines.get? k := Tab.get?_set _ _ _ _

theorem reg_setReg (s : State) (o k : Nat) (v : Word) : (s.setReg o v).reg k = if k = o then v else s.reg k :=
  Sparse.get_set _ _ _ _
@[simp] theorem reg_setReg_self (s : State) (o : Nat) (v : Word) : (s.setReg o v).reg o = v := by simp [reg_setReg]
@[simp] theorem reg_setWave (s : State) (core slot o : Nat) (w : Wave) : (s.setWave core slot w).reg o = s.reg o := rfl

theorem core_setCore (s : State) (n k : Nat) (c : Core) : (s.setCore n c).core k = if k = n then c else s.core k := by
  unfold State.core State.setCore
  simp only [Tab.get?_set]
  split <;> rfl
theorem cluster_setCluster (s : State) (n k : Nat) (c : Cluster) :
    (s.setCluster n c).cluster k = if k = n then c else s.cluster k := by
  unfold State.cluster State.setCluster
  simp only [Tab.get?_set]
  split <;> rfl
@[simp] theorem core_setCore_self (s : State) (n : Nat) (c : Core) : (s.setCore n c).core n = c := by
  simp [core_setCore]
@[simp] theorem cluster_setCluster_self (s : State) (n : Nat) (c : Cluster) : (s.setCluster n c).cluster n = c := by
  simp [cluster_setCluster]
@[simp] theorem wave?_setReg (s : State) (o core slot : Nat) (v : Word) : (s.setReg o v).wave? core slot = s.wave? core slot :=
  rfl
@[simp] theorem cluster_setWave (s : State) (core slot n : Nat) (w : Wave) : (s.setWave core slot w).cluster n = s.cluster n :=
  rfl
@[simp] theorem core_setWave (s : State) (core slot n : Nat) (w : Wave) : (s.setWave core slot w).core n = s.core n := rfl

theorem wave?_setWave (s : State) (core slot k : Nat) (w : Wave) :
    (s.setWave core slot w).waves.get? k = if k = slotKey core slot then some w else s.waves.get? k := Tab.get?_set _ _ _ _

/-- A scratch write changes the bytes it names of its cluster, and no other (R9). -/
theorem byte_cspWrite (s : State) (cl a : Nat) (bs : List Byte) (c k : Nat) :
    ((s.cspWrite cl a bs).cluster c).csp.byte k =
      if c = cl ∧ a ≤ k ∧ k < a + bs.length then bs.getD (k - a) 0 else (s.cluster c).csp.byte k := by
  unfold State.cspWrite
  rw [cluster_setCluster]
  by_cases h : c = cl
  · subst h
    simp only [if_true, Memory.byte_write, true_and]
  · rw [if_neg h, if_neg (fun e => h e.1)]

end Sys2Proof.Machine
end

