-- ==== Sys2Proof/Laws/Lane.lean ====
section
/-!
SUPPORT. What the shared operations of the lane instructions do: the gate, the lanes of a vector register and of a
predicate that a write changes, the head that leaves the queue, and the whole effect of an instruction that computes
lanes or a predicate.
-/
namespace Sys2Proof.Machine

/-! ### Bits of lanes -/

theorem getLsbD_lane (x : Word32) (l i : Nat) (hi : l < 128) :
    ((x.setWidth 4096) <<< (32 * l)).getLsbD i = (decide (32 * l ≤ i ∧ i < 32 * l + 32) && x.getLsbD (i - 32 * l)) := by
  simp only [BitVec.getLsbD_shiftLeft, BitVec.getLsbD_setWidth]
  by_cases h1 : 32 * l ≤ i
  · by_cases h2 : i < 32 * l + 32
    · have h3 : i < 4096 := by omega
      have h4 : i - 32 * l < 4096 := by omega
      simp [h1, h2, h3, h4, Nat.not_lt.2 h1]
    · have : x.getLsbD (i - 32 * l) = false := BitVec.getLsbD_of_ge _ _ (by omega)
      simp [h2, this]
  · simp [h1, show i < 32 * l by omega]

theorem getLsbD_lanes (n : Nat) (f : Nat → Word32) (hn : n ≤ 128) (i : Nat) :
    ((List.range n).foldl (fun acc l => acc ||| (((f l).setWidth 4096) <<< (32 * l))) (0 : BitVec 4096)).getLsbD i =
      (decide (i < 32 * n) && (f (i / 32)).getLsbD (i % 32)) := by
  induction n with
  | zero => simp
  | succ n ih =>
    rw [List.range_succ, List.foldl_append]
    simp only [List.foldl_cons, List.foldl_nil, BitVec.getLsbD_or, ih (by omega), getLsbD_lane _ _ _ (show n < 128 by omega)]
    by_cases h1 : i < 32 * n
    · simp [h1, show ¬ 32 * n ≤ i by omega, show i < 32 * (n + 1) by omega]
    · by_cases h2 : i < 32 * n + 32
      · have e1 : i / 32 = n := by omega
        have e2 : i - 32 * n = i % 32 := by omega
        simp [h1, h2, show 32 * n ≤ i by omega, show i < 32 * (n + 1) by omega, e1, e2]
      · simp [h1, h2, show ¬ i < 32 * (n + 1) by omega]

/-- A lane of a merged register is the new value in the mask, the old elsewhere. -/
theorem lane_mergeLanes (old : BitVec 4096) (m : Mask) (f : Nat → Word32) {l : Nat} (hl : l < 128) :
    (mergeLanes old m f).extractLsb' (32 * l) 32 = if m.getLsbD l then f l else old.extractLsb' (32 * l) 32 := by
  apply BitVec.eq_of_getLsbD_eq
  intro i hi
  unfold mergeLanes
  rw [BitVec.getLsbD_extractLsb', getLsbD_lanes 128 (fun l => if m.getLsbD l then f l else old.extractLsb' (32 * l) 32)
    (Nat.le_refl _)]
  have e1 : (32 * l + i) / 32 = l := by omega
  have e2 : (32 * l + i) % 32 = i := by omega
  simp only [e1, e2, hi, show 32 * l + i < 32 * 128 by omega, decide_true, Bool.true_and]

theorem lane32_putVec (w : Wave) (r k : Nat) (m : Mask) (f : Nat → Word32) {l : Nat} (hl : l < 128) :
    (w.putVec r m f).lane32 k l = if m.getLsbD l = true ∧ k = r then f l else w.lane32 k l := by
  unfold Wave.putVec Wave.lane32
  by_cases hk : k = r
  · subst hk
    simp only [Sparse.get_set_self, lane_mergeLanes _ _ _ hl, and_true]
  · simp only [Sparse.get_set_other _ _ hk, hk, and_false, if_false]

/-- Lanes written to a register, or to the pair of a 64-bit type (R258). -/
theorem lane32_putLanes (w : Wave) (t : BitVec 5) (r k : Nat) (m : Mask) (f : Nat → Word) {l : Nat} (hl : l < 128) :
    (w.putLanes t r m f).lane32 k l =
      if m.getLsbD l = true ∧ k = r then (f l).extractLsb' 0 32
      else if m.getLsbD l = true ∧ k = r + 1 ∧ is64 t = true then (f l).extractLsb' 32 32
      else w.lane32 k l := by
  unfold Wave.putLanes
  by_cases ht : is64 t = true
  · simp only [ht, if_true, lane32_putVec _ _ _ _ _ hl, and_true]
    by_cases hk : k = r
    · subst hk; simp
    · simp [hk]
  · simp only [ht, if_false, lane32_putVec _ _ _ _ _ hl, and_false, Bool.false_eq_true]

theorem putLanes_frame (w : Wave) (t : BitVec 5) (r : Nat) (m : Mask) (f : Nat → Word) :
    w.putLanes t r m f = { w with vec := (w.putLanes t r m f).vec } := by
  unfold Wave.putLanes Wave.putVec
  split <;> rfl

@[simp] theorem lane32_popLane (w : Wave) (r l : Nat) : w.popLane.lane32 r l = w.lane32 r l := by
  unfold Wave.popLane
  cases w.lane.queue with
  | nil => rfl
  | cons i q => cases w.lane.rest <;> rfl

@[simp] theorem pget_popLane (w : Wave) (p l : Nat) : w.popLane.pget p l = w.pget p l := by
  unfold Wave.popLane
  cases w.lane.queue with
  | nil => rfl
  | cons i q => cases w.lane.rest <;> rfl

@[simp] theorem vec_popLane (w : Wave) : w.popLane.vec = w.vec := by
  unfold Wave.popLane
  cases w.lane.queue with
  | nil => rfl
  | cons i q => cases w.lane.rest <;> rfl

@[simp] theorem pred_popLane (w : Wave) : w.popLane.pred = w.pred := by
  unfold Wave.popLane
  cases w.lane.queue with
  | nil => rfl
  | cons i q => cases w.lane.rest <;> rfl

/-- What leaves with the head of the lane queue does not depend on the vector registers or the predicates (R160). -/
theorem popLane_vec (w : Wave) (v : Sparse 4096) : ({ w with vec := v }).popLane = { w.popLane with vec := v } := by
  unfold Wave.popLane
  cases w.lane.queue with
  | nil => rfl
  | cons i q =>
    cases w.lane.rest with
    | nil => rfl
    | cons n rest => rfl

theorem popLane_pred (w : Wave) (v : Sparse 128) : ({ w with pred := v }).popLane = { w.popLane with pred := v } := by
  unfold Wave.popLane
  cases w.lane.queue with
  | nil => rfl
  | cons i q =>
    cases w.lane.rest with
    | nil => rfl
    | cons n rest => rfl

/-! ### Predicates -/

theorem getLsbD_maskOf (ls : List Nat) (i : Nat) (hi : i < 128) : (maskOf ls).getLsbD i = decide (i ∈ ls) := by
  have key : ∀ (ls : List Nat) (m : Mask),
      (ls.foldl (fun m l => m ||| laneBit l) m).getLsbD i = (m.getLsbD i || decide (i ∈ ls)) := by
    intro ls
    induction ls with
    | nil => intro m; simp
    | cons a ls ih =>
      intro m
      rw [List.foldl_cons, ih]
      have : (laneBit a).getLsbD i = decide (i = a) := by
        unfold laneBit
        simp only [BitVec.getLsbD_shiftLeft, BitVec.getLsbD_one, hi, decide_true, Bool.true_and]
        by_cases h : i = a
        · subst h; simp
        · by_cases h2 : i < a
          · simp [h2, h]
          · have : ¬ i - a = 0 := by omega
            simp [h2, h, this]
      rw [BitVec.getLsbD_or, this]
      by_cases h : i = a
      · simp [h]
      · simp [h]
  have := key ls 0
  simpa [maskOf] using this

theorem pget_putPred (w : Wave) (d p : Nat) (m v : Mask) (l : Nat) :
    (w.putPred d m v).pget p l = if p = d ∧ d ≠ 0 ∧ m.getLsbD l = true then v.getLsbD l else w.pget p l := by
  unfold Wave.putPred Wave.pget
  by_cases hd : d = 0
  · simp [hd]
  · by_cases hp : p = d
    · subst hp
      by_cases hl : l < 128
      · simp only [if_neg hd, Sparse.get_set_self, BitVec.getLsbD_or, BitVec.getLsbD_and, BitVec.getLsbD_not, hl]
        cases hm : m.getLsbD l <;> simp [hd]
      · have : ∀ x : Mask, x.getLsbD l = false := fun x => BitVec.getLsbD_of_ge _ _ (by omega)
        simp [hd, this]
    · simp [hd, hp, Sparse.get_set_other _ _ hp]

/-! ### The gate -/

theorem laneOp_run {i : Instr} {s : State} {c : LCtx} (h : laneGate i s = .run c) (body : LCtx → Result) :
    laneOp i s body = body c := by unfold laneOp; rw [h]

/-- What it says that a lane instruction's effect follows. -/
theorem laneGate_run {i : Instr} {s : State} {c : LCtx} (h : laneGate i s = .run c) :
    s.lctx = some c ∧ encode i = .lane c.it.word ∧ c.it.spec = [] ∧ c.w.laneHeld = false ∧ laneGood i c.w.vcount = true ∧
      (laneRegs i).any (c.w.pendingVec c.it.seq) = false := by
  unfold laneGate at h
  split at h
  · cases h
  · rename_i c0 hc
    split at h
    · cases h
    · rename_i he
      split at h
      · cases h
      · rename_i hs
        split at h
        · cases h
        · rename_i hg
          simp only [Bool.or_eq_true, Bool.not_eq_true', not_or, Bool.not_eq_true, Bool.not_eq_false] at hs
          repeat' split at h
          all_goals first
            | (rename_i hp
               simp only [LGate.run.injEq] at h
               subst h
               exact ⟨hc, Classical.not_not.1 he, List.isEmpty_iff.1 hs.1, hs.2, by simpa using hg, by simpa using hp⟩)
            | cases h

/-! ### Whole effects -/

/-- An instruction with a vector destination: its whole effect, where its gate lets it run. -/
theorem vecOp_run {i : Instr} {w : LaneWord} {s : State} {c : LCtx} (h : laneGate i s = .run c) (val : LCtx → Nat → Word) :
    ∃ t, vecOp i w s val = .next t ∧ writesLanes s t c w.typ w.dst.toNat c.mask (val c) := by
  refine ⟨_, laneOp_run h _, _, onlyWave_setWave s c.core c.slot _, ?_, ?_⟩
  · conv => lhs; rw [putLanes_frame, popLane_vec]
    rw [vec_popLane]
  · intro r l hl
    rw [lane32_popLane, lane32_putLanes _ _ _ _ _ _ hl]

/-- An instruction with a predicate destination: its whole effect, where its gate lets it run. -/
theorem predOp_run {i : Instr} {w : LaneWord} {s : State} {c : LCtx} (h : laneGate i s = .run c)
    (cond : LCtx → Nat → Bool) :
    ∃ t, predOp i w s cond = .next t ∧ writesPred s t c w.dst.toNat (cond c) := by
  refine ⟨_, laneOp_run h _, _, onlyWave_setWave s c.core c.slot _, ?_, ?_⟩
  · rw [pred_popLane]
    unfold Wave.putPred
    split
    · conv => rhs; rw [← pred_popLane c.w]
    · exact popLane_pred _ _
  · intro p l hl
    rw [pget_popLane, pget_putPred]
    simp only [getLsbD_maskOf _ _ hl, List.mem_filter, List.mem_range, hl, true_and]
    simp

/-- Each element of a combination is that of the operands' elements (R348). -/
theorem elemOf_mapElems (ty : BitVec 5) (g : (n : Nat) → BitVec n → BitVec n → BitVec n → BitVec n) (a b d : Word)
    {k : Nat} (hk : k < elemCount ty) :
    elemOf ty k (mapElems ty g a b d) = g (elemBits ty) (elemOf ty k a) (elemOf ty k b) (elemOf ty k d) := by
  have one : ∀ x : Word, x.extractLsb' 0 64 = x := fun x => by simp
  have half : ∀ (x : Word32), (x.setWidth 64).extractLsb' 0 32 = x := fun x => by
    apply BitVec.eq_of_getLsbD_eq; intro i hi; simp [hi, show i < 64 by omega]
  have low : ∀ x : Word, x.setWidth 32 = x.extractLsb' 0 32 := fun x => by rw [BitVec.setWidth_eq_extractLsb' (by omega)]
  have lo16 : ∀ x y : BitVec 16, ((x ++ y).setWidth 64).extractLsb' 0 16 = y := fun x y => by
    apply BitVec.eq_of_getLsbD_eq
    intro i hi
    simp only [BitVec.getLsbD_extractLsb', BitVec.getLsbD_setWidth, BitVec.getLsbD_append]
    simp [hi, show i < 64 by omega]
  have hi16 : ∀ x y : BitVec 16, ((x ++ y).setWidth 64).extractLsb' 16 16 = x := fun x y => by
    apply BitVec.eq_of_getLsbD_eq
    intro i hi
    simp only [BitVec.getLsbD_extractLsb', BitVec.getLsbD_setWidth, BitVec.getLsbD_append]
    simp [hi, show 16 + i < 64 by omega]
  have h16' : is64 ty = true → is16 ty = false := by clear hk; revert ty; decide
  unfold elemOf mapElems
  unfold elemCount at hk
  by_cases h64 : is64 ty = true
  · have hb : elemBits ty = 64 := by simp [elemBits, h64]
    have hk0 : k = 0 := by simp [h16' h64] at hk; omega
    subst hk0
    rw [hb, if_pos h64]
    simp only [Nat.mul_zero, one]
  · by_cases h16 : is16 ty = true
    · have hb : elemBits ty = 16 := by simp [elemBits, h64, h16]
      rw [hb, if_neg h64, if_pos h16]
      rw [if_pos h16] at hk
      have : k = 0 ∨ k = 1 := by omega
      rcases this with rfl | rfl
      · exact lo16 _ _
      · exact hi16 _ _
    · have hb : elemBits ty = 32 := by simp [elemBits, h64, h16]
      rw [hb, if_neg h64, if_neg h16]
      rw [if_neg h16] at hk
      have hk0 : k = 0 := by omega
      subst hk0
      simp only [Nat.mul_zero, half, low]

end Sys2Proof.Machine
end

