-- ==== Sys2Proof/Laws/PerInstr.lean ====
section
/-!
SUPPORT. Statements made once per instruction. EncodingKind: the words of an instruction are of the stream whose fields it
has: a scalar word, with or without a literal, exactly for an instruction of Table 5, a lane word exactly for one of Table
12, and none for an event.
-/
namespace Sys2Proof.Laws.EncodingKind

open Sys2Proof.Machine

/-- The kind of the encoding of one instruction (R239 to R248). -/
def Statement (i : Instr) : Prop :=
  match encode i with
  | .scalar _ | .scalarLit _ _ => (scalarInfo i).isSome = true ∧ laneInfo i = none
  | .lane _ => scalarInfo i = none ∧ (laneInfo i).isSome = true
  | .none => scalarInfo i = none ∧ laneInfo i = none

theorem add : ∀ a b c, Statement (.add a b c) := fun _ _ _ => ⟨rfl, rfl⟩
theorem addImm : ∀ a b c, Statement (.addImm a b c) := fun _ _ _ => ⟨rfl, rfl⟩
theorem addSx : ∀ a b c d, Statement (.addSx a b c d) := fun _ _ _ _ => ⟨rfl, rfl⟩
theorem sub : ∀ a b c, Statement (.sub a b c) := fun _ _ _ => ⟨rfl, rfl⟩
theorem subImm : ∀ a b c, Statement (.subImm a b c) := fun _ _ _ => ⟨rfl, rfl⟩
theorem subSx : ∀ a b c d, Statement (.subSx a b c d) := fun _ _ _ _ => ⟨rfl, rfl⟩
theorem mul : ∀ a b c, Statement (.mul a b c) := fun _ _ _ => ⟨rfl, rfl⟩
theorem mulImm : ∀ a b c, Statement (.mulImm a b c) := fun _ _ _ => ⟨rfl, rfl⟩
theorem mulSx : ∀ a b c d, Statement (.mulSx a b c d) := fun _ _ _ _ => ⟨rfl, rfl⟩
theorem mulh : ∀ a b c, Statement (.mulh a b c) := fun _ _ _ => ⟨rfl, rfl⟩
theorem mulhImm : ∀ a b c, Statement (.mulhImm a b c) := fun _ _ _ => ⟨rfl, rfl⟩
theorem mulhSx : ∀ a b c d, Statement (.mulhSx a b c d) := fun _ _ _ _ => ⟨rfl, rfl⟩
theorem mulhn : ∀ a b c, Statement (.mulhn a b c) := fun _ _ _ => ⟨rfl, rfl⟩
theorem mulhnImm : ∀ a b c, Statement (.mulhnImm a b c) := fun _ _ _ => ⟨rfl, rfl⟩
theorem mulhnSx : ∀ a b c d, Statement (.mulhnSx a b c d) := fun _ _ _ _ => ⟨rfl, rfl⟩
theorem div : ∀ a b c, Statement (.div a b c) := fun _ _ _ => ⟨rfl, rfl⟩
theorem divImm : ∀ a b c, Statement (.divImm a b c) := fun _ _ _ => ⟨rfl, rfl⟩
theorem divSx : ∀ a b c d, Statement (.divSx a b c d) := fun _ _ _ _ => ⟨rfl, rfl⟩
theorem divn : ∀ a b c, Statement (.divn a b c) := fun _ _ _ => ⟨rfl, rfl⟩
theorem divnImm : ∀ a b c, Statement (.divnImm a b c) := fun _ _ _ => ⟨rfl, rfl⟩
theorem divnSx : ∀ a b c d, Statement (.divnSx a b c d) := fun _ _ _ _ => ⟨rfl, rfl⟩
theorem rem : ∀ a b c, Statement (.rem a b c) := fun _ _ _ => ⟨rfl, rfl⟩
theorem remImm : ∀ a b c, Statement (.remImm a b c) := fun _ _ _ => ⟨rfl, rfl⟩
theorem remSx : ∀ a b c d, Statement (.remSx a b c d) := fun _ _ _ _ => ⟨rfl, rfl⟩
theorem remn : ∀ a b c, Statement (.remn a b c) := fun _ _ _ => ⟨rfl, rfl⟩
theorem remnImm : ∀ a b c, Statement (.remnImm a b c) := fun _ _ _ => ⟨rfl, rfl⟩
theorem remnSx : ∀ a b c d, Statement (.remnSx a b c d) := fun _ _ _ _ => ⟨rfl, rfl⟩
theorem and : ∀ a b c, Statement (.and a b c) := fun _ _ _ => ⟨rfl, rfl⟩
theorem andImm : ∀ a b c, Statement (.andImm a b c) := fun _ _ _ => ⟨rfl, rfl⟩
theorem andSx : ∀ a b c d, Statement (.andSx a b c d) := fun _ _ _ _ => ⟨rfl, rfl⟩
theorem or : ∀ a b c, Statement (.or a b c) := fun _ _ _ => ⟨rfl, rfl⟩
theorem orImm : ∀ a b c, Statement (.orImm a b c) := fun _ _ _ => ⟨rfl, rfl⟩
theorem orSx : ∀ a b c d, Statement (.orSx a b c d) := fun _ _ _ _ => ⟨rfl, rfl⟩
theorem xor : ∀ a b c, Statement (.xor a b c) := fun _ _ _ => ⟨rfl, rfl⟩
theorem xorImm : ∀ a b c, Statement (.xorImm a b c) := fun _ _ _ => ⟨rfl, rfl⟩
theorem xorSx : ∀ a b c d, Statement (.xorSx a b c d) := fun _ _ _ _ => ⟨rfl, rfl⟩
theorem andn : ∀ a b c, Statement (.andn a b c) := fun _ _ _ => ⟨rfl, rfl⟩
theorem andnImm : ∀ a b c, Statement (.andnImm a b c) := fun _ _ _ => ⟨rfl, rfl⟩
theorem andnSx : ∀ a b c d, Statement (.andnSx a b c d) := fun _ _ _ _ => ⟨rfl, rfl⟩
theorem shl : ∀ a b c, Statement (.shl a b c) := fun _ _ _ => ⟨rfl, rfl⟩
theorem shlImm : ∀ a b c, Statement (.shlImm a b c) := fun _ _ _ => ⟨rfl, rfl⟩
theorem shlSx : ∀ a b c d, Statement (.shlSx a b c d) := fun _ _ _ _ => ⟨rfl, rfl⟩
theorem shr : ∀ a b c, Statement (.shr a b c) := fun _ _ _ => ⟨rfl, rfl⟩
theorem shrImm : ∀ a b c, Statement (.shrImm a b c) := fun _ _ _ => ⟨rfl, rfl⟩
theorem shrSx : ∀ a b c d, Statement (.shrSx a b c d) := fun _ _ _ _ => ⟨rfl, rfl⟩
theorem sar : ∀ a b c, Statement (.sar a b c) := fun _ _ _ => ⟨rfl, rfl⟩
theorem sarImm : ∀ a b c, Statement (.sarImm a b c) := fun _ _ _ => ⟨rfl, rfl⟩
theorem sarSx : ∀ a b c d, Statement (.sarSx a b c d) := fun _ _ _ _ => ⟨rfl, rfl⟩
theorem rot : ∀ a b c, Statement (.rot a b c) := fun _ _ _ => ⟨rfl, rfl⟩
theorem rotImm : ∀ a b c, Statement (.rotImm a b c) := fun _ _ _ => ⟨rfl, rfl⟩
theorem rotSx : ∀ a b c d, Statement (.rotSx a b c d) := fun _ _ _ _ => ⟨rfl, rfl⟩
theorem min : ∀ a b c, Statement (.min a b c) := fun _ _ _ => ⟨rfl, rfl⟩
theorem minImm : ∀ a b c, Statement (.minImm a b c) := fun _ _ _ => ⟨rfl, rfl⟩
theorem minSx : ∀ a b c d, Statement (.minSx a b c d) := fun _ _ _ _ => ⟨rfl, rfl⟩
theorem max : ∀ a b c, Statement (.max a b c) := fun _ _ _ => ⟨rfl, rfl⟩
theorem maxImm : ∀ a b c, Statement (.maxImm a b c) := fun _ _ _ => ⟨rfl, rfl⟩
theorem maxSx : ∀ a b c d, Statement (.maxSx a b c d) := fun _ _ _ _ => ⟨rfl, rfl⟩
theorem minn : ∀ a b c, Statement (.minn a b c) := fun _ _ _ => ⟨rfl, rfl⟩
theorem minnImm : ∀ a b c, Statement (.minnImm a b c) := fun _ _ _ => ⟨rfl, rfl⟩
theorem minnSx : ∀ a b c d, Statement (.minnSx a b c d) := fun _ _ _ _ => ⟨rfl, rfl⟩
theorem maxn : ∀ a b c, Statement (.maxn a b c) := fun _ _ _ => ⟨rfl, rfl⟩
theorem maxnImm : ∀ a b c, Statement (.maxnImm a b c) := fun _ _ _ => ⟨rfl, rfl⟩
theorem maxnSx : ∀ a b c d, Statement (.maxnSx a b c d) := fun _ _ _ _ => ⟨rfl, rfl⟩
theorem cmp : ∀ a b c, Statement (.cmp a b c) := fun _ _ _ => ⟨rfl, rfl⟩
theorem cmpImm : ∀ a b c, Statement (.cmpImm a b c) := fun _ _ _ => ⟨rfl, rfl⟩
theorem cmpSx : ∀ a b c d, Statement (.cmpSx a b c d) := fun _ _ _ _ => ⟨rfl, rfl⟩
theorem clz : ∀ a b, Statement (.clz a b) := fun _ _ => ⟨rfl, rfl⟩
theorem popc : ∀ a b, Statement (.popc a b) := fun _ _ => ⟨rfl, rfl⟩
theorem sel : ∀ a b c, Statement (.sel a b c) := fun _ _ _ => ⟨rfl, rfl⟩
theorem bfx : ∀ a b c, Statement (.bfx a b c) := fun _ _ _ => ⟨rfl, rfl⟩
theorem bfi : ∀ a b c, Statement (.bfi a b c) := fun _ _ _ => ⟨rfl, rfl⟩
theorem fadd : ∀ a b c, Statement (.fadd a b c) := fun _ _ _ => ⟨rfl, rfl⟩
theorem fmul : ∀ a b c, Statement (.fmul a b c) := fun _ _ _ => ⟨rfl, rfl⟩
theorem ffma : ∀ a b c, Statement (.ffma a b c) := fun _ _ _ => ⟨rfl, rfl⟩
theorem fcmp : ∀ a b c, Statement (.fcmp a b c) := fun _ _ _ => ⟨rfl, rfl⟩
theorem fcvt : ∀ a b c, Statement (.fcvt a b c) := fun _ _ _ => ⟨rfl, rfl⟩
theorem li : ∀ a b, Statement (.li a b) := fun _ _ => ⟨rfl, rfl⟩
theorem liSx : ∀ a b c, Statement (.liSx a b c) := fun _ _ _ => ⟨rfl, rfl⟩
theorem lih : ∀ a b, Statement (.lih a b) := fun _ _ => ⟨rfl, rfl⟩
theorem lihSx : ∀ a b c, Statement (.lihSx a b c) := fun _ _ _ => ⟨rfl, rfl⟩
theorem sld : ∀ a b c, Statement (.sld a b c) := fun _ _ _ => ⟨rfl, rfl⟩
theorem sldSx : ∀ a b c d, Statement (.sldSx a b c d) := fun _ _ _ _ => ⟨rfl, rfl⟩
theorem sst : ∀ a b c, Statement (.sst a b c) := fun _ _ _ => ⟨rfl, rfl⟩
theorem sstSx : ∀ a b c d, Statement (.sstSx a b c d) := fun _ _ _ _ => ⟨rfl, rfl⟩
theorem slds : ∀ a b c, Statement (.slds a b c) := fun _ _ _ => ⟨rfl, rfl⟩
theorem sldsSx : ∀ a b c d, Statement (.sldsSx a b c d) := fun _ _ _ _ => ⟨rfl, rfl⟩
theorem ssts : ∀ a b c, Statement (.ssts a b c) := fun _ _ _ => ⟨rfl, rfl⟩
theorem sstsSx : ∀ a b c d, Statement (.sstsSx a b c d) := fun _ _ _ _ => ⟨rfl, rfl⟩
theorem satom : ∀ a b c d, Statement (.satom a b c d) := fun _ _ _ _ => ⟨rfl, rfl⟩
theorem br : ∀ a, Statement (.br a) := fun _ => ⟨rfl, rfl⟩
theorem call : ∀ a, Statement (.call a) := fun _ => ⟨rfl, rfl⟩
theorem brc : ∀ a b c, Statement (.brc a b c) := fun _ _ _ => ⟨rfl, rfl⟩
theorem brm : ∀ a b c d e, Statement (.brm a b c d e) := fun _ _ _ _ _ => ⟨rfl, rfl⟩
theorem rcv : ∀ a, Statement (.rcv a) := fun _ => ⟨rfl, rfl⟩
theorem jmpi : ∀ a, Statement (.jmpi a) := fun _ => ⟨rfl, rfl⟩
theorem ret : Statement .ret := ⟨rfl, rfl⟩
theorem issue : ∀ a b, Statement (.issue a b) := fun _ _ => ⟨rfl, rfl⟩
theorem exit : Statement .exit := ⟨rfl, rfl⟩
theorem wait : ∀ a b c d, Statement (.wait a b c d) := fun _ _ _ _ => ⟨rfl, rfl⟩
theorem fence : ∀ a b, Statement (.fence a b) := fun _ _ => ⟨rfl, rfl⟩
theorem nop : Statement .nop := ⟨rfl, rfl⟩
theorem barinit : ∀ a b c, Statement (.barinit a b c) := fun _ _ _ => ⟨rfl, rfl⟩
theorem bararr : ∀ a b c, Statement (.bararr a b c) := fun _ _ _ => ⟨rfl, rfl⟩
theorem barexp : ∀ a b c, Statement (.barexp a b c) := fun _ _ _ => ⟨rfl, rfl⟩
theorem barwait : ∀ a b c d, Statement (.barwait a b c d) := fun _ _ _ _ => ⟨rfl, rfl⟩
theorem barinv : ∀ a b, Statement (.barinv a b) := fun _ _ => ⟨rfl, rfl⟩
theorem barph : ∀ a b, Statement (.barph a b) := fun _ _ => ⟨rfl, rfl⟩
theorem cvjoin : ∀ a b, Statement (.cvjoin a b) := fun _ _ => ⟨rfl, rfl⟩
theorem cvleave : Statement .cvleave := ⟨rfl, rfl⟩
theorem cvstep : Statement .cvstep := ⟨rfl, rfl⟩
theorem setfmtReg : ∀ a, Statement (.setfmtReg a) := fun _ => ⟨rfl, rfl⟩
theorem setfmtImm : ∀ a, Statement (.setfmtImm a) := fun _ => ⟨rfl, rfl⟩
theorem mma : ∀ a, Statement (.mma a) := fun _ => ⟨rfl, rfl⟩
theorem mfence : ∀ a, Statement (.mfence a) := fun _ => ⟨rfl, rfl⟩
theorem mwait : ∀ a, Statement (.mwait a) := fun _ => ⟨rfl, rfl⟩
theorem cpy : ∀ a b, Statement (.cpy a b) := fun _ _ => ⟨rfl, rfl⟩
theorem cpym : ∀ a b, Statement (.cpym a b) := fun _ _ => ⟨rfl, rfl⟩
theorem cpyr : ∀ a b, Statement (.cpyr a b) := fun _ _ => ⟨rfl, rfl⟩
theorem cpyx : ∀ a b, Statement (.cpyx a b) := fun _ _ => ⟨rfl, rfl⟩
theorem nlsend : ∀ a b c d, Statement (.nlsend a b c d) := fun _ _ _ _ => ⟨rfl, rfl⟩
theorem nlrecv : ∀ a b c d, Statement (.nlrecv a b c d) := fun _ _ _ _ => ⟨rfl, rfl⟩
theorem tspawn : ∀ a b, Statement (.tspawn a b) := fun _ _ => ⟨rfl, rfl⟩
theorem tdep : ∀ a b, Statement (.tdep a b) := fun _ _ => ⟨rfl, rfl⟩
theorem tdone : Statement .tdone := ⟨rfl, rfl⟩
theorem qpush : ∀ a b c, Statement (.qpush a b c) := fun _ _ _ => ⟨rfl, rfl⟩
theorem qpop : ∀ a b, Statement (.qpop a b) := fun _ _ => ⟨rfl, rfl⟩
theorem flushred : Statement .flushred := ⟨rfl, rfl⟩
theorem trap : ∀ a, Statement (.trap a) := fun _ => ⟨rfl, rfl⟩
theorem eret : Statement .eret := ⟨rfl, rfl⟩
theorem mfs : ∀ a b, Statement (.mfs a b) := fun _ _ => ⟨rfl, rfl⟩
theorem mts : ∀ a b, Statement (.mts a b) := fun _ _ => ⟨rfl, rfl⟩
theorem yield : Statement .yield := ⟨rfl, rfl⟩
theorem reggrow : ∀ a, Statement (.reggrow a) := fun _ => ⟨rfl, rfl⟩
theorem regshrink : ∀ a, Statement (.regshrink a) := fun _ => ⟨rfl, rfl⟩
theorem bkpt : Statement .bkpt := ⟨rfl, rfl⟩
theorem vfadd : ∀ a, Statement (.vfadd a) := fun _ => ⟨rfl, rfl⟩
theorem vfaddLi : ∀ a, Statement (.vfaddLi a) := fun _ => ⟨rfl, rfl⟩
theorem vfsub : ∀ a, Statement (.vfsub a) := fun _ => ⟨rfl, rfl⟩
theorem vfsubLi : ∀ a, Statement (.vfsubLi a) := fun _ => ⟨rfl, rfl⟩
theorem vfmul : ∀ a, Statement (.vfmul a) := fun _ => ⟨rfl, rfl⟩
theorem vfmulLi : ∀ a, Statement (.vfmulLi a) := fun _ => ⟨rfl, rfl⟩
theorem vffma : ∀ a, Statement (.vffma a) := fun _ => ⟨rfl, rfl⟩
theorem vffmaLi : ∀ a, Statement (.vffmaLi a) := fun _ => ⟨rfl, rfl⟩
theorem vfmin : ∀ a, Statement (.vfmin a) := fun _ => ⟨rfl, rfl⟩
theorem vfminLi : ∀ a, Statement (.vfminLi a) := fun _ => ⟨rfl, rfl⟩
theorem vfmax : ∀ a, Statement (.vfmax a) := fun _ => ⟨rfl, rfl⟩
theorem vfmaxLi : ∀ a, Statement (.vfmaxLi a) := fun _ => ⟨rfl, rfl⟩
theorem vfrcp : ∀ a, Statement (.vfrcp a) := fun _ => ⟨rfl, rfl⟩
theorem vfrsq : ∀ a, Statement (.vfrsq a) := fun _ => ⟨rfl, rfl⟩
theorem vfsqrt : ∀ a, Statement (.vfsqrt a) := fun _ => ⟨rfl, rfl⟩
theorem vfdiv : ∀ a, Statement (.vfdiv a) := fun _ => ⟨rfl, rfl⟩
theorem vfdivLi : ∀ a, Statement (.vfdivLi a) := fun _ => ⟨rfl, rfl⟩
theorem vfexp2 : ∀ a, Statement (.vfexp2 a) := fun _ => ⟨rfl, rfl⟩
theorem vflog2 : ∀ a, Statement (.vflog2 a) := fun _ => ⟨rfl, rfl⟩
theorem vfsin : ∀ a, Statement (.vfsin a) := fun _ => ⟨rfl, rfl⟩
theorem vfcos : ∀ a, Statement (.vfcos a) := fun _ => ⟨rfl, rfl⟩
theorem vfcmp : ∀ a, Statement (.vfcmp a) := fun _ => ⟨rfl, rfl⟩
theorem vfcmpLi : ∀ a, Statement (.vfcmpLi a) := fun _ => ⟨rfl, rfl⟩
theorem vfclass : ∀ a, Statement (.vfclass a) := fun _ => ⟨rfl, rfl⟩
theorem vfrnd : ∀ a, Statement (.vfrnd a) := fun _ => ⟨rfl, rfl⟩
theorem vadd : ∀ a, Statement (.vadd a) := fun _ => ⟨rfl, rfl⟩
theorem vaddLi : ∀ a, Statement (.vaddLi a) := fun _ => ⟨rfl, rfl⟩
theorem vsub : ∀ a, Statement (.vsub a) := fun _ => ⟨rfl, rfl⟩
theorem vsubLi : ∀ a, Statement (.vsubLi a) := fun _ => ⟨rfl, rfl⟩
theorem vmul : ∀ a, Statement (.vmul a) := fun _ => ⟨rfl, rfl⟩
theorem vmulLi : ∀ a, Statement (.vmulLi a) := fun _ => ⟨rfl, rfl⟩
theorem vmulh : ∀ a, Statement (.vmulh a) := fun _ => ⟨rfl, rfl⟩
theorem vmulhLi : ∀ a, Statement (.vmulhLi a) := fun _ => ⟨rfl, rfl⟩
theorem vmad : ∀ a, Statement (.vmad a) := fun _ => ⟨rfl, rfl⟩
theorem vmadLi : ∀ a, Statement (.vmadLi a) := fun _ => ⟨rfl, rfl⟩
theorem vmin : ∀ a, Statement (.vmin a) := fun _ => ⟨rfl, rfl⟩
theorem vminLi : ∀ a, Statement (.vminLi a) := fun _ => ⟨rfl, rfl⟩
theorem vmax : ∀ a, Statement (.vmax a) := fun _ => ⟨rfl, rfl⟩
theorem vmaxLi : ∀ a, Statement (.vmaxLi a) := fun _ => ⟨rfl, rfl⟩
theorem vabs : ∀ a, Statement (.vabs a) := fun _ => ⟨rfl, rfl⟩
theorem vand : ∀ a, Statement (.vand a) := fun _ => ⟨rfl, rfl⟩
theorem vandLi : ∀ a, Statement (.vandLi a) := fun _ => ⟨rfl, rfl⟩
theorem vor : ∀ a, Statement (.vor a) := fun _ => ⟨rfl, rfl⟩
theorem vorLi : ∀ a, Statement (.vorLi a) := fun _ => ⟨rfl, rfl⟩
theorem vxor : ∀ a, Statement (.vxor a) := fun _ => ⟨rfl, rfl⟩
theorem vxorLi : ∀ a, Statement (.vxorLi a) := fun _ => ⟨rfl, rfl⟩
theorem vshl : ∀ a, Statement (.vshl a) := fun _ => ⟨rfl, rfl⟩
theorem vshlLi : ∀ a, Statement (.vshlLi a) := fun _ => ⟨rfl, rfl⟩
theorem vshr : ∀ a, Statement (.vshr a) := fun _ => ⟨rfl, rfl⟩
theorem vshrLi : ∀ a, Statement (.vshrLi a) := fun _ => ⟨rfl, rfl⟩
theorem vsar : ∀ a, Statement (.vsar a) := fun _ => ⟨rfl, rfl⟩
theorem vsarLi : ∀ a, Statement (.vsarLi a) := fun _ => ⟨rfl, rfl⟩
theorem vbfx : ∀ a, Statement (.vbfx a) := fun _ => ⟨rfl, rfl⟩
theorem vbfxLi : ∀ a, Statement (.vbfxLi a) := fun _ => ⟨rfl, rfl⟩
theorem vbfi : ∀ a, Statement (.vbfi a) := fun _ => ⟨rfl, rfl⟩
theorem vbfiLi : ∀ a, Statement (.vbfiLi a) := fun _ => ⟨rfl, rfl⟩
theorem vpopc : ∀ a, Statement (.vpopc a) := fun _ => ⟨rfl, rfl⟩
theorem vclz : ∀ a, Statement (.vclz a) := fun _ => ⟨rfl, rfl⟩
theorem vcmp : ∀ a, Statement (.vcmp a) := fun _ => ⟨rfl, rfl⟩
theorem vcmpLi : ∀ a, Statement (.vcmpLi a) := fun _ => ⟨rfl, rfl⟩
theorem vsadd : ∀ a, Statement (.vsadd a) := fun _ => ⟨rfl, rfl⟩
theorem vsaddLi : ∀ a, Statement (.vsaddLi a) := fun _ => ⟨rfl, rfl⟩
theorem vssub : ∀ a, Statement (.vssub a) := fun _ => ⟨rfl, rfl⟩
theorem vssubLi : ∀ a, Statement (.vssubLi a) := fun _ => ⟨rfl, rfl⟩
theorem vsel : ∀ a, Statement (.vsel a) := fun _ => ⟨rfl, rfl⟩
theorem vselLi : ∀ a, Statement (.vselLi a) := fun _ => ⟨rfl, rfl⟩
theorem pset : ∀ a, Statement (.pset a) := fun _ => ⟨rfl, rfl⟩
theorem pand : ∀ a, Statement (.pand a) := fun _ => ⟨rfl, rfl⟩
theorem por : ∀ a, Statement (.por a) := fun _ => ⟨rfl, rfl⟩
theorem pxor : ∀ a, Statement (.pxor a) := fun _ => ⟨rfl, rfl⟩
theorem pnot : ∀ a, Statement (.pnot a) := fun _ => ⟨rfl, rfl⟩
theorem vmask : ∀ a, Statement (.vmask a) := fun _ => ⟨rfl, rfl⟩
theorem vcvt : ∀ a, Statement (.vcvt a) := fun _ => ⟨rfl, rfl⟩
theorem vpack : ∀ a, Statement (.vpack a) := fun _ => ⟨rfl, rfl⟩
theorem vunpack : ∀ a, Statement (.vunpack a) := fun _ => ⟨rfl, rfl⟩
theorem vscale : ∀ a, Statement (.vscale a) := fun _ => ⟨rfl, rfl⟩
theorem vshuf : ∀ a, Statement (.vshuf a) := fun _ => ⟨rfl, rfl⟩
theorem vbcast : ∀ a, Statement (.vbcast a) := fun _ => ⟨rfl, rfl⟩
theorem vrot : ∀ a, Statement (.vrot a) := fun _ => ⟨rfl, rfl⟩
theorem vxlane : ∀ a, Statement (.vxlane a) := fun _ => ⟨rfl, rfl⟩
theorem vreadlane : ∀ a, Statement (.vreadlane a) := fun _ => ⟨rfl, rfl⟩
theorem vwritelane : ∀ a, Statement (.vwritelane a) := fun _ => ⟨rfl, rfl⟩
theorem viota : ∀ a, Statement (.viota a) := fun _ => ⟨rfl, rfl⟩
theorem vreduce : ∀ a, Statement (.vreduce a) := fun _ => ⟨rfl, rfl⟩
theorem vmov : ∀ a, Statement (.vmov a) := fun _ => ⟨rfl, rfl⟩
theorem vmovi : ∀ a, Statement (.vmovi a) := fun _ => ⟨rfl, rfl⟩
theorem vld : ∀ a, Statement (.vld a) := fun _ => ⟨rfl, rfl⟩
theorem vst : ∀ a, Statement (.vst a) := fun _ => ⟨rfl, rfl⟩
theorem vldx : ∀ a, Statement (.vldx a) := fun _ => ⟨rfl, rfl⟩
theorem vstx : ∀ a, Statement (.vstx a) := fun _ => ⟨rfl, rfl⟩
theorem vlds : ∀ a, Statement (.vlds a) := fun _ => ⟨rfl, rfl⟩
theorem vsts : ∀ a, Statement (.vsts a) := fun _ => ⟨rfl, rfl⟩
theorem vldc : ∀ a, Statement (.vldc a) := fun _ => ⟨rfl, rfl⟩
theorem vstp : ∀ a, Statement (.vstp a) := fun _ => ⟨rfl, rfl⟩
theorem vpref : ∀ a, Statement (.vpref a) := fun _ => ⟨rfl, rfl⟩
theorem vatom : ∀ a, Statement (.vatom a) := fun _ => ⟨rfl, rfl⟩
theorem vred : ∀ a, Statement (.vred a) := fun _ => ⟨rfl, rfl⟩
theorem vaccrd : ∀ a, Statement (.vaccrd a) := fun _ => ⟨rfl, rfl⟩
theorem vtrsend : ∀ a, Statement (.vtrsend a) := fun _ => ⟨rfl, rfl⟩
theorem vtrrecv : ∀ a, Statement (.vtrrecv a) := fun _ => ⟨rfl, rfl⟩
theorem faultRecordDrain : ∀ a, Statement (.faultRecordDrain a) := fun _ => ⟨rfl, rfl⟩
theorem tableWalk : ∀ a b, Statement (.tableWalk a b) := fun _ _ => ⟨rfl, rfl⟩
theorem tlbInvalidateAll : ∀ a, Statement (.tlbInvalidateAll a) := fun _ => ⟨rfl, rfl⟩
theorem tlbInvalidateJob : ∀ a, Statement (.tlbInvalidateJob a) := fun _ => ⟨rfl, rfl⟩
theorem tlbInvalidateRange : ∀ a, Statement (.tlbInvalidateRange a) := fun _ => ⟨rfl, rfl⟩
theorem tlbInvalidateComplete : Statement .tlbInvalidateComplete := ⟨rfl, rfl⟩
theorem create : ∀ a b, Statement (.create a b) := fun _ _ => ⟨rfl, rfl⟩
theorem endJob : ∀ a b, Statement (.endJob a b) := fun _ _ => ⟨rfl, rfl⟩
theorem jobEnded : ∀ a, Statement (.jobEnded a) := fun _ => ⟨rfl, rfl⟩
theorem keyLoad : ∀ a, Statement (.keyLoad a) := fun _ => ⟨rfl, rfl⟩
theorem keyGen : ∀ a, Statement (.keyGen a) := fun _ => ⟨rfl, rfl⟩
theorem keyDestroy : ∀ a, Statement (.keyDestroy a) := fun _ => ⟨rfl, rfl⟩
theorem keyCommandComplete : Statement .keyCommandComplete := ⟨rfl, rfl⟩
theorem bindRegions : ∀ a, Statement (.bindRegions a) := fun _ => ⟨rfl, rfl⟩
theorem unbindRegions : ∀ a, Statement (.unbindRegions a) := fun _ => ⟨rfl, rfl⟩
theorem liveMapCommandComplete : Statement .liveMapCommandComplete := ⟨rfl, rfl⟩
theorem mpointSwitch : ∀ a, Statement (.mpointSwitch a) := fun _ => ⟨rfl, rfl⟩
theorem mpointRelease : Statement .mpointRelease := ⟨rfl, rfl⟩
theorem retrain : ∀ a b, Statement (.retrain a b) := fun _ _ => ⟨rfl, rfl⟩
theorem retrainDone : ∀ a, Statement (.retrainDone a) := fun _ => ⟨rfl, rfl⟩
theorem repair : ∀ a b, Statement (.repair a b) := fun _ _ => ⟨rfl, rfl⟩
theorem eyeAlert : ∀ a, Statement (.eyeAlert a) := fun _ => ⟨rfl, rfl⟩
theorem eyestatRead : ∀ a, Statement (.eyestatRead a) := fun _ => ⟨rfl, rfl⟩
theorem rd : ∀ a b, Statement (.rd a b) := fun _ _ => ⟨rfl, rfl⟩
theorem wr : ∀ a, Statement (.wr a) := fun _ => ⟨rfl, rfl⟩
theorem wrm : ∀ a b, Statement (.wrm a b) := fun _ _ => ⟨rfl, rfl⟩
theorem atm : ∀ a b, Statement (.atm a b) := fun _ _ => ⟨rfl, rfl⟩
theorem grd : ∀ a b, Statement (.grd a b) := fun _ _ => ⟨rfl, rfl⟩
theorem gwr : ∀ a, Statement (.gwr a) := fun _ => ⟨rfl, rfl⟩
theorem crossingNotice : ∀ a, Statement (.crossingNotice a) := fun _ => ⟨rfl, rfl⟩
theorem packetReply : ∀ a, Statement (.packetReply a) := fun _ => ⟨rfl, rfl⟩
theorem portQueueRelease : ∀ a b, Statement (.portQueueRelease a b) := fun _ _ => ⟨rfl, rfl⟩
theorem lensReadRequest : ∀ a, Statement (.lensReadRequest a) := fun _ => ⟨rfl, rfl⟩
theorem lensWritePassage : ∀ a, Statement (.lensWritePassage a) := fun _ => ⟨rfl, rfl⟩
theorem lensEntryReply : ∀ a, Statement (.lensEntryReply a) := fun _ => ⟨rfl, rfl⟩
theorem lensIntakeRelease : ∀ a, Statement (.lensIntakeRelease a) := fun _ => ⟨rfl, rfl⟩
theorem hostMemoryRead : ∀ a b c, Statement (.hostMemoryRead a b c) := fun _ _ _ => ⟨rfl, rfl⟩
theorem hostMemoryWrite : ∀ a b c, Statement (.hostMemoryWrite a b c) := fun _ _ _ => ⟨rfl, rfl⟩
theorem queueApertureStore : ∀ a b c, Statement (.queueApertureStore a b c) := fun _ _ _ => ⟨rfl, rfl⟩
theorem peerAccessArrival : ∀ a, Statement (.peerAccessArrival a) := fun _ => ⟨rfl, rfl⟩
theorem registerWrite : ∀ a b, Statement (.registerWrite a b) := fun _ _ => ⟨rfl, rfl⟩
theorem queueEnable : ∀ a b, Statement (.queueEnable a b) := fun _ _ => ⟨rfl, rfl⟩
theorem queueDisable : ∀ a b, Statement (.queueDisable a b) := fun _ _ => ⟨rfl, rfl⟩
theorem depcntFree : ∀ a, Statement (.depcntFree a) := fun _ => ⟨rfl, rfl⟩
theorem debugHalt : ∀ a b, Statement (.debugHalt a b) := fun _ _ => ⟨rfl, rfl⟩
theorem debugRelease : ∀ a b, Statement (.debugRelease a b) := fun _ _ => ⟨rfl, rfl⟩
theorem verify : ∀ a, Statement (.verify a) := fun _ => ⟨rfl, rfl⟩
theorem install : ∀ a, Statement (.install a) := fun _ => ⟨rfl, rfl⟩
theorem fwCommandComplete : Statement .fwCommandComplete := ⟨rfl, rfl⟩
theorem dumpstatClear : ∀ a, Statement (.dumpstatClear a) := fun _ => ⟨rfl, rfl⟩
theorem warmReset : Statement .warmReset := ⟨rfl, rfl⟩
theorem coldReset : ∀ a, Statement (.coldReset a) := fun _ => ⟨rfl, rfl⟩
theorem fatalError : ∀ a b, Statement (.fatalError a b) := fun _ _ => ⟨rfl, rfl⟩
theorem admissionTurn : ∀ a, Statement (.admissionTurn a) := fun _ => ⟨rfl, rfl⟩
theorem timeSliceExpiry : ∀ a, Statement (.timeSliceExpiry a) := fun _ => ⟨rfl, rfl⟩
theorem bandwidthWindow : Statement .bandwidthWindow := ⟨rfl, rfl⟩
theorem gridCompletion : ∀ a, Statement (.gridCompletion a) := fun _ => ⟨rfl, rfl⟩
theorem waveEviction : ∀ a b, Statement (.waveEviction a b) := fun _ _ => ⟨rfl, rfl⟩
theorem lightshipSave : ∀ a b, Statement (.lightshipSave a b) := fun _ _ => ⟨rfl, rfl⟩
theorem lightshipOpen : ∀ a b, Statement (.lightshipOpen a b) := fun _ _ => ⟨rfl, rfl⟩
theorem lightshipRetire : ∀ a, Statement (.lightshipRetire a) := fun _ => ⟨rfl, rfl⟩
theorem divertedArrival : ∀ a b, Statement (.divertedArrival a b) := fun _ _ => ⟨rfl, rfl⟩
theorem replyDiversion : ∀ a, Statement (.replyDiversion a) := fun _ => ⟨rfl, rfl⟩
theorem gangResume : ∀ a b, Statement (.gangResume a b) := fun _ _ => ⟨rfl, rfl⟩
theorem resumeReopen : ∀ a b, Statement (.resumeReopen a b) := fun _ _ => ⟨rfl, rfl⟩
theorem enginePiece : ∀ a b c, Statement (.enginePiece a b c) := fun _ _ _ => ⟨rfl, rfl⟩
theorem neighbourLineSend : ∀ a b, Statement (.neighbourLineSend a b) := fun _ _ => ⟨rfl, rfl⟩
theorem neighbourArrival : ∀ a b, Statement (.neighbourArrival a b) := fun _ _ => ⟨rfl, rfl⟩
theorem treeContribution : ∀ a, Statement (.treeContribution a) := fun _ => ⟨rfl, rfl⟩
theorem treeTimeout : ∀ a b, Statement (.treeTimeout a b) := fun _ _ => ⟨rfl, rfl⟩
theorem treeResult : ∀ a b c, Statement (.treeResult a b c) := fun _ _ _ => ⟨rfl, rfl⟩
theorem tileOperation : ∀ a b c, Statement (.tileOperation a b c) := fun _ _ _ => ⟨rfl, rfl⟩
theorem tileCompletion : ∀ a, Statement (.tileCompletion a) := fun _ => ⟨rfl, rfl⟩
theorem maskResolution : ∀ a b, Statement (.maskResolution a b) := fun _ _ => ⟨rfl, rfl⟩
theorem cvstepRelease : ∀ a b, Statement (.cvstepRelease a b) := fun _ _ => ⟨rfl, rfl⟩
theorem convoyPatienceEjection : ∀ a b, Statement (.convoyPatienceEjection a b) := fun _ _ => ⟨rfl, rfl⟩
theorem barwaitReturn : ∀ a b c, Statement (.barwaitReturn a b c) := fun _ _ _ => ⟨rfl, rfl⟩
theorem lineStateTake : ∀ a b, Statement (.lineStateTake a b) := fun _ _ => ⟨rfl, rfl⟩
theorem waitComplete : ∀ a b c, Statement (.waitComplete a b c) := fun _ _ _ => ⟨rfl, rfl⟩
theorem qpopWake : ∀ a, Statement (.qpopWake a) := fun _ => ⟨rfl, rfl⟩
theorem reggrowGrant : ∀ a, Statement (.reggrowGrant a) := fun _ => ⟨rfl, rfl⟩
theorem watchdog : ∀ a, Statement (.watchdog a) := fun _ => ⟨rfl, rfl⟩
theorem sliceover : ∀ a b, Statement (.sliceover a b) := fun _ _ => ⟨rfl, rfl⟩
theorem sliceoverEnd : ∀ a b, Statement (.sliceoverEnd a b) := fun _ _ => ⟨rfl, rfl⟩
theorem remoteReply : ∀ a b, Statement (.remoteReply a b) := fun _ _ => ⟨rfl, rfl⟩
theorem eyeMarginMeasurement : ∀ a b c d, Statement (.eyeMarginMeasurement a b c d) := fun _ _ _ _ => ⟨rfl, rfl⟩

end Sys2Proof.Laws.EncodingKind
end

