-- ==== Sys2Proof/Machine/Object.lean ====
section
/-!
DEFINITION. The Trowethes Object Format (R274 to R279), the linker (R280 to R283), and what the host runtime loader maps
and refuses: what stands between the assembler's output and the bytes of memory that the device reads as code, lane block
directory, liveness table and data. The device itself reads none of these files.
-/
namespace Sys2Proof.Machine

/-- Why a file is refused, by the linker or by the loader. -/
inductive TofError where
  /-- MAGIC, VERSION, KIND or a reserved field of the header (R274) -/
  | header
  /-- a section table entry (R275) -/
  | sect
  /-- a symbol record (R277) -/
  | symbol
  /-- a relocation record, its field or its check (R278) -/
  | relocation
  /-- a requirement record (R279), or a resource requirement that a task record does not meet (R283) -/
  | requirement
  /-- a block record, or more than 65,536 blocks (R276, R280) -/
  | block
  /-- a global name with no definition, or with two (R280) -/
  | undefined | duplicate
  /-- liveness records cut short, or two with one SPC (R282) -/
  | liveness
  /-- the base address of the link (R280) -/
  | base
  /-- a requirement that no Light List record meets (R283) -/
  | unmet
  deriving DecidableEq, Repr

/-- A name, in ASCII. -/
abbrev Name := List Byte

/-- A section with its contents (Tables 6 and 7); section 0 of a file is the empty one. -/
structure Section where
  name  : Nat
  type  : Nat
  /-- log2 of the alignment -/
  align : Nat
  link  : Nat
  size  : Nat
  addr  : Nat
  /-- none for BSS -/
  bytes : List Byte
  deriving DecidableEq, Repr

/-- A file of the format: an object, or a linked image. -/
structure Tof where
  image : Bool
  base  : Nat
  sects : List Section
  deriving DecidableEq, Repr

/-- A symbol record (R277). -/
structure Symbol where
  name  : Name
  sect  : Nat
  kind  : Nat
  isGlobal : Bool
  value : Word
  deriving DecidableEq, Repr

/-- A relocation record (R278). -/
structure Reloc where
  place  : Nat
  sym    : Nat
  type   : Nat
  addend : Word
  deriving DecidableEq, Repr

/-- A block record (R276). -/
structure BlockRec where
  sym   : Nat
  lenm1 : Nat
  off   : Nat
  deriving DecidableEq, Repr

/-! ### Reading and writing a file -/

/-- The number that `n` bytes at an offset spell. -/
def numAt (bs : List Byte) (off n : Nat) : Nat := natOfBytes ((bs.drop off).take n)
/-- A 64-bit word at an offset. -/
def word64At (bs : List Byte) (off : Nat) : Word := BitVec.ofNat 64 (numAt bs off 8)

/-- "TROWETHS". -/
def tofMagic : List Byte := [0x54, 0x52, 0x4F, 0x57, 0x45, 0x54, 0x48, 0x53]

/-- One entry of the section table (Table 6). -/
def readSection (file : List Byte) (off : Nat) : Except TofError Section :=
  let w0 := word64At file off
  let type := bits w0 31 24
  let at_ := numAt file (off + 8) 8
  let size := numAt file (off + 16) 8
  if type = 0 ∨ 0x0B < type ∨ bits w0 7 0 ≠ 0 ∨ (type ≠ 0x0A ∧ bits w0 15 8 ≠ 0) ∨ 63 < bits w0 23 16 then .error .sect
  else if type = 0x07 then
    if at_ = 0 then .ok ⟨bits w0 63 32, type, bits w0 23 16, 0, size, numAt file (off + 24) 8, []⟩ else .error .sect
  else if file.length < at_ + size then .error .sect
  else .ok ⟨bits w0 63 32, type, bits w0 23 16, bits w0 15 8, size, numAt file (off + 24) 8, (file.drop at_).take size⟩

/-- No two sections of one type, and no two relocation sections of one target (R275). -/
def distinctSections : List Section → Bool
  | [] => true
  | s :: ss => !(ss.any (fun t => t.type == s.type && (s.type != 0x0A || t.link == s.link))) && distinctSections ss

/-- Read a file (R274, R275). -/
def readTof (file : List Byte) : Except TofError Tof := do
  let kind := numAt file 0x0A 2
  let n := numAt file 0x0C 4
  let sh := numAt file 0x10 8
  if file.length < 64 ∨ file.take 8 ≠ tofMagic ∨ numAt file 8 2 ≠ 1 ∨ 1 < kind ∨ numAt file 0x20 32 ≠ 0 ∨
      (kind = 0 ∧ numAt file 0x18 8 ≠ 0) then throw .header
  if file.length < sh + 32 * n ∨ n = 0 ∨ numAt file sh 32 ≠ 0 then throw .sect
  let ss ← (List.range (n - 1)).mapM (fun i => readSection file (sh + 32 * (i + 1)))
  if !distinctSections ss ∨ (kind = 1 ∧ ss.any (fun s => s.type == 0x0A)) ∨
      (kind = 0 ∧ ss.any (fun s => s.addr != 0)) then throw .sect
  return ⟨kind == 1, numAt file 0x18 8, ⟨0, 0, 0, 0, 0, 0, []⟩ :: ss⟩

/-- The least multiple of `a` that is not below `n`. -/
def alignUp (n a : Nat) : Nat := if a = 0 then n else (n + a - 1) / a * a
/-- Pad with zero bytes to a multiple of `a`. -/
def padTo (bs : List Byte) (a : Nat) : List Byte := bs ++ List.replicate (alignUp bs.length a - bs.length) 0

/-- The contents of sections one after another, and their offsets in the file. -/
def placeContents (file : List Byte) : List Section → List Byte × List Nat
  | [] => (file, [])
  | s :: ss =>
    let file := padTo file 8
    let (out, offs) := placeContents (file ++ s.bytes) ss
    (out, (if s.type = 0x07 ∨ s.type = 0 then 0 else file.length) :: offs)

/-- One entry of the section table, as bytes. -/
def sectionBytes (s : Section) (off : Nat) : List Byte :=
  if s.type = 0 then List.replicate 32 0
  else bytesOfNat 8 (s.name * 2 ^ 32 + s.type * 2 ^ 24 + s.align * 2 ^ 16 + s.link * 2 ^ 8) ++
    bytesOfNat 8 off ++ bytesOfNat 8 s.size ++ bytesOfNat 8 s.addr

/-- The name of a type of section (Table 7). -/
def sectionName (type : Nat) : Name :=
  let ascii (n : String) : Name := n.toList.map (fun c => BitVec.ofNat 8 c.toNat)
  match type with
  | 1 => ascii "SCODE" | 2 => ascii "LCODE" | 3 => ascii "LBLOCKS" | 4 => ascii "LIVE" | 5 => ascii "RODATA"
  | 6 => ascii "DATA" | 7 => ascii "BSS" | 8 => ascii "SYMTAB" | 9 => ascii "STRTAB" | 0x0A => ascii "RELOC"
  | 0x0B => ascii "REQ" | _ => []

/-- Name the sections of a file: their names follow the symbols' in STRTAB, whose contents they complete (Table 6). -/
def nameSections (strtab : List Byte) (ss : List Section) : List Section :=
  let types := (ss.map (·.type)).eraseDups
  let table := types.foldl (fun bs t => bs ++ sectionName t ++ [0]) strtab
  let off (t : Nat) : Nat := ((types.takeWhile (· != t)).map (fun u => (sectionName u).length + 1)).foldl (· + ·) strtab.length
  ss.map (fun s => if s.type = 9 then { s with name := off 9, size := table.length, bytes := table } else { s with name := off s.type })

/-- The file (R274, R275): header, contents, section table. -/
def Tof.bytes (t : Tof) : List Byte :=
  let (body, offs) := placeContents (List.replicate 64 0) t.sects
  let body := padTo body 8
  let head := tofMagic ++ bytesOfNat 2 1 ++ bytesOfNat 2 (if t.image then 1 else 0) ++ bytesOfNat 4 t.sects.length ++
    bytesOfNat 8 body.length ++ bytesOfNat 8 t.base ++ List.replicate 32 0
  head ++ body.drop 64 ++ (List.zipWith sectionBytes t.sects offs).flatten

/-! ### The records of a file -/

/-- The section of a type, with its index. -/
def Tof.find (t : Tof) (type : Nat) : Option (Nat × Section) :=
  match t.sects.findIdx? (fun s => s.type == type), t.sects.find? (fun s => s.type == type) with
  | some i, some s => some (i, s)
  | _, _ => none
/-- The contents of the section of a type, nothing if there is none. -/
def Tof.contents (t : Tof) (type : Nat) : List Byte := match t.find type with | some (_, s) => s.bytes | none => []

/-- Cut bytes into records of `n` bytes. -/
def chunks (n : Nat) (bs : List Byte) : List (List Byte) :=
  (List.range (bs.length / n)).map (fun i => (bs.drop (i * n)).take n)

/-- The name at an offset of STRTAB. -/
def Tof.nameAt (t : Tof) (off : Nat) : Name := ((t.contents 0x09).drop off).takeWhile (· != 0)

/-- The symbols of a file (R277), record 0 left out: symbol `i` is at `i - 1`. -/
def Tof.symbols (t : Tof) : Except TofError (List Symbol) := do
  let rs := chunks 24 (t.contents 0x08)
  if (t.contents 0x08).length % 24 ≠ 0 then throw .symbol
  match rs with
  | [] => return []
  | r0 :: rest =>
    if natOfBytes r0 ≠ 0 then throw .symbol
    rest.mapM (fun r => do
      let w0 := word64At r 0
      let kind := bits w0 15 8
      let bind := bits w0 7 0
      let sect := bits w0 31 16
      if 2 < kind ∨ 1 < bind ∨ numAt r 16 8 ≠ 0 ∨ (sect = 0 ∧ bind = 0) then throw .symbol
      else if sect ≠ 0 ∧ sect ≠ 0xFFFF ∧ t.sects.length ≤ sect then throw .symbol
      else return (⟨t.nameAt (bits w0 63 32), sect, kind, bind == 1, word64At r 8⟩ : Symbol))

/-- The block records of an object (R276). -/
def Tof.blocks (t : Tof) : Except TofError (List BlockRec) := do
  let bs := t.contents 0x03
  if bs.length % 16 ≠ 0 then throw .block
  (chunks 16 bs).mapM (fun r => do
    let w0 := word64At r 0
    let off := numAt r 8 8
    let n := bits w0 9 0
    if bits w0 31 10 ≠ 0 ∨ off % 16 ≠ 0 ∨ (t.contents 0x02).length < off + 12 * (n + 1) then throw .block
    else return (⟨bits w0 63 32, n, off⟩ : BlockRec))

/-- The relocation records for a target section (R278). -/
def Tof.relocs (t : Tof) (target : Nat) : Except TofError (List Reloc) := do
  let bs := match t.sects.find? (fun s => s.type == 0x0A && s.link == target) with | some s => s.bytes | none => []
  if bs.length % 24 ≠ 0 then throw .relocation
  (chunks 24 bs).mapM (fun r =>
    let w1 := word64At r 8
    if bits w1 23 0 ≠ 0 then throw .relocation
    else return (⟨numAt r 0 8, bits w1 63 32, bits w1 31 24, word64At r 16⟩ : Reloc))

/-- The liveness records of an object, in order (Table 5 of R208): 40 bytes and 8 for each range. -/
def liveRecords : Nat → List Byte → Except TofError (List (List Byte))
  | 0, _ => .error .liveness
  | fuel + 1, bs =>
    if bs.isEmpty then .ok []
    else
      let n := 40 + 8 * bits (word64At bs 32) 15 8
      if bs.length < n then .error .liveness
      else match liveRecords fuel (bs.drop n) with
        | .ok rs => .ok (bs.take n :: rs)
        | .error e => .error e

/-! ### Layout and symbols of a link (R280) -/

/-- A section of an object at its place in the image. -/
structure Placed where
  obj  : Nat
  idx  : Nat
  addr : Nat
  sec  : Section
  deriving DecidableEq, Repr

/-- The sections of one type, in command-line order, each aligned, from an address on; and the end. -/
def placeType (addr : Nat) : List (Nat × Nat × Section) → List Placed × Nat
  | [] => ([], addr)
  | (o, i, s) :: rest =>
    let a := alignUp addr (2 ^ s.align)
    let (ps, e) := placeType (a + s.size) rest
    (⟨o, i, a, s⟩ :: ps, e)

/-- The sections of a type, with their objects. -/
def ofType (objs : List Tof) (type : Nat) : List (Nat × Nat × Section) :=
  objs.zipIdx.filterMap (fun (t, o) => (t.find type).map (fun (i, s) => (o, i, s)))

/-- Where each type starts, and the sections of types 1, 2 and 5 to 7 at their places: `dir` is the size of the
directory and `live` that of the liveness table. A type whose sections are all empty takes no room; an empty section of
another type stands at its place among the others. -/
def layout (objs : List Tof) (dir live : Nat) : Nat → List Nat → List (Nat × Nat) × List Placed
  | _, [] => ([], [])
  | addr, type :: types =>
    let a := alignUp addr 65536
    let (ps, e) :=
      if type = 3 then ([], a + dir) else if type = 4 then ([], a + live)
      else placeType a (ofType objs type)
    let empty := if type = 3 ∨ type = 4 then e == a else ps.all (fun p => p.sec.size == 0)
    let (ts, qs) := layout objs dir live (if empty then addr else e) types
    ((type, a) :: ts, ps ++ qs)

/-- A link in progress: places, starts of the types, symbols by object, number of each object's first block. -/
structure LinkMap where
  objs   : List Tof
  starts : List (Nat × Nat)
  placed : List Placed
  syms   : List (List Symbol)
  first  : List Nat
  deriving DecidableEq, Repr

/-- Where a type starts. -/
def LinkMap.start (m : LinkMap) (type : Nat) : Nat := ((m.starts.find? (fun x => x.1 == type)).map (·.2)).getD 0

/-- "__lbdir": the VA of the directory. -/
def lbdirName : Name := [0x5F, 0x5F, 0x6C, 0x62, 0x64, 0x69, 0x72]

/-- The place of a section of an object; one of a type that the linker rewrites stands at the start of its type. -/
def LinkMap.place (m : LinkMap) (obj idx : Nat) : Nat :=
  match m.placed.find? (fun p => p.obj == obj && p.idx == idx) with
  | some p => p.addr
  | none => match (m.objs[obj]?).bind (fun t => t.sects[idx]?) with | some s => m.start s.type | none => 0

/-- The image value of a symbol that its own object defines. -/
def LinkMap.defined (m : LinkMap) (obj : Nat) (s : Symbol) : Word :=
  match s.kind with
  | 0 => if s.sect = 0xFFFF then s.value else BitVec.ofNat 64 (m.place obj s.sect) + s.value
  | 1 => BitVec.ofNat 64 ((m.first[obj]?).getD 0) + s.value
  | _ => s.value

/-- The global definitions of a link: the object, the symbol. -/
def LinkMap.globals (m : LinkMap) : List (Nat × Symbol) :=
  (m.syms.zipIdx.map (fun (ss, o) => (ss.filter (fun s => s.isGlobal && s.sect != 0)).map (fun s => (o, s)))).flatten

/-- The image value of a symbol, and whether it is a block (R278, R280). -/
def LinkMap.value (m : LinkMap) (obj : Nat) (s : Symbol) : Except TofError (Word × Bool) :=
  if s.sect ≠ 0 then .ok (m.defined obj s, s.kind == 1)
  else if s.name = lbdirName then .ok (BitVec.ofNat 64 (m.start 3), false)
  else match m.globals.find? (fun g => g.2.name == s.name) with
    | some (o, g) => .ok (m.defined o g, g.kind == 1)
    | none => .error .undefined

/-- Names that two globals define. -/
def dupNames : List Name → Bool
  | [] => false
  | n :: ns => ns.contains n || dupNames ns

/-! ### Relocation (R278) -/

/-- The field of a relocation type: its lowest bit from the place on, and its width (Table 8). -/
def relocField : Nat → Option (Nat × Nat)
  | 0x01 | 0x02 => some (0, 64)
  | 0x03 => some (2, 55)
  | 0x04 => some (4, 53)
  | 0x05 => some (6, 51)
  | 0x06 => some (0, 24)
  | 0x07 => some (0, 10)
  | 0x08 | 0x09 | 0x0B => some (0, 32)
  | 0x0A => some (0, 16)
  | _ => none

/-- What the field of a relocation takes: `v` is S, `block` whether its symbol is a block, `p` the VA of the place. -/
def relocValue (r : Reloc) (v : Word) (block : Bool) (p : Word) : Option Nat :=
  let x := v + r.addend
  let d := (x - p).toInt
  let va (low : Nat) : Option Nat := if bits x 63 57 = 0 ∧ x.toNat % 2 ^ low = 0 then some (x.toNat / 2 ^ low) else none
  let jump (n : Nat) : Option Nat :=
    if d % 4 = 0 ∧ -(2 ^ (n - 1) : Int) ≤ d / 4 ∧ d / 4 < 2 ^ (n - 1) then some (BitVec.ofInt n (d / 4)).toNat else none
  match r.type with
  | 0x01 => some x.toNat
  | 0x02 => va 0
  | 0x03 => va 2
  | 0x04 => va 4
  | 0x05 => va 6
  | 0x06 => jump 24
  | 0x07 => jump 10
  | 0x08 => some (bits x 31 0)
  | 0x09 => some (bits x 63 32)
  | 0x0A => if block ∧ r.addend = 0 then some v.toNat else none
  | 0x0B => if -(2 ^ 31 : Int) ≤ x.toInt ∧ x.toInt < 2 ^ 31 then some (bits x 31 0) else none
  | _ => none

/-- The fields of the records of one section do not overlap. -/
def fieldsApart : List Reloc → Bool
  | [] => true
  | r :: rs =>
    let span (r : Reloc) : Nat × Nat := match relocField r.type with
      | some (lo, n) => (r.place * 8 + lo, r.place * 8 + lo + n)
      | none => (0, 0)
    rs.all (fun q => decide ((span r).2 ≤ (span q).1) || decide ((span q).2 ≤ (span r).1)) && fieldsApart rs

/-- Write one field, which must hold 0 in the object. -/
def patch (bs : List Byte) (place lo n v : Nat) : Except TofError (List Byte) :=
  let len := (lo + n + 7) / 8
  let old := numAt bs place len
  if bs.length < place + len ∨ old / 2 ^ lo % 2 ^ n ≠ 0 ∨ 2 ^ n ≤ v then .error .relocation
  else .ok (bs.take place ++ bytesOfNat len (old + v * 2 ^ lo) ++ bs.drop (place + len))

/-- Apply the relocations of a section of an object, whose place in the image is `addr`. -/
def LinkMap.relocate (m : LinkMap) (obj idx addr : Nat) (bs : List Byte) : Except TofError (List Byte) := do
  match m.objs[obj]? with
  | none => return bs
  | some t =>
    let rs ← t.relocs idx
    if !fieldsApart rs then throw .relocation
    rs.foldlM (fun bs r => do
      match relocField r.type, ((m.syms[obj]?).getD [])[r.sym - 1]? with
      | some (lo, n), some s =>
        if r.sym = 0 then throw .relocation
        let (v, block) ← m.value obj s
        match relocValue r v block (BitVec.ofNat 64 (addr + r.place)) with
        | some x => patch bs r.place lo n x
        | none => throw .relocation
      | _, _ => throw .relocation) bs

/-! ### What the linker makes (R280 to R283) -/

/-- The image bytes of a type: its sections at their places, zero bytes between them. -/
def joinPlaced (start : Nat) : List (Nat × List Byte) → List Byte → List Byte
  | [], acc => acc
  | (a, bs) :: rest, acc => joinPlaced start rest (acc ++ List.replicate (a - start - acc.length) 0 ++ bs)

/-- The lane block directory (R281): `bs` gives START and LENM1 of each block. -/
def directory (bs : List (Nat × Nat)) (livetab : Nat) : List Byte :=
  bytesOfNat 8 bs.length ++ bytesOfNat 8 livetab ++ List.replicate 48 0 ++
    (bs.map (fun (va, n) => bytesOfNat 8 (n * 2 ^ 54 + va / 16))).flatten

/-- The liveness table (R282, R208) from relocated records in ascending SPC, at an address. -/
def livenessTable (start : Nat) (rs : List (List Byte)) : List Byte :=
  if rs.isEmpty then []
  else
    let n := rs.length
    let index := rs.foldl (fun (acc : List Byte × Nat) r =>
      (acc.1 ++ r.take 8 ++ bytesOfNat 8 acc.2, acc.2 + r.length)) ([], start + 16 + 16 * n)
    bytesOfNat 8 n ++ List.replicate 8 0 ++ index.1 ++ rs.flatten

/-- Whether a requirement record is well formed (Table 9). -/
def goodReq (r : Word × Word) : Bool :=
  match bits r.1 63 56 with
  | 0 => bits r.1 55 48 == 0 && bits r.1 15 0 == 0 && r.2 == 0
  | 1 => bits r.1 55 48 == 0 && bits r.1 7 0 == 0
  | 2 => bits r.1 55 48 == 0 && bits r.1 32 0 == 0 && bits r.2 63 57 == 0 && bits r.2 1 0 == 0
  | _ => false

/-- Add a requirement to those merged (R283): the highest MINOR, the OR of the masks. -/
def mergeReq (r : Word × Word) : List (Word × Word) → List (Word × Word)
  | [] => [r]
  | q :: qs =>
    let minorOff : Word := ~~~(maskBits 23 16)
    if bits r.1 63 56 < 2 ∧ r.1 &&& minorOff = q.1 &&& minorOff then
      ((q.1 &&& minorOff) ||| BitVec.ofNat 64 (max (bits r.1 23 16) (bits q.1 23 16) * 2 ^ 16), q.2 ||| r.2) :: qs
    else q :: mergeReq r qs

/-- The task records that may stand in bytes at an address, 64-byte aligned, with an ENTRY; one whose rsv fields are 0
counts whatever its other fields hold (log 66). -/
def tasksIn (addr : Nat) (bs : List Byte) (entry : Word) : List (List Word) :=
  ((chunks 64 (bs.drop (alignUp addr 64 - addr))).map (wordsOfBytes 8)).filter (fun t => !taskRsv t && taskEntry t == entry)

/-- Objects joined into an image at a base (R280 to R283). -/
def link (base : Nat) (objs : List Tof) : Except TofError Tof := do
  if base % 65536 ≠ 0 ∨ windowOf base ≠ .global ∨ objs.any (·.image) then throw .base
  let syms ← objs.mapM Tof.symbols
  let blocks ← objs.mapM Tof.blocks
  let lives ← objs.mapM (fun t => liveRecords ((t.contents 4).length + 1) (t.contents 4))
  let nBlocks := blocks.flatten.length
  if 65536 < nBlocks then throw .block
  let nLive := lives.flatten.length
  let liveSize := if nLive = 0 then 0 else 16 + 16 * nLive + lives.flatten.flatten.length
  let (starts, placed) := layout objs (64 + 8 * nBlocks) liveSize base [1, 2, 3, 4, 5, 6, 7]
  let first := (blocks.foldl (fun (acc : List Nat × Nat) b => (acc.1 ++ [acc.2], acc.2 + b.length)) ([], 0)).1
  let m : LinkMap := ⟨objs, starts, placed, syms, first⟩
  if dupNames (m.globals.map (·.2.name)) ∨ m.globals.any (fun g => g.2.name == lbdirName) then throw .duplicate
  let _ ← objs.zipIdx.mapM (fun (_, o) => ((syms[o]?).getD []).mapM (fun s => m.value o s))
  let done ← placed.mapM (fun p => do
    let bs ← m.relocate p.obj p.idx p.addr p.sec.bytes
    return (p, bs))
  -- records for a target that is not placed: applied for their checks, and refused where the image has no such place (log 87)
  let _ ← objs.zipIdx.mapM (fun (t, o) => (t.sects.filter (fun r => r.type == 0x0A)).mapM (fun r =>
    match t.sects[r.link]? with
    | some x =>
      if [1, 2, 4, 5, 6, 7, 0x0B].contains x.type then m.relocate o r.link (m.place o r.link) x.bytes
      else if r.bytes.isEmpty then pure [] else throw .relocation
    | none => throw .relocation))
  let body (type : Nat) : List Byte :=
    joinPlaced (m.start type) ((done.filter (fun x => x.1.sec.type == type && x.1.sec.size != 0)).map (fun x => (x.1.addr, x.2))) []
  -- the directory
  let entries := (blocks.zipIdx.map (fun (bs, o) =>
    match (objs[o]?).bind (fun t => t.find 2) with
    | some (i, _) => bs.map (fun b => (m.place o i + b.off, b.lenm1))
    | none => [])).flatten
  let livetab := if nLive = 0 then 0 else m.start 4
  -- the liveness table
  let liveDone ← objs.zipIdx.mapM (fun (t, o) =>
    match t.find 4 with
    | none => pure []
    | some (i, s) => do
      let bs ← m.relocate o i (m.start 4) s.bytes
      liveRecords (bs.length + 1) bs)
  let recs := sortBy (fun a b => decide (numAt a 0 8 ≤ numAt b 0 8)) liveDone.flatten
  if (recs.zip (recs.drop 1)).any (fun (a, b) => numAt a 0 8 == numAt b 0 8) then throw .liveness
  -- requirements
  let reqs ← objs.zipIdx.mapM (fun (t, o) =>
    match t.find 0x0B with
    | none => pure []
    | some (i, s) => do
      let bs ← m.relocate o i 0 s.bytes
      if bs.length % 16 ≠ 0 then throw .requirement
      return (chunks 16 bs).map (fun r => (word64At r 0, word64At r 8)))
  if reqs.flatten.any (fun r => !goodReq r) then throw .requirement
  let merged := reqs.flatten.foldl (fun acc r => mergeReq r acc) []
  let short := merged.any (fun r => bits r.1 63 56 == 2 &&
    ([1, 5, 6].map (fun k => tasksIn (m.start k) (body k) r.2)).flatten.any (fun t =>
      decide (taskVgrp t < bits r.1 38 33) || decide (taskCspu t < bits r.1 47 39)))
  if short then throw .requirement
  -- the image
  let bssEnd := ((placed.filter (fun p => p.sec.type == 7 && p.sec.size != 0)).map (fun p => p.addr + p.sec.size)).foldl max (m.start 7)
  let parts : List (Nat × List Byte) := [(1, body 1), (2, body 2), (3, directory entries livetab),
    (4, livenessTable (m.start 4) recs), (5, body 5), (6, body 6)]
  let loaded : List Section := (parts.map (fun x => (⟨0, x.1, 16, 0, x.2.length, m.start x.1, x.2⟩ : Section)) ++
    [(⟨0, 7, 16, 0, bssEnd - m.start 7, m.start 7, []⟩ : Section)]).filter (fun s => s.size != 0)
  let sectOf (type : Nat) : Nat := match loaded.findIdx? (fun s => s.type == type) with | some i => i + 1 | none => 0xFFFF
  let names := m.globals.map (fun g => g.2.name)
  let strtab := names.foldl (fun bs n => bs ++ n ++ [0]) [0]
  let offs := (names.foldl (fun (acc : List Nat × Nat) n => (acc.1 ++ [acc.2], acc.2 + n.length + 1)) ([], 1)).1
  let symtab := List.replicate 24 0 ++ (List.zipWith (fun (g : Nat × Symbol) off =>
    let sect := if g.2.kind = 2 ∨ g.2.sect = 0xFFFF then 0xFFFF
      else sectOf (if g.2.kind = 1 then 3 else (((objs[g.1]?).bind (fun t => t.sects[g.2.sect]?)).map (·.type)).getD 0)
    bytesOfNat 8 (off * 2 ^ 32 + sect * 2 ^ 16 + g.2.kind * 2 ^ 8 + 1) ++ bytesOfWord (m.defined g.1 g.2) ++
      List.replicate 8 0) m.globals offs).flatten
  let req := (merged.map (fun r => bytesOfWord r.1 ++ bytesOfWord r.2)).flatten
  return ⟨true, base, ⟨0, 0, 0, 0, 0, 0, []⟩ :: nameSections strtab (loaded ++
    [⟨0, 8, 3, 0, symtab.length, 0, symtab⟩, ⟨0, 9, 0, 0, 0, 0, []⟩] ++
    (if req.isEmpty then [] else [⟨0, 0x0B, 3, 0, req.length, 0, req⟩]))⟩

/-! ### The loader (R275, R283) -/

/-- What the loader maps: an address, the bytes, and whether the pages carry X, RD and W (Table 7). -/
structure Mapping where
  addr  : Nat
  size  : Nat
  bytes : List Byte
  x     : Bool
  rd    : Bool
  w     : Bool
  deriving DecidableEq, Repr

/-- The mapping of a section, if it has one. -/
def Section.mapping (s : Section) : Option Mapping :=
  match s.type with
  | 1 | 2 => some ⟨s.addr, s.size, s.bytes, true, true, false⟩
  | 3 | 4 | 5 => some ⟨s.addr, s.size, s.bytes, false, true, false⟩
  | 6 | 7 => some ⟨s.addr, s.size, s.bytes, false, true, true⟩
  | _ => none

/-- Whether the Light List meets a requirement (R283): the records of this part are of version 1.0. -/
def State.meets (s : State) (r : Word × Word) : Bool :=
  match bits r.1 63 56 with
  | 0 => s.lightRecords.any (fun l => l.1 == bits r.1 47 32) && bits r.1 31 24 == 1 && bits r.1 23 16 == 0
  | 1 => s.lightRecords.any (fun l => l.1 == bits r.1 47 32 &&
      (match l.2[bits r.1 15 8]? with | some v => BitVec.ofNat 64 v &&& r.2 == r.2 | none => r.2 == 0)) &&
      bits r.1 31 24 == 1 && bits r.1 23 16 == 0
  | _ => true

/-- What the loader maps of an image file, or why it refuses it. -/
def State.loadImage (s : State) (file : List Byte) : Except TofError (List Mapping) := do
  let t ← readTof file
  if !t.image then throw .header
  let reqs := (chunks 16 (t.contents 0x0B)).map (fun r => (word64At r 0, word64At r 8))
  if (t.contents 0x0B).length % 16 ≠ 0 ∨ reqs.any (fun r => !goodReq r) then throw .requirement
  if reqs.any (fun r => !s.meets r) then throw .unmet
  return t.sects.filterMap Section.mapping

end Sys2Proof.Machine
end

