-- ==== Sys2Proof/Machine/Asm.lean ====
section
/-!
DEFINITION. The assembler (R260 to R273) from parsed statements to an object: expressions, the spelling of every scalar and
lane instruction, the forms that an immediate takes, and the directives. Its words are formed from Tables 1, 2, 5, 8 and 12 of
the encodings, and a word that its own decoder or the checks of R245 and R257 refuse is rejected.
-/
namespace Sys2Proof.Machine

/-- Why a statement is rejected. -/
inductive AsmError where
  /-- an expression of a form that R260 does not allow, a division by zero, a shift amount above 63 -/
  | expr
  /-- a value out of the range of its field -/
  | range
  /-- an operand of the wrong kind, or the wrong number of operands -/
  | operand
  /-- a suffix that the form does not take, or takes and lacks -/
  | suffix
  /-- an unknown mnemonic or directive -/
  | mnemonic
  /-- a name defined twice, or one that belongs to the linker or to the language -/
  | name
  /-- a statement in a section that does not accept it, or a block rule of R268 -/
  | place
  /-- a .live rule of R269 -/
  | live
  /-- a record that would fail R100 or R187 -/
  | record
  /-- text that is no statement -/
  | text
  deriving DecidableEq, Repr

/-! ### Expressions (R260) -/

/-- The two-operand operators of Table 1. -/
inductive BinOp where
  | mul | div | rem | add | sub | shl | shr | and | xor | or
  deriving DecidableEq, Repr

/-- An expression; `hex` says that a number was written in hexadecimal. -/
inductive Expr where
  | num (v : Nat) (hex : Bool)
  | name (n : String)
  /-- the current location -/
  | here
  | neg (e : Expr)
  | not (e : Expr)
  | bin (op : BinOp) (a b : Expr)
  | lo32 (e : Expr)
  | hi32 (e : Expr)
  deriving DecidableEq, Repr

/-- What a name stands for: a value, a place in a section of the file, a block. -/
inductive NameDef where
  | abs (v : Word)
  | loc (sect off : Nat)
  | block (i : Nat)
  deriving DecidableEq, Repr

/-- A value: absolute, relocatable (a name, or the place it was read at, and an addend), or half of one. -/
inductive Val where
  | abs (v : Word)
  | rel (n : String) (at_ : Option (Nat × Nat)) (add : Word)
  | lo (n : String) (at_ : Option (Nat × Nat)) (add : Word)
  | hi (n : String) (at_ : Option (Nat × Nat)) (add : Word)
  deriving DecidableEq, Repr

/-- The names known, and the current location. -/
structure Env where
  defs : List (String × NameDef)
  sect : Nat
  off  : Nat
  deriving DecidableEq, Repr

/-- What a name stands for, if it is known. -/
def Env.find (v : Env) (n : String) : Option NameDef := (v.defs.find? (fun d => d.1 == n)).map (·.2)

/-- An operator on absolute values, in 64-bit two's complement. -/
def BinOp.eval (op : BinOp) (a b : Word) : Except AsmError Word :=
  match op with
  | .mul => .ok (a * b)
  | .div => if b = 0 then .error .expr else .ok (BitVec.ofInt 64 (a.toInt.tdiv b.toInt))
  | .rem => if b = 0 then .error .expr else .ok (BitVec.ofInt 64 (a.toInt.tmod b.toInt))
  | .add => .ok (a + b)
  | .sub => .ok (a - b)
  | .shl => if 63 < b.toNat then .error .expr else .ok (a <<< b.toNat)
  | .shr => if 63 < b.toNat then .error .expr else .ok (a >>> b.toNat)
  | .and => .ok (a &&& b)
  | .xor => .ok (a ^^^ b)
  | .or => .ok (a ||| b)

/-- The special registers by name (Table 6 of the encodings). -/
def specialNames : List (String × Nat) :=
  [("SPC", 0), ("LPC", 1), ("FRAG", 2), ("EMASKLO", 3), ("EMASKHI", 4), ("FMT", 5), ("WID", 6), ("GANG", 7), ("GRID", 8), ("JOB", 9),
   ("CLK", 0xA), ("VCOUNT", 0xB), ("CSPBASE", 0xC), ("CSPLEN", 0xD), ("CAPBASE", 0xE), ("HTBASE", 0xF), ("HTLEN", 0x10),
   ("TCAUSE", 0x20), ("TVAL", 0x21), ("TSPC", 0x22), ("TLPC", 0x23), ("LFMASKLO", 0x24), ("LFMASKHI", 0x25)] ++
  [("CVID", 0x30), ("CVSELF", 0x31), ("CVMEMB", 0x32), ("CVSLIP", 0x33), ("CVPAT", 0x34), ("CVPOS", 0x35), ("CVSTAT", 0x36),
   ("TREESEL", 0x40), ("TRTIMEOUT", 0x41), ("TVEC", 0x100), ("JOBKEY", 0x101), ("BUDCLU", 0x102), ("BUDBW", 0x103),
   ("BUDPOW", 0x104), ("WDPERIOD", 0x105)]

/-- Whether a name is a special register's, which no other name may be (R259). -/
def isSpecial (n : String) : Bool := specialNames.any (fun x => x.1 == n.toUpper)

/-- The value of an expression. A name that nothing defines is relocatable (R277 makes it an undefined symbol). -/
def Env.eval (v : Env) : Expr → Except AsmError Val
  | .num n _ => .ok (.abs (BitVec.ofNat 64 n))
  | .name n =>
    if isSpecial n then .error .expr
    else
      match v.find n with
      | some (.abs x) => .ok (.abs x)
      | some (.loc s o) => .ok (.rel n (some (s, o)) 0)
      | some (.block _) => .error .expr
      | none => .ok (.rel n none 0)
  | .here => .ok (.rel "" (some (v.sect, v.off)) 0)
  | .neg e => do match ← v.eval e with | .abs x => return .abs (-x) | _ => throw .expr
  | .not e => do match ← v.eval e with | .abs x => return .abs (~~~x) | _ => throw .expr
  | .bin op a b => do
    match ← v.eval a, ← v.eval b with
    | .abs x, .abs y => return .abs (← op.eval x y)
    | .rel n p x, .abs y =>
      (match op with | .add => return .rel n p (x + y) | .sub => return .rel n p (x - y) | _ => throw .expr)
    | .rel _ (some (s, o)) x, .rel _ (some (t, q)) y =>
      if op = .sub ∧ s = t ∧ x = 0 ∧ y = 0 then return .abs (BitVec.ofNat 64 o - BitVec.ofNat 64 q) else throw .expr
    | _, _ => throw .expr
  | .lo32 e => do
    match ← v.eval e with
    | .abs x => return .abs (BitVec.ofNat 64 (bits x 31 0))
    | .rel n p x => return .lo n p x
    | _ => throw .expr
  | .hi32 e => do
    match ← v.eval e with
    | .abs x => return .abs (BitVec.ofNat 64 (bits x 63 32))
    | .rel n p x => return .hi n p x
    | _ => throw .expr

/-! ### Statements -/

/-- A number with a decimal point or an exponent: (−1)^neg × mant × 10^exp. -/
structure Dec where
  neg  : Bool
  mant : Nat
  exp  : Int
  deriving DecidableEq, Repr

/-- Its value, which rounds as the exact number does. -/
def Dec.val (d : Dec) : FVal :=
  if 0 ≤ d.exp then .fin d.neg (d.mant * 10 ^ d.exp.toNat) 0
  else FVal.div (.fin d.neg d.mant 0) (.fin false (10 ^ (-d.exp).toNat) 0)

/-- The index of a lane memory operand: a vector register, or a number (R264). -/
inductive Index where
  | v (n : Nat)
  | num (e : Expr)
  deriving DecidableEq, Repr

/-- An operand (R262 to R265). A handler register h(n) is scalar register 192 + n. -/
inductive Opnd where
  | s (n : Nat)
  | v (n : Nat)
  | p (neg : Bool) (n : Nat)
  | slot (k : Nat)
  | val (e : Expr)
  | dec (d : Dec)
  | smem (a : Nat) (e : Option Expr)
  | lmem (k : Nat) (x : Option Index) (scale : Option Expr) (e : Option Expr)
  deriving DecidableEq, Repr

/-- An instruction as written: mnemonic and suffixes in upper and lower case as the tables have them, guard, operands. -/
structure Insn where
  mnem  : String
  sfx   : List String
  guard : Option (Bool × Nat)
  ops   : List Opnd
  deriving DecidableEq, Repr

/-- An item of a .live line (R269). -/
inductive LiveItem where
  | s (lo hi : Nat)
  | v (lo hi : Nat)
  | p (lo hi : Nat)
  | csp (off lines : Expr)
  deriving DecidableEq, Repr

/-- A directive (Table 3). -/
inductive Directive where
  /-- .scode 1, .rodata 5, .data 6, .bss 7 -/
  | sect (type : Nat)
  | align (e : Expr)
  /-- .byte 1, .half 2, .word 4, .dword 8 -/
  | data (size : Nat) (es : List Expr)
  | f32 (ns : List (Sum Expr Dec))
  | ascii (bs : List Byte)
  | space (e : Expr)
  | equ (n : String) (e : Expr)
  | globl (ns : List String)
  | block (n : String)
  | endblock
  | live (items : List LiveItem)
  | layout (kw : List (String × List Expr))
  | scales (nvec nblk : Expr) (vs : List Expr)
  | task (kw : List (String × List Expr))
  | resources (n : String) (vgrp csp : Expr)
  | needcap (id major minor : Expr) (mask : Option (Expr × Expr))
  deriving DecidableEq, Repr

/-- A line: label, then instruction or directive (R259). -/
structure Line where
  label : Option String
  insn  : Option Insn
  dir   : Option Directive
  deriving DecidableEq, Repr

/-! ### Suffixes (R261, Table 2) -/

/-- A group of suffixes with what each puts into its field. -/
abbrev Group2 := List (String × Nat)

/-- Operation. -/
def gAop : Group2 := [("add", 1), ("min", 2), ("max", 3), ("and", 4), ("or", 5), ("xor", 6), ("exch", 7), ("cas", 8)]
/-- Condition of BRC. -/
def gBrc : Group2 := [("eqz", 0), ("nez", 1), ("ltz", 2), ("gez", 3), ("gtz", 4), ("lez", 5), ("bs0", 6), ("bs1", 7), ("bs2", 8),
  ("bc0", 9), ("bc1", 10), ("bc2", 11)]
/-- Condition of VCMP and VFCMP. -/
def gCond : Group2 := [("eq", 0), ("ne", 1), ("lt", 2), ("le", 3), ("gt", 4), ("ge", 5), ("un", 6), ("ord", 7)]
/-- Hint of BRM. -/
def gHint : Group2 := [("h0", 0), ("h1", 1), ("h2", 2), ("h3", 3)]
/-- Side. -/
def gSide : Group2 := [("n", 0), ("e", 1), ("s", 2), ("w", 3)]
/-- Reduction. -/
def gRed : Group2 := [("add", 0), ("min", 1), ("max", 2), ("and", 3), ("or", 4), ("xor", 5)]
/-- Half of VMASK. -/
def gHalf : Group2 := [("lo", 0), ("hi", 1)]
/-- Part of VUNPACK. -/
def gPart : Group2 := [("p0", 0), ("p1", 1), ("p2", 2), ("p3", 3)]
/-- Segment. -/
def gSeg : Group2 := [("seg0", 0), ("seg1", 1), ("seg2", 2), ("seg3", 3), ("seg4", 4), ("seg5", 5), ("seg6", 6), ("seg7", 7)]
/-- Type (Table 9 of the encodings). -/
def gType : Group2 := [("b32", 0), ("i8", 1), ("i16", 2), ("i32", 3), ("i64", 4), ("n8", 5), ("n16", 6), ("n32", 7), ("n64", 8),
  ("f32", 9), ("f16", 10), ("bf16", 11), ("tf8", 12), ("tf6", 13)]
/-- Type of a scalar memory form (Table 2 of the encodings). -/
def gMem : Group2 := [("n8", 0), ("n16", 1), ("n32", 2), ("n64", 3), ("i8", 4), ("i16", 5), ("i32", 6)]
/-- Order. -/
def gOrder : Group2 := [("acq", 1), ("rel", 2), ("ar", 3)]
/-- Scope. -/
def gScope : Group2 := [("wave", 0), ("gang", 1), ("die", 2), ("dev", 3), ("sys", 4)]
/-- Convoy tag, and the flag of BARINIT. -/
def gCv : Group2 := [("cv", 1)]
def gExt : Group2 := [("ext", 1)]

/-- Read suffixes by groups in order; a group left out answers none. -/
def takeSuffixes : List Group2 → List String → Except AsmError (List (Option Nat))
  | [], [] => .ok []
  | [], _ :: _ => .error .suffix
  | _ :: gs, [] => do return none :: (← takeSuffixes gs [])
  | g :: gs, x :: xs =>
    match g.find? (fun e => e.1 == x) with
    | some e => do return some e.2 :: (← takeSuffixes gs xs)
    | none => do return none :: (← takeSuffixes gs (x :: xs))

/-- The KIND of FCVT from its two types (R261). -/
def fcvtKind : List String → Option Nat
  | ["f32", "i64"] => some 0
  | ["f32", "n64"] => some 1
  | ["i64", "f32"] => some 2
  | ["n64", "f32"] => some 3
  | ["i32", "f32"] => some 4
  | ["n32", "f32"] => some 5
  | ["f16", "f32"] => some 6
  | ["f32", "f16"] => some 7
  | ["bf16", "f32"] => some 8
  | ["f32", "bf16"] => some 9
  | _ => none

/-! ### What an instruction emits -/

/-- A relocation still by name: where its field stands, what it is against. -/
structure NamedReloc where
  place : Nat
  type  : Nat
  sym   : String
  at_   : Option (Nat × Nat)
  /-- an absolute value in the place of a symbol -/
  abs   : Option Word
  add   : Word
  deriving DecidableEq, Repr

/-- Bytes, with relocations whose places count from their first byte. -/
structure Emit where
  bytes  : List Byte
  relocs : List NamedReloc
  deriving DecidableEq, Repr

/-- A word with nothing to relocate. -/
def Emit.word (w : Nat) : Emit := ⟨bytesOfNat 4 w, []⟩

/-- A signed value in a range. -/
def within (lo hi : Int) (v : Word) : Bool := decide (lo ≤ v.toInt) && decide (v.toInt ≤ hi)

/-- The two ways an operand is read: with the names defined so far, which choose the form, and with all of the file's. -/
structure Two where
  sofar : Env
  full  : Env
  /-- the first pass, in which a value that is not known yet stands as 0 -/
  first : Bool
  deriving DecidableEq, Repr

/-- An absolute value in a range, from all the names. -/
def Two.int (v : Two) (lo hi : Int) (e : Expr) : Except AsmError Word := do
  match ← v.full.eval e with
  | .abs x => if within lo hi x then return x else throw .range
  | _ => throw .expr

/-- What the names so far say of an expression: its absolute value, if it has one. -/
def Two.known (v : Two) (e : Expr) : Option Word := match v.sofar.eval e with | .ok (.abs x) => some x | _ => none

/-- A literal word (R263): an absolute value, or half of a relocatable one. -/
def Two.literal (v : Two) (halves : Bool) (place : Nat) (e : Expr) : Except AsmError Emit :=
  let zero : Emit := ⟨bytesOfNat 4 0, []⟩
  match v.full.eval e with
  | .ok (.abs x) =>
    if within (-(2 ^ 31)) (2 ^ 31 - 1) x then .ok ⟨bytesOfNat 4 (bits x 31 0), []⟩ else if v.first then .ok zero else .error .range
  | .ok (.lo n p x) => .ok { zero with relocs := [⟨place, 0x08, n, p, none, x⟩] }
  | .ok (.hi n p x) => if halves then .ok { zero with relocs := [⟨place, 0x09, n, p, none, x⟩] } else .error .expr
  | _ => if v.first then .ok zero else .error .expr

/-- A word and the word after it. -/
def Emit.and (a b : Emit) : Emit := ⟨a.bytes ++ b.bytes, a.relocs ++ b.relocs⟩

/-- A branch word (R263): a target in the same section of the file is resolved; any other is relocated. -/
def Two.branch (v : Two) (w type n : Nat) (e : Expr) : Except AsmError Emit := do
  match ← v.full.eval e with
  | .rel s p x =>
    match p with
    | some (1, o) =>
      let d := Int.ofNat o + x.toInt - Int.ofNat v.full.off
      if d % 4 = 0 ∧ -(2 ^ (n - 1) : Int) ≤ d / 4 ∧ d / 4 < 2 ^ (n - 1) then return .word (w + (BitVec.ofInt n (d / 4)).toNat)
      else throw .range
    | _ => return ⟨bytesOfNat 4 w, [⟨0, type, s, p, none, x⟩]⟩
  | .abs x => return ⟨bytesOfNat 4 w, [⟨0, type, "", none, some x, 0⟩]⟩
  | _ => throw .expr

/-! ### Scalar instructions (Table 5 of the encodings, R262 to R264) -/

/-- The operand shapes of the scalar forms. -/
inductive Shape where
  /-- no operand; d; a; d, a; d, a, b -/
  | none | d | a | da | dab
  /-- an integer operation: register and immediate opcodes -/
  | intop (imm : Nat)
  | fcvt | li
  /-- a load, a store of the global window or of scratch -/
  | load | store | loads | stores | satom
  | jump | brc | brm | token | issue | wait | fence
  /-- (a), d with a scope; BARINIT's; d, (a), p; (a); d, (a) -/
  | barop | barinit | barwait | barinv | barph
  | side | imm16 | mfs | mts | setfmt
  deriving DecidableEq, Repr

/-- The integer operations in the order of their index (R244). -/
def intNames : List String := ["ADD", "SUB", "MUL", "MULH", "MULHN", "DIV", "DIVN", "REM", "REMN", "AND", "OR", "XOR", "ANDN",
  "SHL", "SHR", "SAR", "ROT", "MIN", "MAX", "MINN", "MAXN", "CMP"]

/-- The scalar mnemonics: opcode and shape. -/
def scalarRows : List (String × Nat × Shape) :=
  intNames.zipIdx.map (fun (n, i) => (n, 0x02 + 2 * i, Shape.intop (0x40 + 2 * i))) ++
  [("CLZ", 0x2E, .da), ("POPC", 0x30, .da), ("SEL", 0x32, .dab), ("BFX", 0x34, .dab), ("BFI", 0x36, .dab), ("FADD", 0x38, .dab),
   ("FMUL", 0x3A, .dab), ("FFMA", 0x3C, .dab), ("FCMP", 0x3E, .dab), ("FCVT", 0x6C, .fcvt), ("LI", 0x6E, .li), ("LIH", 0x70, .li),
   ("SLD", 0x72, .load), ("SST", 0x74, .store), ("SLDS", 0x76, .loads), ("SSTS", 0x78, .stores), ("SATOM", 0x7A, .satom)] ++
  [("BR", 0x80, .jump), ("CALL", 0x82, .jump), ("BRC", 0x84, .brc), ("BRM", 0x86, .brm), ("RCV", 0x88, .token), ("JMPI", 0x8A, .a),
   ("RET", 0x8C, .none), ("ISSUE", 0x8E, .issue), ("EXIT", 0x90, .none), ("WAIT", 0x92, .wait), ("FENCE", 0x94, .fence),
   ("NOP", 0x96, .none), ("BARINIT", 0xA0, .barinit), ("BARARR", 0xA2, .barop), ("BAREXP", 0xA4, .barop),
   ("BARWAIT", 0xA6, .barwait), ("BARINV", 0xA8, .barinv), ("BARPH", 0xAA, .barph)] ++
  [("CVJOIN", 0xB0, .da), ("CVLEAVE", 0xB2, .none), ("CVSTEP", 0xB4, .none), ("SETFMT", 0xB8, .setfmt), ("MMA", 0xBC, .a),
   ("MFENCE", 0xBE, .d), ("MWAIT", 0xC0, .a), ("CPY", 0xC2, .da), ("CPYM", 0xC4, .da), ("CPYR", 0xC6, .da), ("CPYX", 0xC8, .da),
   ("NLSEND", 0xD0, .side), ("NLRECV", 0xD8, .side), ("TSPAWN", 0xE0, .da), ("TDEP", 0xE2, .da), ("TDONE", 0xE4, .none),
   ("QPUSH", 0xE6, .dab), ("QPOP", 0xE8, .da), ("FLUSHRED", 0xEA, .none), ("TRAP", 0xF0, .imm16), ("ERET", 0xF2, .none),
   ("MFS", 0xF4, .mfs), ("MTS", 0xF6, .mts), ("YIELD", 0xF8, .none), ("REGGROW", 0xFA, .a), ("REGSHRINK", 0xFC, .a),
   ("BKPT", 0xFE, .none)]

/-- The fields of a word of format S3 or SI. -/
def w3 (op d a b : Nat) : Nat := op * 2 ^ 24 + d * 2 ^ 16 + a * 2 ^ 8 + b

/-- The number of a special register, by name or by number. -/
def Two.special (v : Two) (e : Expr) : Except AsmError Nat :=
  match e with
  | .name n =>
    match specialNames.find? (fun x => x.1 == n.toUpper) with
    | some x => .ok x.2
    | none => do return (← v.int 0 65535 e).toNat
  | _ => do return (← v.int 0 65535 e).toNat

/-- The M of a scalar memory form from its type, order, scope and tag (Table 2 of the encodings): .cv is ORD 10, SCP 0. -/
def memByte (load : Bool) : List (Option Nat) → Except AsmError Nat
  | [some t, o, c, cv] =>
    match cv, o, c with
    | none, _, _ =>
      if load ∧ o = some 2 then .error .suffix else .ok (t * 32 + o.getD 0 * 8 + c.getD 0)
    | some _, none, none => .ok (t * 32 + 16)
    | _, _, _ => .error .suffix
  | _ => .error .suffix

/-- A memory word with its offset: the SI word where the offset is absent or 0, else the SX form (R264). -/
def Two.memWord (v : Two) (op d a m : Nat) : Option Expr → Except AsmError Emit
  | none => .ok (.word (w3 op d a m))
  | some e =>
    if v.known e = some 0 then .ok (.word (w3 op d a m))
    else do return (Emit.word (w3 (op + 1) d a m)).and (← v.literal false 4 e)

/-- One scalar instruction. -/
def Two.scalarForm (v : Two) (i : Insn) (op : Nat) (sh : Shape) : Except AsmError Emit := do
  let sfx (gs : List Group2) := takeSuffixes gs i.sfx
  let plain (w : Nat) : Except AsmError Emit := do
    let _ ← sfx []
    return .word w
  match sh, i.ops with
  | .none, [] => plain (w3 op 0 0 0)
  | .d, [.s d] => plain (w3 op d 0 0)
  | .a, [.s a] => plain (w3 op 0 a 0)
  | .da, [.s d, .s a] => plain (w3 op d a 0)
  | .dab, [.s d, .s a, .s b] => plain (w3 op d a b)
  | .intop _, [.s d, .s a, .s b] => plain (w3 op d a b)
  | .intop imm, [.s d, .s a, .val e] =>
    let _ ← sfx []
    (match v.known e with
    | some x => if within (-128) 127 x then return .word (w3 imm d a (bits x 7 0))
      else return (Emit.word (w3 (imm + 1) d a 0)).and (← v.literal true 4 e)
    | none => return (Emit.word (w3 (imm + 1) d a 0)).and (← v.literal true 4 e))
  | .fcvt, [.s d, .s a] =>
    (match fcvtKind i.sfx with | some k => return .word (w3 op d a k) | none => throw .suffix)
  | .li, [.s d, .val e] =>
    let _ ← sfx []
    (match v.known e with
    | some x => if within (-32768) 32767 x then return .word (op * 2 ^ 24 + d * 2 ^ 16 + bits x 15 0)
      else return (Emit.word (w3 (op + 1) d 0 0)).and (← v.literal true 4 e)
    | none => return (Emit.word (w3 (op + 1) d 0 0)).and (← v.literal true 4 e))
  | .load, [.s d, .smem a e] => v.memWord op d a (← memByte true (← sfx [gMem, gOrder, gScope, gCv])) e
  | .loads, [.s d, .smem a e] => v.memWord op d a (← memByte true ((← sfx [gMem, gOrder, gScope]) ++ [none])) e
  | .store, [.smem a e, .s d] => v.memWord op d a (← memByte false ((← sfx [gMem, gOrder, gScope]) ++ [none])) e
  | .stores, [.smem a e, .s d] => v.memWord op d a (← memByte false ((← sfx [gMem, gOrder, gScope]) ++ [none])) e
  | .satom, .s d :: .smem a none :: .s b :: rest =>
    (match ← sfx [gAop, gMem, gOrder, gScope] with
    | aop :: m => do
      let m ← memByte false (m ++ [none])
      let c ← (match rest with
        | [] => if aop = some 8 then throw .operand else pure 0
        | [.s c] => if aop = some 8 then pure c else throw .operand
        | _ => throw .operand)
      return (Emit.word (w3 (op + 1) d a m)).and (.word (b * 2 ^ 16 + c * 2 ^ 8 + aop.getD 0))
    | [] => throw .suffix)
  | .jump, [.val e] =>
    let _ ← sfx []
    v.branch (op * 2 ^ 24) 0x06 24 e
  | .brc, [.s a, .val e] =>
    let c ← sfx [gBrc]
    v.branch (op * 2 ^ 24 + a * 2 ^ 16 + ((c.head?.join).getD 0) * 2 ^ 12) 0x07 10 e
  | .brm, [.p neg n, .val t, .val e] =>
    let h ← sfx [gHint]
    let t ← v.int 0 15 t
    v.branch (op * 2 ^ 24 + (if neg then 2 ^ 20 else 0) + n * 2 ^ 16 + t.toNat * 2 ^ 12 + ((h.head?.join).getD 0) * 2 ^ 10) 0x07 10 e
  | .token, [.val t] => plain (op * 2 ^ 24 + (← v.int 0 15 t).toNat)
  | .issue, [.val b, .s base] =>
    let _ ← sfx []
    let w := op * 2 ^ 24 + base * 2 ^ 16
    (match b with
    | .name n =>
      match v.full.find n with
      | some (.block _) => return ⟨bytesOfNat 4 w, [⟨0, 0x0A, n, none, none, 0⟩]⟩
      | some (.abs x) => if within 0 65535 x then return .word (w + x.toNat) else throw .range
      | some (.loc _ _) => throw .operand
      | none => return ⟨bytesOfNat 4 w, [⟨0, 0x0A, n, none, none, 0⟩]⟩
    | e => return .word (w + (← v.int 0 65535 e).toNat))
  | .wait, [.val a, .val b, .val c, .val d] =>
    plain (op * 2 ^ 24 + (← v.int 0 63 a).toNat * 2 ^ 18 + (← v.int 0 63 b).toNat * 2 ^ 12 + (← v.int 0 63 c).toNat * 2 ^ 6 +
      (← v.int 0 63 d).toNat)
  | .fence, [] =>
    (match ← sfx [gOrder, gScope] with
    | [o, c] => return .word (w3 op 0 0 (o.getD 0 * 8 + c.getD 0))
    | _ => throw .suffix)
  | .barinit, [.smem a none, .s d] =>
    let x ← sfx [gExt]
    return .word (w3 op d a (((x.head?.join).getD 0) * 128))
  | .barop, [.smem a none, .s d] =>
    let x ← sfx [gScope]
    return .word (w3 op d a ((x.head?.join).getD 1))
  | .barwait, [.s d, .smem a none, .s p] =>
    let x ← sfx [gScope]
    return (Emit.word (w3 (op + 1) d a ((x.head?.join).getD 1))).and (.word p)
  | .barinv, [.smem a none] =>
    let x ← sfx [gScope]
    return .word (w3 op 0 a ((x.head?.join).getD 1))
  | .barph, [.s d, .smem a none] => plain (w3 op d a 0)
  | .side, [.s d, .s a, .s b] =>
    let x ← sfx [gSide]
    return .word (w3 (op + 2 * (x.head?.join).getD 0) d a b)
  | .imm16, [.val e] => plain (op * 2 ^ 24 + (← v.int 0 65535 e).toNat)
  | .mfs, [.s d, .val e] => plain (op * 2 ^ 24 + d * 2 ^ 16 + (← v.special e))
  | .mts, [.val e, .s d] => plain (op * 2 ^ 24 + d * 2 ^ 16 + (← v.special e))
  | .setfmt, [.s a] => plain (w3 op 0 a 0)
  | .setfmt, [.val e] => plain ((op + 2) * 2 ^ 24 + (← v.int 0 65535 e).toNat)
  | _, _ => throw .operand

/-- Whether the words of a scalar instruction are ones that the device takes: they decode, and no field makes them
ILLEGAL. -/
def goodScalar (bs : List Byte) : Bool :=
  match decodeScalarBytes bs with
  | .ok (i, rest) => rest.isEmpty && (match scalarInfo i with | some x => !illegalFields x | none => false)
  | .error _ => false

/-! ### Lane instructions (Tables 8, 9 and 12 of the encodings, R264 to R266) -/

/-- The lane mnemonics with their opcodes (Table 12). -/
def laneRows : List (String × Nat) :=
  [("VFADD", 0x010), ("VFSUB", 0x011), ("VFMUL", 0x012), ("VFFMA", 0x013), ("VFMIN", 0x014), ("VFMAX", 0x015), ("VFRCP", 0x016),
   ("VFRSQ", 0x017), ("VFSQRT", 0x018), ("VFDIV", 0x019), ("VFEXP2", 0x01A), ("VFLOG2", 0x01B), ("VFSIN", 0x01C), ("VFCOS", 0x01D),
   ("VFCMP", 0x01E), ("VFCLASS", 0x01F), ("VFRND", 0x020)] ++
  [("VADD", 0x040), ("VSUB", 0x041), ("VMUL", 0x042), ("VMULH", 0x043), ("VMAD", 0x044), ("VMIN", 0x045), ("VMAX", 0x046),
   ("VABS", 0x047), ("VAND", 0x048), ("VOR", 0x049), ("VXOR", 0x04A), ("VSHL", 0x04B), ("VSHR", 0x04C), ("VSAR", 0x04D),
   ("VBFX", 0x04E), ("VBFI", 0x04F), ("VPOPC", 0x050), ("VCLZ", 0x051), ("VCMP", 0x052), ("VSADD", 0x053), ("VSSUB", 0x054)] ++
  [("VSEL", 0x080), ("PSET", 0x081), ("PAND", 0x082), ("POR", 0x083), ("PXOR", 0x084), ("PNOT", 0x085), ("VMASK", 0x086),
   ("VCVT", 0x0C0), ("VPACK", 0x0C1), ("VUNPACK", 0x0C2), ("VSCALE", 0x0C3), ("VSHUF", 0x100), ("VBCAST", 0x101), ("VROT", 0x102),
   ("VXLANE", 0x103), ("VREADLANE", 0x104), ("VWRITELANE", 0x105), ("VIOTA", 0x106), ("VREDUCE", 0x107), ("VMOV", 0x140),
   ("VMOVI", 0x940)] ++
  [("VLD", 0x200), ("VST", 0x201), ("VLDX", 0x202), ("VSTX", 0x203), ("VLDS", 0x204), ("VSTS", 0x205), ("VLDC", 0x206),
   ("VSTP", 0x207), ("VPREF", 0x208), ("VATOM", 0x240), ("VRED", 0x241), ("VACCRD", 0x242), ("VTRSEND", 0x280), ("VTRRECV", 0x281)]

/-- The mnemonics of class Z, written without a type. -/
def untyped : List String := ["PAND", "POR", "PXOR", "PNOT", "VMASK", "VIOTA", "VPREF"]

/-- A lane word with every field 0. -/
def LaneWord.zero : LaneWord := ⟨0, 0, 0, 0, 0, 0, 0, 0, 0⟩

/-- What Table 12 says of an opcode. -/
def rowOf (opc : Nat) : Option LaneInfo :=
  match decodeLaneOp opc LaneWord.zero with
  | .ok i => (laneInfo i).map (·.1)
  | .error _ => none

/-- The fields of a lane word in the making, and an immediate that the last source takes. -/
structure Fields where
  w    : LaneWord
  sd   : Bool
  seg  : Nat
  scp  : Nat
  ord  : Nat
  cv   : Nat
  scl  : Nat
  off  : BitVec 23
  imm  : Option (Word32 × Option NamedReloc)
  deriving DecidableEq, Repr

/-- The suffixes of a lane mnemonic: MOD, SEG, TYP, ORD, SCP, CV (R261). -/
def laneSuffixes (m : String) (row : LaneInfo) (sfx : List String) : Except AsmError Fields := do
  let one : List Group2 :=
    if m = "VATOM" ∨ m = "VRED" then [gAop] else if m = "VCMP" ∨ m = "VFCMP" then [gCond]
    else if m = "VREDUCE" then [gRed] else if m = "VMASK" then [gHalf] else if m = "VUNPACK" then [gPart] else []
  let seg : List Group2 := if row.seg then [gSeg] else []
  let typ : List Group2 := if untyped.contains m then [] else if m = "VCVT" then [gType, gType] else [gType]
  let mem : List Group2 := if row.fmt = .lm then [gOrder, gScope] ++ (if row.cv then [gCv] else []) else []
  let xs ← takeSuffixes (one ++ seg ++ typ ++ mem) sfx
  let get (k : Nat) (gs : List Group2) (d : Nat) : Nat := if gs.isEmpty then d else ((xs[k]?).join).getD d
  let a := one.length
  let b := a + seg.length
  let c := b + typ.length
  if !typ.isEmpty ∧ ((xs.drop b).take typ.length).any (·.isNone) then throw .suffix
  let mod := if m = "VCVT" then get (b + 1) typ 0 else get 0 one 0
  let scp := get (c + 1) mem (if m = "VLDC" ∨ m = "VSTP" then 1 else 0)
  let w : LaneWord := { LaneWord.zero with typ := BitVec.ofNat 5 (get b typ 0), mod := BitVec.ofNat 8 mod }
  return ⟨w, false, get a seg 0, scp, get c mem 0, if row.cv then get (c + 2) mem 0 else 0, 0, 0, none⟩

/-- An integer constant of Table 10. -/
def constOf (x : Int) : Option Nat :=
  if 0 ≤ x ∧ x ≤ 63 then some (264 + x.toNat) else if -16 ≤ x ∧ x < 0 then some (327 + (-x).toNat) else none

/-- A floating-point constant of Table 10. -/
def constFloat (d : Dec) : Option Nat :=
  let bits := fround f32 0 false d.val
  let k := [0x3F000000, 0x3F800000, 0x40000000, 0x40800000, 0xBF000000, 0xBF800000, 0xC0000000, 0xC0800000]
  match k.findIdx? (· == bits) with
  | some i => if (FVal.eq d.val (fdecode f32 bits)) then some (344 + i) else none
  | none => none

/-- A number as the immediate of an LI form (R265). -/
def Two.immediate (v : Two) (typ : BitVec 5) (o : Opnd) : Except AsmError (Word32 × Option NamedReloc) := do
  let flt := isFloatTyp typ
  let f := fmtOfTyp typ
  match o with
  | .dec d =>
    if !flt then throw .operand
    let b := fround f 0 false d.val
    return (BitVec.ofNat 32 (if is16 typ then b + b * 65536 else b), none)
  | .val e =>
    match ← v.full.eval e with
    | .lo n p x => return (0, some ⟨0, 0x0B, n, p, none, x⟩)
    | .abs x =>
      let hex : Bool := (match e with | .num _ true => true | _ => false)
      let n := x.toInt
      if is16 typ then
        if hex ∧ 0x10000 ≤ n ∧ n ≤ 0xFFFFFFFF then return (x.setWidth 32, none)
        else if flt then
          if hex then (if 0 ≤ n ∧ n ≤ 0xFFFF then return (BitVec.ofNat 32 (x.toNat + x.toNat * 65536), none) else throw .range)
          else
            let b := fround f 0 false (FVal.ofInt n)
            return (BitVec.ofNat 32 (b + b * 65536), none)
        else if -32768 ≤ n ∧ n ≤ 65535 then
          let b := bits x 15 0
          return (BitVec.ofNat 32 (b + b * 65536), none)
        else throw .range
      else if flt ∧ !hex then return (BitVec.ofNat 32 (fround f 0 false (FVal.ofInt n)), none)
      else if is64 typ then (if within (-(2 ^ 31)) (2 ^ 31 - 1) x then return (x.setWidth 32, none) else throw .range)
      else if -(2 ^ 31 : Int) ≤ n ∧ n < 2 ^ 32 then return (x.setWidth 32, none)
      else throw .range
    | _ => throw .expr
  | _ => throw .operand

/-- A source operand in a field: `last` says that it is the last source of an opcode with an LI form. -/
def Two.source (v : Two) (k : SrcKind) (typ : BitVec 5) (last : Bool) (o : Opnd) :
    Except AsmError (Sum Nat (Word32 × Option NamedReloc)) := do
  match k, o with
  | .pred, .p false n => return .inl n
  | .pred, _ => throw .operand
  | .any, .v n | .int, .v n => return .inl n
  | .any, .slot n | .int, .slot n | .uniform, .slot n | .uniformVal, .slot n => return .inl (256 + n)
  | .any, .dec d | .uniformVal, .dec d =>
    match (if isFloatTyp typ then constFloat d else none) with
    | some c => return .inl c
    | none => if last then return .inr (← v.immediate typ o) else throw .operand
  | _, .val e =>
    match v.known e with
    | some x =>
      match constOf x.toInt with
      | some c => return .inl c
      | none => if last then return .inr (← v.immediate typ o) else throw .operand
    | none => if last then return .inr (← v.immediate typ o) else throw .operand
  | _, _ => throw .operand

/-- A lane memory operand (R264). -/
def Two.laneMem (v : Two) (f : Fields) (k : Nat) (x : Option Index) (scale e : Option Expr) : Except AsmError Fields := do
  let sb ← (match x with
    | none => pure 264
    | some (.v n) => pure n
    | some (.num e) => do
      let x ← v.int (-16) 63 e
      match constOf x.toInt with | some c => pure c | none => throw .range)
  let scl ← (match scale with
    | none => pure 0
    | some e => do
      let n ← v.int 1 8 e
      match n.toNat with | 1 => pure 0 | 2 => pure 1 | 4 => pure 2 | 8 => pure 3 | _ => throw .range)
  let off ← (match e with | none => pure 0 | some e => v.int (-(2 ^ 22)) (2 ^ 22 - 1) e)
  return { f with w := { f.w with sa := BitVec.ofNat 9 (256 + k), sb := BitVec.ofNat 9 sb }, scl := scl, off := off.setWidth 23 }

/-- The destination. -/
def destination (k : DstKind) (f : Fields) (o : Opnd) : Except AsmError Fields :=
  match k, o with
  | .vec, .v n | .vecOrScalar, .v n => .ok { f with w := { f.w with dst := BitVec.ofNat 8 n } }
  | .pred, .p false n => .ok { f with w := { f.w with dst := BitVec.ofNat 8 n } }
  | .scalar, .s n | .vecOrScalar, .s n => .ok { f with w := { f.w with dst := BitVec.ofNat 8 n }, sd := true }
  | _, _ => .error .operand

/-- Put sources into SA, SB and SC in that order; a number as the last source may become the immediate. -/
def Two.sources (v : Two) (typ : BitVec 5) (li : Bool) :
    List (SrcKind × (LaneWord → BitVec 9 → LaneWord)) → Fields → List Opnd → Except AsmError Fields
  | [], f, [] => .ok f
  | (k, put) :: ks, f, o :: os => do
    match ← v.source k typ (li && ks.isEmpty) o with
    | .inl n => v.sources typ li ks { f with w := put f.w (BitVec.ofNat 9 n) } os
    | .inr m => v.sources typ li ks { f with imm := some m } os
  | _, _, _ => .error .operand

/-- One lane instruction. -/
def Two.lane (v : Two) (i : Insn) (opc : Nat) : Except AsmError Emit := do
  match rowOf opc with
  | none => throw .mnemonic
  | some row =>
    let f ← laneSuffixes i.mnem row i.sfx
    let f ← (match i.guard with
      | none => pure f
      | some (neg, n) => if row.guard then pure { f with w := { f.w with neg := if neg then 1 else 0, pred := BitVec.ofNat 4 n } }
        else throw .operand)
    let setA (w : LaneWord) (x : BitVec 9) : LaneWord := { w with sa := x }
    let setB (w : LaneWord) (x : BitVec 9) : LaneWord := { w with sb := x }
    let setC (w : LaneWord) (x : BitVec 9) : LaneWord := { w with sc := x }
    let typ := if i.mnem = "VCVT" then f.w.mod.setWidth 5 else f.w.typ
    let fields ← (match row.fmt with
      | .lm => do
        let (f, ops) ← (match row.dst, i.ops with
          | .none, ops => pure (f, ops)
          | k, d :: ops => do return (← destination k f d, ops)
          | _, [] => throw .operand)
        match ops with
        | .lmem k x scale e :: rest =>
          let f ← v.laneMem f k x scale e
          let rest := if i.mnem = "VATOM" && f.w.mod == 8 then
              (match rest with | [c, .v n] => if BitVec.ofNat 8 n == f.w.dst then [c] else rest | _ => rest) else rest
          v.sources typ false (if row.c = .none then [] else [(row.c, setC)]) f rest
        | _ => throw .operand
      | _ => do
        let (f, ops) ← (match row.dst, i.ops with
          | .none, ops => pure (f, ops)
          | k, d :: ops => do return (← destination k f d, ops)
          | _, [] => throw .operand)
        if i.mnem = "VMOVI" then
          match ops with
          | [o] => return { f with imm := some (← v.immediate f.w.typ o) }
          | _ => throw .operand
        else
          let li := opc < 0x800 && (rowOf (0x800 + opc)).isSome
          let ks := (if row.a = .none then [] else [(row.a, setA)]) ++ (if row.b = .none then [] else [(row.b, setB)]) ++
            (if row.c = .none then [] else [(row.c, setC)])
          v.sources typ li ks f ops)
    let (word, reloc) : LaneWord × Option NamedReloc := match fields.imm with
      | some (m, r) => ({ fields.w with sc := (m.extractLsb' 31 1).setWidth 9, low := m.extractLsb' 0 31 }, r)
      | none =>
        let low : Nat := match row.fmt with
          | .lm => fields.scp * 2 ^ 28 + fields.ord * 2 ^ 26 + fields.cv * 2 ^ 25 + fields.scl * 2 ^ 23 + fields.off.toNat
          | .lx => (if fields.sd then 2 ^ 30 else 0) + fields.seg * 2 ^ 27
          | _ => if fields.sd then 2 ^ 30 else 0
        ({ fields.w with low := BitVec.ofNat 31 low }, none)
    let opc := if fields.imm.isSome ∧ i.mnem ≠ "VMOVI" then 0x800 + opc else opc
    match decodeLaneOp opc word with
    | .ok x => if laneGood x 256 then return ⟨bytesOfNat 12 (laneWord (BitVec.ofNat 12 opc) word).toNat, reloc.toList⟩ else throw .range
    | .error _ => throw .operand

/-! ### Assembling a file -/

/-- A section in the making. -/
structure SecBuf where
  bytes  : List Byte
  /-- bytes of BSS -/
  size   : Nat
  align  : Nat
  relocs : List NamedReloc
  deriving DecidableEq, Repr

/-- A file in the making: the current section, its buffers by type, names defined so far and all names, globals, the open
block with its start and count, the blocks so far, the .live line that waits for its instruction. -/
structure Asm where
  cur    : Nat
  bufs   : Tab SecBuf
  defs   : List (String × NameDef)
  full   : List (String × NameDef)
  /-- the first pass only collects names: values that it cannot form are taken as 0 -/
  first  : Bool
  globals : List String
  opened : Option (String × Nat × Nat)
  blocks : List (String × Nat × Nat)
  live   : Option (List LiveItem)
  deriving DecidableEq, Repr

/-- A buffer. -/
def Asm.buf (a : Asm) (type : Nat) : SecBuf := (a.bufs.get? type).getD ⟨[], 0, if type = 1 then 2 else if type = 4 ∨ type = 0x0B then 3 else 0, []⟩
/-- The current location of a section. -/
def Asm.off (a : Asm) (type : Nat) : Nat := let b := a.buf type; if type = 7 then b.size else b.bytes.length
/-- The two environments at the current location. -/
def Asm.two (a : Asm) (type : Nat) : Two := ⟨⟨a.defs, type, a.off type⟩, ⟨a.full, type, a.off type⟩, a.first⟩
/-- Emit bytes into a section. -/
def Asm.emit (a : Asm) (type : Nat) (e : Emit) : Asm :=
  let b := a.buf type
  let at_ := b.bytes.length
  { a with bufs := a.bufs.set type { b with
      bytes := b.bytes ++ e.bytes
      relocs := b.relocs ++ e.relocs.map (fun r => { r with place := r.place + at_ }) } }
/-- Align a section: zero bytes, and its ALIGN is raised. -/
def Asm.alignTo (a : Asm) (type n : Nat) : Asm :=
  let b := a.buf type
  let b := { b with align := max b.align n.log2 }
  let b := if type = 7 then { b with size := alignUp b.size n } else { b with bytes := padTo b.bytes n }
  { a with bufs := a.bufs.set type b }
/-- Define a name. -/
def Asm.define (a : Asm) (n : String) (d : NameDef) : Except AsmError Asm :=
  if (a.defs.any (fun x => x.1 == n)) ∨ n.startsWith "__" then .error .name else .ok { a with defs := a.defs ++ [(n, d)] }

/-- In the first pass, a statement whose values are not known yet keeps its size: `n` bytes. -/
def Asm.sized (a : Asm) (n : Nat) (r : Except AsmError Emit) : Except AsmError Emit :=
  match r with
  | .ok e => .ok e
  | .error x => if a.first then .ok ⟨List.replicate n 0, []⟩ else .error x

/-- An absolute value from the names so far. -/
def Asm.now (a : Asm) (lo hi : Int) (e : Expr) : Except AsmError Nat :=
  match (a.two a.cur).sofar.eval e with
  | .ok (.abs x) => if within lo hi x then .ok x.toNat else .error .range
  | .ok _ => .error .expr
  | .error x => .error x

/-- A value in bits of a word by a relocation type, or absolute (Table 4): `low` bits of the value must be 0. -/
def Two.field (v : Two) (place type low : Nat) (e : Expr) : Except AsmError (Nat × List NamedReloc) := do
  match ← v.full.eval e with
  | .abs x => if bits x 63 57 = 0 ∧ x.toNat % 2 ^ low = 0 then return (x.toNat, []) else throw .range
  | .rel n p x => return (0, [⟨place, type, n, p, none, x⟩])
  | _ => throw .expr

/-- The bits of a liveness record (Table 5 of R208). -/
def Asm.liveRecord (a : Asm) (items : List LiveItem) : Except AsmError Emit := do
  let rangeBits (lo hi : Nat) : Nat := 2 ^ (hi + 1) - 2 ^ lo
  let s ← items.foldlM (fun acc i => match i with
    | .s lo hi => if lo = 0 ∨ 191 < hi ∨ hi < lo then throw .live else pure (acc ||| rangeBits lo hi)
    | _ => pure acc) 0
  let vl ← items.foldlM (fun acc i => match i with
    | .v lo hi => if 255 < hi ∨ hi < lo then throw .live else pure (acc ||| rangeBits (lo / 8) (hi / 8))
    | _ => pure acc) 0
  let p ← items.foldlM (fun acc i => match i with
    | .p lo hi => if lo = 0 ∨ 15 < hi ∨ hi < lo then throw .live else pure (acc ||| rangeBits lo hi)
    | _ => pure acc) 0
  let csp ← (items.filterMap (fun i => match i with | .csp e k => some (e, k) | _ => none)).mapM (fun (e, k) => do
    let e ← (a.two 1).int 0 (2 ^ 24 - 1) e
    let k ← (a.two 1).int 1 131072 k
    if e.toNat % 128 ≠ 0 then throw .live
    return e.toNat * 2 ^ 18 + k.toNat)
  if 255 < csp.length then throw .live
  return ⟨bytesOfNat 8 0 ++ bytesOfNat 8 (s % 2 ^ 64) ++ bytesOfNat 8 (s / 2 ^ 64 % 2 ^ 64) ++ bytesOfNat 8 (s / 2 ^ 128) ++
      bytesOfNat 8 (vl * 2 ^ 32 + p * 2 ^ 16 + csp.length * 2 ^ 8) ++ (csp.map (bytesOfNat 8)).flatten,
    [⟨0, 0x03, "", some (1, a.off 1), none, 0⟩]⟩

/-- One instruction: a scalar one in the scalar code section, a lane one in an open block (R267, R268). -/
def Asm.insn (a : Asm) (i : Insn) : Except AsmError Asm := do
  match scalarRows.find? (fun r => r.1 == i.mnem) with
  | some (_, op, sh) =>
    if a.cur ≠ 1 ∨ a.opened.isSome ∨ i.guard.isSome then throw .place
    let a ← (match a.live with
      | none => pure a
      | some items => do
        if !(["WAIT", "BARWAIT", "QPOP", "YIELD", "REGGROW", "RCV"].contains i.mnem) then throw .live
        let n := 40 + 8 * (items.filter (fun i => match i with | .csp _ _ => true | _ => false)).length
        return { a.emit 4 (← a.sized n (a.liveRecord items)) with live := none })
    let e ← a.sized 4 ((a.two 1).scalarForm i op sh)
    if !a.first ∧ !goodScalar e.bytes then throw .range
    return a.emit 1 e
  | none =>
    match laneRows.find? (fun r => r.1 == i.mnem), a.opened with
    | some (_, opc), some (n, start, k) =>
      if 1024 ≤ k then throw .place
      let e ← a.sized 12 ((a.two 2).lane i opc)
      return { a.emit 2 e with opened := some (n, start, k + 1) }
    | some _, none => throw .place
    | none, _ => throw .mnemonic

/-- The layout record of .layout (R270). -/
def Asm.layoutRecord (a : Asm) (kw : List (String × List Expr)) : Except AsmError Emit := do
  let v := a.two a.cur
  let get (n : String) : Option (List Expr) := (kw.find? (fun k => k.1 == n)).map (·.2)
  if kw.any (fun k => !(["base", "esz", "dims", "strides", "gen", "edgerep", "scale"].contains k.1)) then throw .mnemonic
  let one (n : String) (lo hi : Int) (d : Option Nat) : Except AsmError Nat := (match get n, d with
    | some [e], _ => do return (← v.int lo hi e).toNat
    | none, some d => pure d
    | _, _ => throw .operand)
  let esz ← one "esz" 1 8 none
  let gen ← one "gen" 0 15 (some 0)
  let rep ← one "edgerep" 0 1 (some 0)
  let scale ← one "scale" 0 1 (some 0)
  let code ← (match esz with | 1 => pure 0 | 2 => pure 1 | 4 => pure 2 | 8 => pure 3 | _ => throw .range)
  let dims ← ((get "dims").getD []).mapM (v.int 1 (2 ^ 32 - 1))
  let strides ← ((get "strides").getD []).mapM (v.int 0 (2 ^ 48 - 1))
  if dims.isEmpty ∨ 4 < dims.length ∨ strides.length + 1 ≠ dims.length then throw .operand
  let (base, rs) ← (match get "base" with | some [e] => v.field 0 0x02 0 e | _ => throw .operand)
  let dim (k : Nat) : Nat := ((dims[k]?).map (·.toNat)).getD 1
  let st (k : Nat) : Nat := ((strides[k]?).map (·.toNat)).getD 0
  let ws : List Nat := [base, dim 0 + dim 1 * 2 ^ 32, dim 2 + dim 3 * 2 ^ 32, st 0, st 1, st 2,
    gen * 2 ^ 12 + code * 2 ^ 10 + (dims.length - 1) * 2 ^ 8 + rep * 2 ^ 7 + scale * 2 ^ 6 + 1, 0]
  if badRecord (ws.map (BitVec.ofNat 64 ·)) then throw .record
  return ⟨(ws.map (bytesOfNat 8)).flatten, rs⟩

/-- The task record of .task (R272, Table 4). -/
def Asm.taskRecord (a : Asm) (kw : List (String × List Expr)) : Except AsmError Emit := do
  let v := a.two a.cur
  let get (n : String) : Option (List Expr) := (kw.find? (fun k => k.1 == n)).map (·.2)
  if kw.any (fun k => !(["entry", "gangs", "waves", "csp", "vgrp", "htlen", "tail", "lbdir", "htbase", "arg", "wait", "bw", "pw",
      "done", "crec"].contains k.1)) then throw .mnemonic
  let one (n : String) (lo hi : Int) (d : Option Nat) : Except AsmError Nat := (match get n, d with
    | some [e], _ => do return (← v.int lo hi e).toNat
    | none, some d => pure d
    | _, _ => throw .operand)
  let place (n : String) (at_ type low : Nat) (d : Option Expr) : Except AsmError (Nat × List NamedReloc) := (match get n, d with
    | some [e], _ => v.field at_ type low e
    | none, some e => v.field at_ type low e
    | _, _ => throw .operand)
  let zero : Expr := .num 0 false
  let (entry, r0) ← place "entry" 0 0x03 2 none
  let gangs ← one "gangs" 1 256 (some 1)
  let waves ← one "waves" 0 511 none
  let csp ← one "csp" 0 511 none
  let vgrp ← one "vgrp" 0 63 none
  let htlen ← one "htlen" 0 8191 (some 0)
  let tail ← one "tail" 0 127 (some 0)
  let (lbdir, r2) ← place "lbdir" 16 0x05 6 (some (.name "__lbdir"))
  let (htbase, r3) ← place "htbase" 24 0x05 6 (some zero)
  let (arg, r4) ← (match get "arg" with
    | none => pure (0, [])
    | some [e] => do
      match ← v.full.eval e with
      | .abs x => pure (x.toNat, [])
      | .rel n p x => pure (0, [(⟨32, 0x02, n, p, none, x⟩ : NamedReloc)])
      | _ => throw .expr
    | _ => throw .operand)
  let (wen, waitc, winit) ← (match get "wait" with
    | none => pure (0, 0, 0)
    | some [c, n] => do return (1, (← v.int 0 65535 c).toNat, (← v.int 0 (2 ^ 32 - 1) n).toNat)
    | _ => throw .operand)
  let bw ← one "bw" 0 127 (some 0)
  let pw ← one "pw" 0 255 (some 0)
  let (den, donec) ← (match get "done" with
    | none => pure (0, 0)
    | some [c] => do return (1, (← v.int 0 65535 c).toNat)
    | _ => throw .operand)
  let (ren, crec, r7) ← (match get "crec" with
    | none => pure (0, 0, [])
    | some [e] => do let (x, r) ← v.field 56 0x04 4 e; return (1, x, r)
    | _ => throw .operand)
  let ws : List Nat := [entry, (gangs - 1) * 2 ^ 56 + waves * 2 ^ 47 + csp * 2 ^ 38 + vgrp * 2 ^ 32 + htlen * 2 ^ 19 + tail * 2 ^ 12,
    lbdir, htbase, arg, winit * 2 ^ 32 + waitc * 2 ^ 16 + wen * 2 ^ 15 + bw * 2 ^ 8 + pw, donec * 2 ^ 48 + den * 2 ^ 47 + ren * 2 ^ 46, crec]
  if (r0 ++ r2 ++ r3 ++ r4 ++ r7).all (fun r => r.sym == "__lbdir") ∧ taskMalformed (ws.map (BitVec.ofNat 64 ·)) then throw .record
  return ⟨(ws.map (bytesOfNat 8)).flatten, r0 ++ r2 ++ r3 ++ r4 ++ r7⟩

/-- The scale tiles of .scales (R271). -/
def Asm.scaleTiles (a : Asm) (nvec nblk : Nat) (vs : List Expr) : Except AsmError Emit := do
  if nvec % 32 ≠ 0 ∨ nblk % 4 ≠ 0 then throw .operand
  let bs ← vs.mapM ((a.two a.cur).int (-128) 255)
  let pitch := nblk / 4 * 128
  let put := bs.zipIdx.map (fun (b, i) => let v := i / nblk; let q := i % nblk; (v / 32 * pitch + q / 4 * 128 + sofs v q, b))
  return ⟨(List.range (nvec / 32 * pitch)).map (fun k => match put.find? (fun x => x.1 == k) with | some (_, b) => b.setWidth 8 | none => 0), []⟩

/-- One directive (Table 3). -/
def Asm.directive (a : Asm) (d : Directive) : Except AsmError Asm := do
  if a.opened.isSome ∧ d ≠ .endblock then throw .place
  if a.live.isSome then throw .live
  if a.cur = 7 ∧ !(match d with | .space _ | .align _ | .sect _ | .equ _ _ | .globl _ | .resources _ _ _ | .needcap _ _ _ _ => true | _ => false) then
    throw .place
  let v := a.two a.cur
  match d with
  | .sect t => return { a with cur := t }
  | .align e =>
    let n ← a.now 1 65536 e
    if n ≠ 2 ^ n.log2 then throw .range
    return a.alignTo a.cur n
  | .data size es =>
    let one (k : Nat) (e : Expr) : Except AsmError Emit := do
      match ← v.full.eval e with
      | .abs x => return ⟨bytesOfNat size x.toNat, []⟩
      | .rel n p x => if size = 8 then return ⟨List.replicate 8 0, [⟨8 * k, 0x02, n, p, none, x⟩]⟩ else throw .expr
      | _ => throw .expr
    let out ← a.sized (size * es.length) (do
      let xs ← es.zipIdx.mapM (fun (e, k) => one k e)
      return ⟨(xs.map (·.bytes)).flatten, (xs.map (·.relocs)).flatten⟩)
    return a.emit a.cur out
  | .f32 ns =>
    let out ← a.sized (4 * ns.length) (do
      let xs ← ns.mapM (fun n => match n with
        | .inl e => do return FVal.ofInt (← v.int (-(2 ^ 63)) (2 ^ 63 - 1) e).toInt
        | .inr d => pure d.val)
      return ⟨(xs.map (fun x => bytesOfNat 4 (fround f32 0 false x))).flatten, []⟩)
    return a.emit a.cur out
  | .ascii bs => return a.emit a.cur ⟨bs, []⟩
  | .space e =>
    let n ← a.now 0 (2 ^ 63 - 1) e
    if a.cur = 7 then
      let b := a.buf 7
      return { a with bufs := a.bufs.set 7 { b with size := b.size + n } }
    else return a.emit a.cur ⟨List.replicate n 0, []⟩
  | .equ n e =>
    match v.sofar.eval e with
    | .ok (.abs x) => a.define n (.abs x)
    | _ => throw .expr
  | .globl ns => return { a with globals := a.globals ++ ns.filter (fun n => !a.globals.contains n) }
  | .block n =>
    let a := a.alignTo 2 16
    let a ← a.define n (.block a.blocks.length)
    return { a with opened := some (n, a.off 2, 0) }
  | .endblock =>
    match a.opened with
    | none => throw .place
    | some (n, start, k) => if k = 0 then throw .place else return { a with opened := none, blocks := a.blocks ++ [(n, start, k)] }
  | .live items => return { a with live := some items }
  | .layout kw =>
    let a := a.alignTo a.cur 64
    return a.emit a.cur (← a.sized 64 (a.layoutRecord kw))
  | .task kw =>
    let a := a.alignTo a.cur 64
    return a.emit a.cur (← a.sized 64 (a.taskRecord kw))
  | .scales nv nb vs =>
    let a := a.alignTo a.cur 128
    let nv ← a.now 0 (2 ^ 63 - 1) nv
    let nb ← a.now 0 (2 ^ 63 - 1) nb
    if vs.length ≠ nv * nb then throw .operand
    return a.emit a.cur (← a.sized (nv * nb) (a.scaleTiles nv nb vs))
  | .resources n vg cs =>
    let out ← a.sized 16 (do
      let vg ← v.int 0 63 vg
      let cs ← v.int 0 511 cs
      let (x, rs) ← v.field 8 0x03 2 (.name n)
      return ⟨bytesOfNat 8 (2 * 2 ^ 56 + cs.toNat * 2 ^ 39 + vg.toNat * 2 ^ 33) ++ bytesOfNat 8 x, rs⟩)
    return a.emit 0x0B out
  | .needcap id ma mi m =>
    let out ← a.sized 16 (do
      let id ← v.int 0 65535 id
      let ma ← v.int 0 255 ma
      let mi ← v.int 0 255 mi
      let w0 := id.toNat * 2 ^ 32 + ma.toNat * 2 ^ 24 + mi.toNat * 2 ^ 16
      match m with
      | none => return ⟨bytesOfNat 8 w0 ++ bytesOfNat 8 0, []⟩
      | some (w, mask) =>
        let w ← v.int 0 255 w
        let mask ← v.int (-(2 ^ 63)) (2 ^ 63 - 1) mask
        return ⟨bytesOfNat 8 (2 ^ 56 + w0 + w.toNat * 2 ^ 8) ++ bytesOfWord mask, []⟩)
    return a.emit 0x0B out

/-- One line: its label names the location before the statement (R259). -/
def Asm.line (a : Asm) (l : Line) : Except AsmError Asm := do
  let a ← (match l.label with
    | none => pure a
    | some n => if a.opened.isSome then throw .place else a.define n (.loc a.cur (a.off a.cur)))
  match l.insn, l.dir with
  | some i, _ => a.insn i
  | none, some d => a.directive d
  | none, none => return a

/-- A file with nothing in it. -/
def Asm.start (full : List (String × NameDef)) (first : Bool) : Asm := ⟨1, [], [], full, first, [], none, [], none⟩

/-- Two passes: the first collects the names, the second emits. -/
def assembleLines (ls : List Line) : Except AsmError Asm := do
  let one ← ls.foldlM Asm.line (Asm.start [] true)
  let a ← ls.foldlM Asm.line (Asm.start one.defs false)
  if a.opened.isSome then throw .place
  if a.live.isSome then throw .live
  return a

/-! ### The object (R274 to R278) -/

/-- A symbol as the relocations name it: a name, a place without one, or an absolute value. -/
inductive SymRef where
  | name (n : String)
  | loc (sect off : Nat)
  | abs (v : Word)
  deriving DecidableEq, Repr

/-- What a relocation is against. -/
def NamedReloc.ref (r : NamedReloc) : SymRef :=
  match r.abs, r.sym, r.at_ with
  | some v, _, _ => .abs v
  | none, "", some (s, o) => .loc s o
  | none, n, _ => .name n

/-- A name in ASCII. -/
def nameBytes (n : String) : Name := n.toList.map (fun c => BitVec.ofNat 8 c.toNat)

/-- The object of an assembled file: sections, block records, symbols and relocations. A section that holds no bytes is
kept where a symbol lies in it (R277). -/
def Asm.object (a : Asm) : Tof :=
  let located (t : Nat) : Bool := a.defs.any (fun d => match d.2 with | .loc x _ => x == t | _ => false) ||
    a.bufs.any (fun b => b.2.relocs.any (fun r => match r.ref with | .loc x _ => x == t | _ => false))
  let types := (List.range 12).filter (fun t => (t == 3 && !a.blocks.isEmpty) || (a.bufs.has t && (a.off t != 0)) || located t)
  let index (t : Nat) : Nat := match types.findIdx? (· == t) with | some i => i + 1 | none => 0
  let refs := ((types.map (fun t => (a.buf t).relocs.map NamedReloc.ref)).flatten).eraseDups
  let syms : List SymRef := (a.defs.map (fun d => SymRef.name d.1) ++ refs).eraseDups
  let number (r : SymRef) : Nat := match syms.findIdx? (· == r) with | some i => i + 1 | none => 0
  let names := syms.filterMap (fun s => match s with | .name n => some n | _ => none)
  let strtab := names.foldl (fun bs n => bs ++ nameBytes n ++ [0]) [0]
  let nameOff (n : String) : Nat := ((names.takeWhile (· != n)).map (fun m => (nameBytes m).length + 1)).foldl (· + ·) 1
  let record (s : SymRef) : List Byte :=
    let (nm, sect, kind, bind, v) : Nat × Nat × Nat × Nat × Nat := match s with
      | .loc t o => (0, index t, 0, 0, o)
      | .abs v => (0, 0xFFFF, 2, 0, v.toNat)
      | .name n =>
        let b := if a.globals.contains n then 1 else 0
        match a.defs.find? (fun d => d.1 == n) with
        | some (_, .abs v) => (nameOff n, 0xFFFF, 2, b, v.toNat)
        | some (_, .loc t o) => (nameOff n, index t, 0, b, o)
        | some (_, .block i) => (nameOff n, index 3, 1, b, i)
        | none => (nameOff n, 0, 0, 1, 0)
    bytesOfNat 8 (nm * 2 ^ 32 + sect * 2 ^ 16 + kind * 2 ^ 8 + bind) ++ bytesOfNat 8 v ++ List.replicate 8 0
  let symtab := List.replicate 24 0 ++ (syms.map record).flatten
  let blocks := (a.blocks.map (fun (n, start, k) => bytesOfNat 8 (number (.name n) * 2 ^ 32 + (k - 1)) ++ bytesOfNat 8 start)).flatten
  let sect (t : Nat) : Section :=
    let b := a.buf t
    if t = 3 then ⟨0, 3, 0, 0, blocks.length, 0, blocks⟩
    else ⟨0, t, b.align, 0, a.off t, 0, b.bytes⟩
  let relocs := types.filterMap (fun t =>
    let rs := (a.buf t).relocs
    if rs.isEmpty then none
    else
      let bs := (rs.map (fun r => bytesOfNat 8 r.place ++ bytesOfNat 8 (number r.ref * 2 ^ 32 + r.type * 2 ^ 24) ++ bytesOfWord r.add)).flatten
      some (⟨0, 0x0A, 3, index t, bs.length, 0, bs⟩ : Section))
  ⟨false, 0, ⟨0, 0, 0, 0, 0, 0, []⟩ :: nameSections strtab (types.map sect ++
    [⟨0, 8, 3, 0, symtab.length, 0, symtab⟩, ⟨0, 9, 0, 0, 0, 0, []⟩] ++ relocs)⟩

/-- hordal-as on parsed lines. -/
def assemble (ls : List Line) : Except AsmError Tof := do return (← assembleLines ls).object

end Sys2Proof.Machine
end

