-- ==== Sys2Proof/Machine/AsmText.lean ====
section
/-!
DEFINITION. The text of an assembly source (R259 to R266): lines, names, numbers, expressions, operands and directives, read
into the statements that Asm assembles.
-/
namespace Sys2Proof.Machine

/-- A token. -/
inductive Tok where
  | name (n : String)
  | num (v : Nat) (hex : Bool)
  /-- a number with a point or an exponent; its two parts serve major.minor -/
  | dec (d : Dec) (whole frac : Nat)
  | str (bs : List Byte)
  | sym (c : Char)
  /-- << and >> -/
  | shl | shr
  deriving DecidableEq, Repr

/-! ### Characters -/

/-- A letter, an underscore or a period: what a name begins with. -/
def nameStart (c : Char) : Bool := c.isAlpha || c == '_' || c == '.'
/-- What a name goes on with. -/
def nameChar (c : Char) : Bool := nameStart c || c.isDigit

/-- The value of a digit in a base, if it is one. -/
def digitIn (base : Nat) (c : Char) : Option Nat :=
  let n := c.toNat
  let d := if 48 ≤ n ∧ n ≤ 57 then some (n - 48) else if 65 ≤ n ∧ n ≤ 70 then some (n - 55) else if 97 ≤ n ∧ n ≤ 102 then some (n - 87) else none
  match d with | some k => if k < base then some k else none | none => none

/-- Digits of a base, with underscores between them: the value, how many digits, the rest. -/
def digits (base : Nat) : List Char → Nat → Nat → Nat × Nat × List Char
  | [], acc, k => (acc, k, [])
  | c :: cs, acc, k =>
    match digitIn base c with
    | some d => digits base cs (acc * base + d) (k + 1)
    | none =>
      if c = '_' ∧ 0 < k then
        match cs with
        | d :: _ => if (digitIn base d).isSome then digits base cs acc k else (acc, k, c :: cs)
        | [] => (acc, k, [c])
      else (acc, k, c :: cs)

/-- An exponent: e, a sign, digits. -/
def exponent : List Char → Option (Int × List Char)
  | c :: cs =>
    if c = 'e' ∨ c = 'E' then
      match cs with
      | '-' :: r => (let (v, k, rest) := digits 10 r 0 0; if k = 0 then none else some (-(Int.ofNat v), rest))
      | '+' :: r => (let (v, k, rest) := digits 10 r 0 0; if k = 0 then none else some (Int.ofNat v, rest))
      | r => (let (v, k, rest) := digits 10 r 0 0; if k = 0 then none else some (Int.ofNat v, rest))
    else none
  | [] => none

/-- A number (R260). -/
def number (cs : List Char) : Option (Tok × List Char) :=
  match cs with
  | '0' :: x :: r =>
    if x = 'x' ∨ x = 'X' then (let (v, k, rest) := digits 16 r 0 0; if k = 0 then none else some (.num v true, rest))
    else if x = 'b' ∨ x = 'B' then (let (v, k, rest) := digits 2 r 0 0; if k = 0 then none else some (.num v false, rest))
    else decimal cs
  | _ => decimal cs
where
  /-- A decimal number, with a point or an exponent or without. -/
  decimal (cs : List Char) : Option (Tok × List Char) :=
    let (v, k, rest) := digits 10 cs 0 0
    if k = 0 then none
    else
      match rest with
      | '.' :: r =>
        let (f, n, rest) := digits 10 r 0 0
        if n = 0 then none
        else
          match exponent rest with
          | some (x, rest) => some (.dec ⟨false, v * 10 ^ n + f, x - Int.ofNat n⟩ v f, rest)
          | none => some (.dec ⟨false, v * 10 ^ n + f, -(Int.ofNat n)⟩ v f, rest)
      | _ =>
        match exponent rest with
        | some (x, rest) => some (.dec ⟨false, v, x⟩ v 0, rest)
        | none => some (.num v false, rest)

/-- The tokens of a line; a comment runs from a semicolon to the end. -/
def tokens : Nat → List Char → Option (List Tok)
  | 0, _ => none
  | _ + 1, [] => some []
  | fuel + 1, c :: cs =>
    if c = ';' then some []
    else if c = ' ' ∨ c = '\t' ∨ c = '\r' then tokens fuel cs
    else if c = '"' then
      let s := cs.takeWhile (· != '"')
      if s.length = cs.length then none
      else (tokens fuel (cs.drop (s.length + 1))).map (fun ts => .str (s.map (fun x => BitVec.ofNat 8 x.toNat)) :: ts)
    else if c.isDigit then
      match number (c :: cs) with
      | some (t, rest) => if rest.length ≤ cs.length then (tokens fuel rest).map (fun ts => t :: ts) else none
      | none => none
    else if nameStart c then
      let n := (c :: cs).takeWhile nameChar
      if 255 < n.length then none
      else (tokens fuel (cs.drop (n.length - 1))).map (fun ts => .name (String.ofList n) :: ts)
    else if c = '<' then (match cs with | '<' :: r => (tokens fuel r).map (fun ts => .shl :: ts) | _ => none)
    else if c = '>' then (match cs with | '>' :: r => (tokens fuel r).map (fun ts => .shr :: ts) | _ => none)
    else if "+-*/%&^|~(),:=$?!".toList.contains c then (tokens fuel cs).map (fun ts => .sym c :: ts)
    else none

/-! ### Names of the language -/

/-- The registers: s0 to s191, h0 to h15, v0 to v255, p0 to p15, in either case (R262). -/
def register (n : String) : Option Opnd :=
  match n.toList with
  | c :: cs =>
    let (v, k, rest) := digits 10 cs 0 0
    if k = 0 ∨ !rest.isEmpty ∨ cs.contains '_' ∨ (1 < cs.length ∧ cs.head? = some '0') then none
    else match c.toLower with
      | 's' => if v ≤ 191 then some (.s v) else none
      | 'h' => if v ≤ 15 then some (.s (192 + v)) else none
      | 'v' => if v ≤ 255 then some (.v v) else none
      | 'p' => if v ≤ 15 then some (.p false v) else none
      | _ => none
  | [] => none

/-- The directives by name. -/
def directiveNames : List String := [".scode", ".rodata", ".data", ".bss", ".align", ".byte", ".half", ".word", ".dword", ".f32",
  ".ascii", ".space", ".equ", ".global", ".block", ".endblock", ".live", ".layout", ".scales", ".task", ".resources", ".needcap"]

/-- Names that the language keeps (R259). -/
def reservedName (n : String) : Bool :=
  (register n).isSome || isSpecial n || directiveNames.contains n.toLower || n == "." ||
    scalarRows.any (fun r => r.1 == n.toUpper) || laneRows.any (fun r => r.1 == n.toUpper) ||
    [gAop, gBrc, gCond, gHint, gSide, gRed, gHalf, gPart, gSeg, gType, gMem, gOrder, gScope, gCv, gExt].any
      (fun g => g.any (fun e => "." ++ e.1 == n.toLower))

/-! ### Expressions, by Table 1 -/

/-- The operator that a token is, with its level; level 1 binds tightest. -/
def binOp : Tok → Option (BinOp × Nat)
  | .sym '*' => some (.mul, 2)
  | .sym '/' => some (.div, 2)
  | .sym '%' => some (.rem, 2)
  | .sym '+' => some (.add, 3)
  | .sym '-' => some (.sub, 3)
  | .shl => some (.shl, 4)
  | .shr => some (.shr, 4)
  | .sym '&' => some (.and, 5)
  | .sym '^' => some (.xor, 6)
  | .sym '|' => some (.or, 7)
  | _ => none

/-- An expression of a level: 1 is a unary one or a primary, 7 any. The rest of the tokens is answered beside it. `left`
holds what stands to the left of the operator that comes next. -/
def parseExpr : Nat → Nat → Option Expr → List Tok → Option (Expr × List Tok)
  | 0, _, _, _ => none
  | fuel + 1, level, some l, ts =>
    match ts with
    | t :: rest =>
      match binOp t with
      | some (op, k) =>
        if k = level then
          match parseExpr fuel (level - 1) none rest with
          | some (r, rest) => parseExpr fuel level (some (.bin op l r)) rest
          | none => none
        else some (l, ts)
      | none => some (l, ts)
    | [] => some (l, [])
  | fuel + 1, level, none, ts =>
    if 1 < level then
      match parseExpr fuel (level - 1) none ts with
      | some (l, rest) => parseExpr fuel level (some l) rest
      | none => none
    else
      match ts with
      | .num v hex :: rest => some (.num v hex, rest)
      | .sym '-' :: rest => (parseExpr fuel 1 none rest).map (fun (e, r) => (.neg e, r))
      | .sym '~' :: rest => (parseExpr fuel 1 none rest).map (fun (e, r) => (.not e, r))
      | .sym '(' :: rest =>
        match parseExpr fuel 7 none rest with
        | some (e, .sym ')' :: r) => some (e, r)
        | _ => none
      | .name n :: rest =>
        match (if n = "lo32" ∨ n = "hi32" then rest else []) with
        | .sym '(' :: inner =>
          match parseExpr fuel 7 none inner with
          | some (e, .sym ')' :: r) => some (if n = "lo32" then .lo32 e else .hi32 e, r)
          | _ => none
        | _ => if n = "." then some (.here, rest) else if reservedName n then none else some (.name n, rest)
      | _ => none

/-- The tokens as one expression. -/
def exprOf (ts : List Tok) : Option Expr :=
  match parseExpr (20 * ts.length + 20) 7 none ts with
  | some (e, []) => some e
  | _ => none

/-- Expressions side by side, each as long as it can be (the extents of R270). DESIGN CHOICE (log 67). -/
def exprsOf : Nat → List Tok → Option (List Expr)
  | 0, _ => none
  | _ + 1, [] => some []
  | fuel + 1, ts =>
    match parseExpr (20 * ts.length + 20) 7 none ts with
    | some (e, rest) => (exprsOf fuel rest).map (fun es => e :: es)
    | none => none

/-! ### Operands -/

/-- Split at a token outside parentheses. -/
def splitAt (c : Char) : List Tok → Nat → List Tok → List (List Tok)
  | [], _, acc => [acc.reverse]
  | t :: ts, depth, acc =>
    if t = .sym '(' then splitAt c ts (depth + 1) (t :: acc)
    else if t = .sym ')' then splitAt c ts (depth - 1) (t :: acc)
    else if t = .sym c ∧ depth = 0 then acc.reverse :: splitAt c ts 0 []
    else splitAt c ts depth (t :: acc)

/-- Operands separated by commas; no operand at all where there is no token. -/
def operandsOf (ts : List Tok) : List (List Tok) := if ts.isEmpty then [] else splitAt ',' ts 0 []

/-- What follows the base of a lane memory operand: index, scale, offset (R264). -/
def laneTail (k : Nat) (ts : List Tok) : Option Opnd :=
  let off (x : Option Index) (scale : Option Expr) (ts : List Tok) : Option Opnd :=
    match ts with
    | [] => some (.lmem k x scale none)
    | .sym '+' :: rest => (exprOf rest).map (fun e => .lmem k x scale (some e))
    | .sym '-' :: _ => (exprOf ts).map (fun e => .lmem k x scale (some e))
    | _ => none
  match ts with
  | .sym '+' :: .name n :: rest =>
    match register n with
    | some (.v v) =>
      match rest with
      | .sym '*' :: .num s h :: rest => off (some (.v v)) (some (.num s h)) rest
      | _ => off (some (.v v)) none rest
    | _ => off none none ts
  | .sym '+' :: .num v h :: .sym '*' :: .num s g :: rest => off (some (.num (.num v h))) (some (.num s g)) rest
  | .sym '+' :: .sym '-' :: .num v h :: .sym '*' :: .num s g :: rest => off (some (.num (.neg (.num v h)))) (some (.num s g)) rest
  | _ => off none none ts

/-- One operand. -/
def operand (ts : List Tok) : Option Opnd :=
  match ts with
  | [.name n] => match register n with | some r => some r | none => if isSpecial n then some (.val (.name n)) else (exprOf ts).map .val
  | [.sym '!', .name n] => match register n with | some (.p _ k) => some (.p true k) | _ => none
  | [.sym '$', .num k false] => if k ≤ 7 then some (.slot k) else none
  | [.dec d _ _] => some (.dec d)
  | [.sym '-', .dec d _ _] => some (.dec { d with neg := true })
  | .sym '(' :: .sym '$' :: .num k false :: rest =>
    if k ≤ 7 ∧ rest.getLast? = some (.sym ')') then laneTail k rest.dropLast else none
  | .sym '(' :: .name n :: rest =>
    match register n with
    | some (.s a) =>
      match rest with
      | [.sym ')'] => some (.smem a none)
      | .sym '+' :: e => if e.getLast? = some (.sym ')') then (exprOf e.dropLast).map (fun e => .smem a (some e)) else none
      | _ => none
    | some _ => none
    | none => (exprOf ts).map .val
  | _ => (exprOf ts).map .val

/-- A list of answers, if all are there. -/
def allSome {α β : Type} (f : α → Option β) : List α → Option (List β)
  | [] => some []
  | a :: as => match f a, allSome f as with | some b, some bs => some (b :: bs) | _, _ => none

/-- Cut a name at its periods. -/
def dotted (cs : List Char) : List String :=
  let go := cs.foldl (fun (acc : List (List Char)) c => if c = '.' then [] :: acc else
    match acc with | x :: xs => (c :: x) :: xs | [] => [[c]]) [[]]
  (go.map (fun x => String.ofList x.reverse)).reverse

/-- An instruction: mnemonic with suffixes, guard, operands (R261, R262, R266). -/
def insnOf (n : String) (ts : List Tok) : Option Insn :=
  match dotted n.toList with
  | [] => none
  | m :: sfx =>
    let (g, ts) : Option (Bool × Nat) × List Tok := match ts with
      | .sym '?' :: .sym '!' :: .name p :: rest => (match register p with | some (.p _ k) => (some (true, k), rest) | _ => (none, ts))
      | .sym '?' :: .name p :: rest => (match register p with | some (.p _ k) => (some (false, k), rest) | _ => (none, ts))
      | _ => (none, ts)
    let ts := match g, ts with | some _, .sym ',' :: rest => rest | _, _ => ts
    (allSome operand (operandsOf ts)).map (fun ops => ⟨m.toUpper, sfx.map String.toLower, g, ops⟩)

/-! ### Directives -/

/-- A keyword with its values: extents side by side, or c:n. -/
def keyword (ts : List Tok) : Option (String × List Expr) :=
  match ts with
  | .name k :: .sym '=' :: rest =>
    if rest.contains (.sym ':') then (allSome exprOf (splitAt ':' rest 0 [])).map (fun es => (k.toLower, es))
    else (exprsOf (rest.length + 1) rest).map (fun es => (k.toLower, es))
  | _ => none

/-- An item of .live. -/
def liveItem (ts : List Tok) : Option LiveItem :=
  match ts with
  | [.name a] =>
    match register a with
    | some (.s n) => some (.s n n) | some (.v n) => some (.v n n) | some (.p _ n) => some (.p n n) | _ => none
  | [.name a, .sym '-', .name b] =>
    match register a, register b with
    | some (.s n), some (.s m) => some (.s n m)
    | some (.v n), some (.v m) => some (.v n m)
    | some (.p _ n), some (.p _ m) => some (.p n m)
    | _, _ => none
  | .name c :: rest =>
    if c.toLower = "csp" then
      match splitAt ':' rest 0 [] with
      | [e, k] => match exprOf e, exprOf k with | some e, some k => some (.csp e k) | _, _ => none
      | _ => none
    else none
  | _ => none

/-- A number of .f32. -/
def floatOf (ts : List Tok) : Option (Sum Expr Dec) :=
  match ts with
  | [.dec d _ _] => some (.inr d)
  | [.sym '-', .dec d _ _] => some (.inr { d with neg := true })
  | _ => (exprOf ts).map .inl

/-- A directive (Table 3). -/
def directiveOf (n : String) (ts : List Tok) : Option Directive :=
  let ops := operandsOf ts
  let exprs := allSome exprOf ops
  let name1 : Option String := match ts with | [.name x] => if reservedName x then none else some x | _ => none
  match n with
  | ".scode" => if ts.isEmpty then some (.sect 1) else none
  | ".rodata" => if ts.isEmpty then some (.sect 5) else none
  | ".data" => if ts.isEmpty then some (.sect 6) else none
  | ".bss" => if ts.isEmpty then some (.sect 7) else none
  | ".align" => match exprs with | some [e] => some (.align e) | _ => none
  | ".byte" => exprs.map (.data 1)
  | ".half" => exprs.map (.data 2)
  | ".word" => exprs.map (.data 4)
  | ".dword" => exprs.map (.data 8)
  | ".f32" => (allSome floatOf ops).map .f32
  | ".ascii" => match ts with | [.str bs] => some (.ascii bs) | _ => none
  | ".space" => match exprs with | some [e] => some (.space e) | _ => none
  | ".equ" => match ops with
    | [[.name x], e] => if reservedName x then none else (exprOf e).map (.equ x)
    | _ => none
  | ".global" => (allSome (fun o => match o with | [Tok.name x] => if reservedName x then none else some x | _ => none) ops).map .globl
  | ".block" => name1.map .block
  | ".endblock" => if ts.isEmpty then some .endblock else none
  | ".live" => (allSome liveItem ops).map .live
  | ".layout" => (allSome keyword ops).map .layout
  | ".task" => (allSome keyword ops).map .task
  | ".scales" => match exprs with | some (a :: b :: vs) => some (.scales a b vs) | _ => none
  | ".resources" => match ops with
    | [[.name x], a, b] => match keyword a, keyword b with
      | some ("vgrp", [v]), some ("csp", [c]) => if reservedName x then none else some (.resources x v c)
      | _, _ => none
    | _ => none
  | ".needcap" => match ops with
    | [i, [.dec _ ma mi]] => (exprOf i).map (fun i => .needcap i (.num ma false) (.num mi false) none)
    | [i, [.dec _ ma mi], w, m] => match exprOf i, exprOf w, exprOf m with
      | some i, some w, some m => some (.needcap i (.num ma false) (.num mi false) (some (w, m)))
      | _, _, _ => none
    | _ => none
  | _ => none

/-! ### Lines -/

/-- A statement without its label. -/
def statementOf (label : Option String) (ts : List Tok) : Except AsmError Line :=
  match ts with
  | [] => .ok ⟨label, none, none⟩
  | .name n :: rest =>
    if directiveNames.contains n.toLower then
      match directiveOf n.toLower rest with
      | some d => .ok ⟨label, none, some d⟩
      | none => .error .text
    else match insnOf n rest with
      | some i => .ok ⟨label, some i, none⟩
      | none => .error .text
  | _ => .error .text

/-- A line (R259). -/
def lineOf (cs : List Char) : Except AsmError Line :=
  if cs.any (fun c => decide (127 < c.toNat)) then .error .text
  else
    match tokens (2 * cs.length + 2) cs with
    | none => .error .text
    | some (.name n :: .sym ':' :: ts) => if reservedName n then .error .name else statementOf (some n) ts
    | some ts => statementOf none ts

/-- The lines of a text. -/
def textLines (cs : List Char) : List (List Char) :=
  let go := cs.foldl (fun (acc : List (List Char)) c => if c = '\n' then [] :: acc else
    match acc with | x :: xs => (c :: x) :: xs | [] => [[c]]) [[]]
  (go.map List.reverse).reverse

/-- hordal-as: a source text to an object (R259 to R278). -/
def assembleText (source : List Char) : Except AsmError Tof := do
  let ls ← (textLines source).mapM lineOf
  assemble ls

end Sys2Proof.Machine
end

