-- ==== Sys2Proof/Tests/Slice0.lean ====
section
/-!
SUPPORT. Tests: words of the spec decode to what they stand for; ill-formed terms are refused; for each statement, states and
operands that meet its hypotheses, clause by clause. No name of this file is used elsewhere.
-/
namespace Sys2Proof.Tests
open Sys2Proof Sys2Proof.Machine

/-! ### Decoding: Tables 5, 12 and 13 of the encodings -/

/-- Table 5: words with distinct field values decode to their instruction. -/
theorem test_decode_scalar_1 :
    decodeScalar 0x0205090E 0x0 = .ok (.add 5 9 14) ∧
    decodeScalar 0x4005090E 0x0 = .ok (.addImm 5 9 14) ∧
    decodeScalar 0x4105090E 0x12345 = .ok (.addSx 5 9 14 0x12345) ∧
    decodeScalar 0x0405090E 0x0 = .ok (.sub 5 9 14) ∧
    decodeScalar 0x4205090E 0x0 = .ok (.subImm 5 9 14) ∧
    decodeScalar 0x4305090E 0x12345 = .ok (.subSx 5 9 14 0x12345) ∧
    decodeScalar 0x0605090E 0x0 = .ok (.mul 5 9 14) ∧
    decodeScalar 0x4405090E 0x0 = .ok (.mulImm 5 9 14) ∧
    decodeScalar 0x4505090E 0x12345 = .ok (.mulSx 5 9 14 0x12345) ∧
    decodeScalar 0x0805090E 0x0 = .ok (.mulh 5 9 14) ∧
    decodeScalar 0x4605090E 0x0 = .ok (.mulhImm 5 9 14) ∧
    decodeScalar 0x4705090E 0x12345 = .ok (.mulhSx 5 9 14 0x12345) ∧
    decodeScalar 0x0A05090E 0x0 = .ok (.mulhn 5 9 14) ∧
    decodeScalar 0x4805090E 0x0 = .ok (.mulhnImm 5 9 14) ∧
    decodeScalar 0x4905090E 0x12345 = .ok (.mulhnSx 5 9 14 0x12345) ∧
    decodeScalar 0x0C05090E 0x0 = .ok (.div 5 9 14) ∧
    decodeScalar 0x4A05090E 0x0 = .ok (.divImm 5 9 14) ∧
    decodeScalar 0x4B05090E 0x12345 = .ok (.divSx 5 9 14 0x12345) ∧
    decodeScalar 0x0E05090E 0x0 = .ok (.divn 5 9 14) ∧
    decodeScalar 0x4C05090E 0x0 = .ok (.divnImm 5 9 14) ∧
    decodeScalar 0x4D05090E 0x12345 = .ok (.divnSx 5 9 14 0x12345) ∧
    decodeScalar 0x1005090E 0x0 = .ok (.rem 5 9 14) ∧
    decodeScalar 0x4E05090E 0x0 = .ok (.remImm 5 9 14) ∧
    decodeScalar 0x4F05090E 0x12345 = .ok (.remSx 5 9 14 0x12345) ∧
    decodeScalar 0x1205090E 0x0 = .ok (.remn 5 9 14) ∧
    decodeScalar 0x5005090E 0x0 = .ok (.remnImm 5 9 14) :=
  ⟨rfl, rfl, rfl, rfl, rfl, rfl, rfl, rfl, rfl, rfl, rfl, rfl, rfl, rfl, rfl, rfl, rfl, rfl, rfl, rfl, rfl, rfl, rfl, rfl, rfl, rfl⟩

/-- Table 5: words with distinct field values decode to their instruction. -/
theorem test_decode_scalar_2 :
    decodeScalar 0x5105090E 0x12345 = .ok (.remnSx 5 9 14 0x12345) ∧
    decodeScalar 0x1405090E 0x0 = .ok (.and 5 9 14) ∧
    decodeScalar 0x5205090E 0x0 = .ok (.andImm 5 9 14) ∧
    decodeScalar 0x5305090E 0x12345 = .ok (.andSx 5 9 14 0x12345) ∧
    decodeScalar 0x1605090E 0x0 = .ok (.or 5 9 14) ∧
    decodeScalar 0x5405090E 0x0 = .ok (.orImm 5 9 14) ∧
    decodeScalar 0x5505090E 0x12345 = .ok (.orSx 5 9 14 0x12345) ∧
    decodeScalar 0x1805090E 0x0 = .ok (.xor 5 9 14) ∧
    decodeScalar 0x5605090E 0x0 = .ok (.xorImm 5 9 14) ∧
    decodeScalar 0x5705090E 0x12345 = .ok (.xorSx 5 9 14 0x12345) ∧
    decodeScalar 0x1A05090E 0x0 = .ok (.andn 5 9 14) ∧
    decodeScalar 0x5805090E 0x0 = .ok (.andnImm 5 9 14) ∧
    decodeScalar 0x5905090E 0x12345 = .ok (.andnSx 5 9 14 0x12345) ∧
    decodeScalar 0x1C05090E 0x0 = .ok (.shl 5 9 14) ∧
    decodeScalar 0x5A05090E 0x0 = .ok (.shlImm 5 9 14) ∧
    decodeScalar 0x5B05090E 0x12345 = .ok (.shlSx 5 9 14 0x12345) ∧
    decodeScalar 0x1E05090E 0x0 = .ok (.shr 5 9 14) ∧
    decodeScalar 0x5C05090E 0x0 = .ok (.shrImm 5 9 14) ∧
    decodeScalar 0x5D05090E 0x12345 = .ok (.shrSx 5 9 14 0x12345) ∧
    decodeScalar 0x2005090E 0x0 = .ok (.sar 5 9 14) ∧
    decodeScalar 0x5E05090E 0x0 = .ok (.sarImm 5 9 14) ∧
    decodeScalar 0x5F05090E 0x12345 = .ok (.sarSx 5 9 14 0x12345) ∧
    decodeScalar 0x2205090E 0x0 = .ok (.rot 5 9 14) ∧
    decodeScalar 0x6005090E 0x0 = .ok (.rotImm 5 9 14) ∧
    decodeScalar 0x6105090E 0x12345 = .ok (.rotSx 5 9 14 0x12345) ∧
    decodeScalar 0x2405090E 0x0 = .ok (.min 5 9 14) :=
  ⟨rfl, rfl, rfl, rfl, rfl, rfl, rfl, rfl, rfl, rfl, rfl, rfl, rfl, rfl, rfl, rfl, rfl, rfl, rfl, rfl, rfl, rfl, rfl, rfl, rfl, rfl⟩

/-- Table 5: words with distinct field values decode to their instruction. -/
theorem test_decode_scalar_3 :
    decodeScalar 0x6205090E 0x0 = .ok (.minImm 5 9 14) ∧
    decodeScalar 0x6305090E 0x12345 = .ok (.minSx 5 9 14 0x12345) ∧
    decodeScalar 0x2605090E 0x0 = .ok (.max 5 9 14) ∧
    decodeScalar 0x6405090E 0x0 = .ok (.maxImm 5 9 14) ∧
    decodeScalar 0x6505090E 0x12345 = .ok (.maxSx 5 9 14 0x12345) ∧
    decodeScalar 0x2805090E 0x0 = .ok (.minn 5 9 14) ∧
    decodeScalar 0x6605090E 0x0 = .ok (.minnImm 5 9 14) ∧
    decodeScalar 0x6705090E 0x12345 = .ok (.minnSx 5 9 14 0x12345) ∧
    decodeScalar 0x2A05090E 0x0 = .ok (.maxn 5 9 14) ∧
    decodeScalar 0x6805090E 0x0 = .ok (.maxnImm 5 9 14) ∧
    decodeScalar 0x6905090E 0x12345 = .ok (.maxnSx 5 9 14 0x12345) ∧
    decodeScalar 0x2C05090E 0x0 = .ok (.cmp 5 9 14) ∧
    decodeScalar 0x6A05090E 0x0 = .ok (.cmpImm 5 9 14) ∧
    decodeScalar 0x6B05090E 0x12345 = .ok (.cmpSx 5 9 14 0x12345) ∧
    decodeScalar 0x2E050900 0x0 = .ok (.clz 5 9) ∧
    decodeScalar 0x30050900 0x0 = .ok (.popc 5 9) ∧
    decodeScalar 0x3205090E 0x0 = .ok (.sel 5 9 14) ∧
    decodeScalar 0x3405090E 0x0 = .ok (.bfx 5 9 14) ∧
    decodeScalar 0x3605090E 0x0 = .ok (.bfi 5 9 14) ∧
    decodeScalar 0x3805090E 0x0 = .ok (.fadd 5 9 14) ∧
    decodeScalar 0x3A05090E 0x0 = .ok (.fmul 5 9 14) ∧
    decodeScalar 0x3C05090E 0x0 = .ok (.ffma 5 9 14) ∧
    decodeScalar 0x3E05090E 0x0 = .ok (.fcmp 5 9 14) ∧
    decodeScalar 0x6C05090E 0x0 = .ok (.fcvt 5 9 14) ∧
    decodeScalar 0x6E050009 0x0 = .ok (.li 5 9) ∧
    decodeScalar 0x6F050009 0x12345 = .ok (.liSx 5 9 0x12345) :=
  ⟨rfl, rfl, rfl, rfl, rfl, rfl, rfl, rfl, rfl, rfl, rfl, rfl, rfl, rfl, rfl, rfl, rfl, rfl, rfl, rfl, rfl, rfl, rfl, rfl, rfl, rfl⟩

/-- Table 5: words with distinct field values decode to their instruction. -/
theorem test_decode_scalar_4 :
    decodeScalar 0x70050009 0x0 = .ok (.lih 5 9) ∧
    decodeScalar 0x71050009 0x12345 = .ok (.lihSx 5 9 0x12345) ∧
    decodeScalar 0x7205090E 0x0 = .ok (.sld 5 9 14) ∧
    decodeScalar 0x7305090E 0x12345 = .ok (.sldSx 5 9 14 0x12345) ∧
    decodeScalar 0x7405090E 0x0 = .ok (.sst 5 9 14) ∧
    decodeScalar 0x7505090E 0x12345 = .ok (.sstSx 5 9 14 0x12345) ∧
    decodeScalar 0x7605090E 0x0 = .ok (.slds 5 9 14) ∧
    decodeScalar 0x7705090E 0x12345 = .ok (.sldsSx 5 9 14 0x12345) ∧
    decodeScalar 0x7805090E 0x0 = .ok (.ssts 5 9 14) ∧
    decodeScalar 0x7905090E 0x12345 = .ok (.sstsSx 5 9 14 0x12345) ∧
    decodeScalar 0x7B05090E 0x12345 = .ok (.satom 5 9 14 0x12345) ∧
    decodeScalar 0x80000005 0x0 = .ok (.br 5) ∧
    decodeScalar 0x82000005 0x0 = .ok (.call 5) ∧
    decodeScalar 0x8405900E 0x0 = .ok (.brc 5 9 14) ∧
    decodeScalar 0x8619EC05 0x0 = .ok (.brm 1 9 14 3 5) ∧
    decodeScalar 0x88000005 0x0 = .ok (.rcv 5) ∧
    decodeScalar 0x8A000500 0x0 = .ok (.jmpi 5) ∧
    decodeScalar 0x8C000000 0x0 = .ok (.ret) ∧
    decodeScalar 0x8E050009 0x0 = .ok (.issue 5 9) ∧
    decodeScalar 0x90000000 0x0 = .ok (.exit) ∧
    decodeScalar 0x92149383 0x0 = .ok (.wait 5 9 14 3) ∧
    decodeScalar 0x9400001F 0x0 = .ok (.fence 3 7) ∧
    decodeScalar 0x96000000 0x0 = .ok (.nop) ∧
    decodeScalar 0xA0050980 0x0 = .ok (.barinit 5 9 1) ∧
    decodeScalar 0xA2050907 0x0 = .ok (.bararr 5 9 7) ∧
    decodeScalar 0xA4050907 0x0 = .ok (.barexp 5 9 7) :=
  ⟨rfl, rfl, rfl, rfl, rfl, rfl, rfl, rfl, rfl, rfl, rfl, rfl, rfl, rfl, rfl, rfl, rfl, rfl, rfl, rfl, rfl, rfl, rfl, rfl, rfl, rfl⟩

/-- Table 5: words with distinct field values decode to their instruction. -/
theorem test_decode_scalar_5 :
    decodeScalar 0xA705090E 0x12345 = .ok (.barwait 5 9 14 0x12345) ∧
    decodeScalar 0xA8000507 0x0 = .ok (.barinv 5 7) ∧
    decodeScalar 0xAA050900 0x0 = .ok (.barph 5 9) ∧
    decodeScalar 0xB0050900 0x0 = .ok (.cvjoin 5 9) ∧
    decodeScalar 0xB2000000 0x0 = .ok (.cvleave) ∧
    decodeScalar 0xB4000000 0x0 = .ok (.cvstep) ∧
    decodeScalar 0xB8000500 0x0 = .ok (.setfmtReg 5) ∧
    decodeScalar 0xBA000005 0x0 = .ok (.setfmtImm 5) ∧
    decodeScalar 0xBC000500 0x0 = .ok (.mma 5) ∧
    decodeScalar 0xBE050000 0x0 = .ok (.mfence 5) ∧
    decodeScalar 0xC0000500 0x0 = .ok (.mwait 5) ∧
    decodeScalar 0xC2050900 0x0 = .ok (.cpy 5 9) ∧
    decodeScalar 0xC4050900 0x0 = .ok (.cpym 5 9) ∧
    decodeScalar 0xC6050900 0x0 = .ok (.cpyr 5 9) ∧
    decodeScalar 0xC8050900 0x0 = .ok (.cpyx 5 9) ∧
    decodeScalar 0xD6090E03 0x0 = .ok (.nlsend 3 9 14 3) ∧
    decodeScalar 0xDE090E03 0x0 = .ok (.nlrecv 3 9 14 3) ∧
    decodeScalar 0xE0050900 0x0 = .ok (.tspawn 5 9) ∧
    decodeScalar 0xE2050900 0x0 = .ok (.tdep 5 9) ∧
    decodeScalar 0xE4000000 0x0 = .ok (.tdone) ∧
    decodeScalar 0xE605090E 0x0 = .ok (.qpush 5 9 14) ∧
    decodeScalar 0xE8050900 0x0 = .ok (.qpop 5 9) ∧
    decodeScalar 0xEA000000 0x0 = .ok (.flushred) ∧
    decodeScalar 0xF0000005 0x0 = .ok (.trap 5) ∧
    decodeScalar 0xF2000000 0x0 = .ok (.eret) ∧
    decodeScalar 0xF4050009 0x0 = .ok (.mfs 5 9) :=
  ⟨rfl, rfl, rfl, rfl, rfl, rfl, rfl, rfl, rfl, rfl, rfl, rfl, rfl, rfl, rfl, rfl, rfl, rfl, rfl, rfl, rfl, rfl, rfl, rfl, rfl, rfl⟩

/-- Table 5: words with distinct field values decode to their instruction. -/
theorem test_decode_scalar_6 :
    decodeScalar 0xF6050009 0x0 = .ok (.mts 5 9) ∧
    decodeScalar 0xF8000000 0x0 = .ok (.yield) ∧
    decodeScalar 0xFA000500 0x0 = .ok (.reggrow 5) ∧
    decodeScalar 0xFC000500 0x0 = .ok (.regshrink 5) ∧
    decodeScalar 0xFE000000 0x0 = .ok (.bkpt) :=
  ⟨rfl, rfl, rfl, rfl, rfl⟩

/-- The fields of the lane words below, as R248 lays them out: TYP 9, MOD 3, NEG 1, PRED 2, DST 6, SA 258, SB 7, SC 8. -/
def laneFields0 : LaneWord := ⟨9, 3, 1, 2, 6, 258, 7, 8, 0x155⟩

/-- Table 12: lane words decode to the instruction of their opcode, with every field. -/
theorem test_decode_lane_1 :
    decodeLane 0x010481C81A04070400000155 = .ok (.vfadd laneFields0) ∧
    decodeLane 0x810481C81A04070400000155 = .ok (.vfaddLi laneFields0) ∧
    decodeLane 0x011481C81A04070400000155 = .ok (.vfsub laneFields0) ∧
    decodeLane 0x811481C81A04070400000155 = .ok (.vfsubLi laneFields0) ∧
    decodeLane 0x012481C81A04070400000155 = .ok (.vfmul laneFields0) ∧
    decodeLane 0x812481C81A04070400000155 = .ok (.vfmulLi laneFields0) ∧
    decodeLane 0x013481C81A04070400000155 = .ok (.vffma laneFields0) ∧
    decodeLane 0x813481C81A04070400000155 = .ok (.vffmaLi laneFields0) ∧
    decodeLane 0x014481C81A04070400000155 = .ok (.vfmin laneFields0) ∧
    decodeLane 0x814481C81A04070400000155 = .ok (.vfminLi laneFields0) ∧
    decodeLane 0x015481C81A04070400000155 = .ok (.vfmax laneFields0) ∧
    decodeLane 0x815481C81A04070400000155 = .ok (.vfmaxLi laneFields0) ∧
    decodeLane 0x016481C81A04070400000155 = .ok (.vfrcp laneFields0) ∧
    decodeLane 0x017481C81A04070400000155 = .ok (.vfrsq laneFields0) ∧
    decodeLane 0x018481C81A04070400000155 = .ok (.vfsqrt laneFields0) ∧
    decodeLane 0x019481C81A04070400000155 = .ok (.vfdiv laneFields0) ∧
    decodeLane 0x819481C81A04070400000155 = .ok (.vfdivLi laneFields0) ∧
    decodeLane 0x01A481C81A04070400000155 = .ok (.vfexp2 laneFields0) ∧
    decodeLane 0x01B481C81A04070400000155 = .ok (.vflog2 laneFields0) ∧
    decodeLane 0x01C481C81A04070400000155 = .ok (.vfsin laneFields0) ∧
    decodeLane 0x01D481C81A04070400000155 = .ok (.vfcos laneFields0) ∧
    decodeLane 0x01E481C81A04070400000155 = .ok (.vfcmp laneFields0) ∧
    decodeLane 0x81E481C81A04070400000155 = .ok (.vfcmpLi laneFields0) ∧
    decodeLane 0x01F481C81A04070400000155 = .ok (.vfclass laneFields0) ∧
    decodeLane 0x020481C81A04070400000155 = .ok (.vfrnd laneFields0) ∧
    decodeLane 0x040481C81A04070400000155 = .ok (.vadd laneFields0) ∧
    decodeLane 0x840481C81A04070400000155 = .ok (.vaddLi laneFields0) ∧
    decodeLane 0x041481C81A04070400000155 = .ok (.vsub laneFields0) ∧
    decodeLane 0x841481C81A04070400000155 = .ok (.vsubLi laneFields0) ∧
    decodeLane 0x042481C81A04070400000155 = .ok (.vmul laneFields0) ∧
    decodeLane 0x842481C81A04070400000155 = .ok (.vmulLi laneFields0) ∧
    decodeLane 0x043481C81A04070400000155 = .ok (.vmulh laneFields0) ∧
    decodeLane 0x843481C81A04070400000155 = .ok (.vmulhLi laneFields0) ∧
    decodeLane 0x044481C81A04070400000155 = .ok (.vmad laneFields0) :=
  ⟨rfl, rfl, rfl, rfl, rfl, rfl, rfl, rfl, rfl, rfl, rfl, rfl, rfl, rfl, rfl, rfl, rfl, rfl, rfl, rfl, rfl, rfl, rfl, rfl, rfl, rfl, rfl, rfl, rfl, rfl, rfl, rfl, rfl, rfl⟩

/-- Table 12: lane words decode to the instruction of their opcode, with every field. -/
theorem test_decode_lane_2 :
    decodeLane 0x844481C81A04070400000155 = .ok (.vmadLi laneFields0) ∧
    decodeLane 0x045481C81A04070400000155 = .ok (.vmin laneFields0) ∧
    decodeLane 0x845481C81A04070400000155 = .ok (.vminLi laneFields0) ∧
    decodeLane 0x046481C81A04070400000155 = .ok (.vmax laneFields0) ∧
    decodeLane 0x846481C81A04070400000155 = .ok (.vmaxLi laneFields0) ∧
    decodeLane 0x047481C81A04070400000155 = .ok (.vabs laneFields0) ∧
    decodeLane 0x048481C81A04070400000155 = .ok (.vand laneFields0) ∧
    decodeLane 0x848481C81A04070400000155 = .ok (.vandLi laneFields0) ∧
    decodeLane 0x049481C81A04070400000155 = .ok (.vor laneFields0) ∧
    decodeLane 0x849481C81A04070400000155 = .ok (.vorLi laneFields0) ∧
    decodeLane 0x04A481C81A04070400000155 = .ok (.vxor laneFields0) ∧
    decodeLane 0x84A481C81A04070400000155 = .ok (.vxorLi laneFields0) ∧
    decodeLane 0x04B481C81A04070400000155 = .ok (.vshl laneFields0) ∧
    decodeLane 0x84B481C81A04070400000155 = .ok (.vshlLi laneFields0) ∧
    decodeLane 0x04C481C81A04070400000155 = .ok (.vshr laneFields0) ∧
    decodeLane 0x84C481C81A04070400000155 = .ok (.vshrLi laneFields0) ∧
    decodeLane 0x04D481C81A04070400000155 = .ok (.vsar laneFields0) ∧
    decodeLane 0x84D481C81A04070400000155 = .ok (.vsarLi laneFields0) ∧
    decodeLane 0x04E481C81A04070400000155 = .ok (.vbfx laneFields0) ∧
    decodeLane 0x84E481C81A04070400000155 = .ok (.vbfxLi laneFields0) ∧
    decodeLane 0x04F481C81A04070400000155 = .ok (.vbfi laneFields0) ∧
    decodeLane 0x84F481C81A04070400000155 = .ok (.vbfiLi laneFields0) ∧
    decodeLane 0x050481C81A04070400000155 = .ok (.vpopc laneFields0) ∧
    decodeLane 0x051481C81A04070400000155 = .ok (.vclz laneFields0) ∧
    decodeLane 0x052481C81A04070400000155 = .ok (.vcmp laneFields0) ∧
    decodeLane 0x852481C81A04070400000155 = .ok (.vcmpLi laneFields0) ∧
    decodeLane 0x053481C81A04070400000155 = .ok (.vsadd laneFields0) ∧
    decodeLane 0x853481C81A04070400000155 = .ok (.vsaddLi laneFields0) ∧
    decodeLane 0x054481C81A04070400000155 = .ok (.vssub laneFields0) ∧
    decodeLane 0x854481C81A04070400000155 = .ok (.vssubLi laneFields0) ∧
    decodeLane 0x080481C81A04070400000155 = .ok (.vsel laneFields0) ∧
    decodeLane 0x880481C81A04070400000155 = .ok (.vselLi laneFields0) ∧
    decodeLane 0x081481C81A04070400000155 = .ok (.pset laneFields0) ∧
    decodeLane 0x082481C81A04070400000155 = .ok (.pand laneFields0) :=
  ⟨rfl, rfl, rfl, rfl, rfl, rfl, rfl, rfl, rfl, rfl, rfl, rfl, rfl, rfl, rfl, rfl, rfl, rfl, rfl, rfl, rfl, rfl, rfl, rfl, rfl, rfl, rfl, rfl, rfl, rfl, rfl, rfl, rfl, rfl⟩

/-- Table 12: lane words decode to the instruction of their opcode, with every field. -/
theorem test_decode_lane_3 :
    decodeLane 0x083481C81A04070400000155 = .ok (.por laneFields0) ∧
    decodeLane 0x084481C81A04070400000155 = .ok (.pxor laneFields0) ∧
    decodeLane 0x085481C81A04070400000155 = .ok (.pnot laneFields0) ∧
    decodeLane 0x086481C81A04070400000155 = .ok (.vmask laneFields0) ∧
    decodeLane 0x0C0481C81A04070400000155 = .ok (.vcvt laneFields0) ∧
    decodeLane 0x0C1481C81A04070400000155 = .ok (.vpack laneFields0) ∧
    decodeLane 0x0C2481C81A04070400000155 = .ok (.vunpack laneFields0) ∧
    decodeLane 0x0C3481C81A04070400000155 = .ok (.vscale laneFields0) ∧
    decodeLane 0x100481C81A04070400000155 = .ok (.vshuf laneFields0) ∧
    decodeLane 0x101481C81A04070400000155 = .ok (.vbcast laneFields0) ∧
    decodeLane 0x102481C81A04070400000155 = .ok (.vrot laneFields0) ∧
    decodeLane 0x103481C81A04070400000155 = .ok (.vxlane laneFields0) ∧
    decodeLane 0x104481C81A04070400000155 = .ok (.vreadlane laneFields0) ∧
    decodeLane 0x105481C81A04070400000155 = .ok (.vwritelane laneFields0) ∧
    decodeLane 0x106481C81A04070400000155 = .ok (.viota laneFields0) ∧
    decodeLane 0x107481C81A04070400000155 = .ok (.vreduce laneFields0) ∧
    decodeLane 0x140481C81A04070400000155 = .ok (.vmov laneFields0) ∧
    decodeLane 0x940481C81A04070400000155 = .ok (.vmovi laneFields0) ∧
    decodeLane 0x200481C81A04070400000155 = .ok (.vld laneFields0) ∧
    decodeLane 0x201481C81A04070400000155 = .ok (.vst laneFields0) ∧
    decodeLane 0x202481C81A04070400000155 = .ok (.vldx laneFields0) ∧
    decodeLane 0x203481C81A04070400000155 = .ok (.vstx laneFields0) ∧
    decodeLane 0x204481C81A04070400000155 = .ok (.vlds laneFields0) ∧
    decodeLane 0x205481C81A04070400000155 = .ok (.vsts laneFields0) ∧
    decodeLane 0x206481C81A04070400000155 = .ok (.vldc laneFields0) ∧
    decodeLane 0x207481C81A04070400000155 = .ok (.vstp laneFields0) ∧
    decodeLane 0x208481C81A04070400000155 = .ok (.vpref laneFields0) ∧
    decodeLane 0x240481C81A04070400000155 = .ok (.vatom laneFields0) ∧
    decodeLane 0x241481C81A04070400000155 = .ok (.vred laneFields0) ∧
    decodeLane 0x242481C81A04070400000155 = .ok (.vaccrd laneFields0) ∧
    decodeLane 0x280481C81A04070400000155 = .ok (.vtrsend laneFields0) ∧
    decodeLane 0x281481C81A04070400000155 = .ok (.vtrrecv laneFields0) :=
  ⟨rfl, rfl, rfl, rfl, rfl, rfl, rfl, rfl, rfl, rfl, rfl, rfl, rfl, rfl, rfl, rfl, rfl, rfl, rfl, rfl, rfl, rfl, rfl, rfl, rfl, rfl, rfl, rfl, rfl, rfl, rfl, rfl⟩

/-! ### States and what a test asks of them -/

/-- A user-mode wave in slot 0 of core 0 at SPC 0, one fragment, 256 vector registers; its scalar registers hold `r`. -/
def st (r : Sparse 64 := []) : State :=
  let s := (State.reset.withWave []).atTurn 0 0 0
  match s.wave? 0 0 with
  | some w => s.setWave 0 0 { w with scl := r }
  | none => s
/-- The same with its wave changed. -/
def onW (s : State) (f : Wave → Wave) : State :=
  match s.wave? 0 0 with
  | some w => s.setWave 0 0 (f w)
  | none => s
/-- In supervisor mode. -/
def sup (s : State) : State := onW s (fun w => { w with trap := { w.trap with sup := true, tcause := 5 } })
/-- Its job has a handler at address 64. -/
def handler (s : State) : State := s.setReg (jobReg 0 0x60) 65
/-- Its fragment 0 changed. -/
def onF (s : State) (f : Frag → Frag) : State := onW s (fun w => { w with frags := w.frags.update 0 f })
/-- A second fragment in slot 1. -/
def two (s : State) : State := onW s (fun w => { w with frags := w.frags ++ [(1, ⟨1, 64, fmtReset, [], none, .run⟩)] })
/-- An access that has not landed. -/
def anOut (store : Bool) : Out := ⟨900, store, .none, 0, 1, false, true, 0, 0, false, 0, false, false, none, [0]⟩

/-- A region is live under a key and not retired. -/
def srv (s : State) (pa : Nat) (key : BitVec 10) : Bool := s.liveEntry (regionOf pa) == ⟨true, key, false⟩

/-- The gate lets the scalar instruction run, in a context of which `p` holds. -/
def runs (i : Instr) (s : State) (p : Ctx → Bool := fun _ => true) : Bool :=
  match gate i s with
  | .run c => p c
  | _ => false
/-- Some instructions all run. -/
def allRun (l : List Instr) (s : State) : Bool := l.all (fun i => runs i s)

/-- A lane word as the head of the lane queue, for some lanes. -/
def laneSt (i : Instr) (m : Mask := 1) (r : List Word := List.replicate 8 0) : State :=
  match encode i with
  | .lane w => (State.reset.withWave [⟨w, r, m, fmtReset, 1, 0, 0, 0, none, [], 0x0001000001000001, 65536, none, 0, [0]⟩]).atTurn 0 0 0
  | _ => State.reset
/-- The gate lets the lane instruction run, in a context of which `p` holds. -/
def lruns (i : Instr) (s : State) (p : LCtx → Bool := fun _ => true) : Bool :=
  match laneGate i s with
  | .run c => p c
  | _ => false
def allLanes (l : List Instr) : Bool := l.all (fun i => lruns i (laneSt i))
/-- A lane word of a type and a modifier: destination v6, sources v2, v4, v8, no guard. -/
def lw (typ : BitVec 5) (mod : BitVec 8 := 0) (sa sb sc : BitVec 9 := 0) (low : BitVec 31 := 0) (dst : BitVec 8 := 6) :
    LaneWord := ⟨typ, mod, 0, 0, dst, sa, sb, sc, low⟩
/-- Every lane of a mask. -/
def lanesAll (m : Mask) (p : Nat → Bool) : Bool := (List.range 128).all (fun l => !m.getLsbD l || p l)

/-! ### What no instruction may look like -/

/-- An ill-formed term for each check of R245, R257 and of the events: register field, descriptor base, SX immediate,
modifier, special register; lane type, modifier, guard, unused bits, source, pair, destination; units out of range. -/
theorem test_ill_formed :
    ([.add 208 1 2, .add 1 208 2, .add 1 2 255, .addSx 1 2 3 4, .issue 185 0, .issue 255 0, .cpy 1 12, .mma 0,
      .sld 1 2 0xE0, .sld 1 2 5, .sld 1 2 0x18, .sst 1 2 0xC0, .sst 1 2 0x08, .slds 1 2 0x10, .satom 1 2 0x00 1,
      .satom 1 2 0x40 0, .satom 1 2 0x40 9, .satom 1 2 0x40 0x01000001, .mfs 1 0x11, .mts 1 0x106, .brc 1 12 0,
      .fcvt 1 2 10, .barwait 1 2 1 0x100, .fence 0 0, .fence 1 5,
      .vadd (lw 0x01), .vadd (lw 0x09), .vadd { lw 0x03 with neg := 1 }, .vadd (lw 0x03 1), .vadd (lw 0x03 0 0 0 1),
      .vadd (lw 0x03 0 0 0 0 1), .vadd (lw 0x03 0 352), .vadd (lw 0x03 0 0 344), .vadd (lw 0x04 0 1 2), .vadd (lw 0x04 0 0 2 0 0 7),
      .vcmp (lw 0x03 6 0 0 0 0 1), .vcmp (lw 0x03 0 0 0 0 0 16), .pand (lw 0 0 16 0 0 0 1), .vbcast (lw 0 0 0 1),
      .vld (lw 0x07 0 0), .vld (lw 0x07 0 256 256), .vld (lw 0x07 0 256 0 0 (5 * 2 ^ 28)), .vld (lw 0x07 0 256 0 0 (2 * 2 ^ 26)),
      .vst (lw 0x07 0 256 0 0 0 1), .vred (lw 0x07 7 256 0 0 0 0), .vmask (lw 0 0 0 0 0 0 5), .vreadlane (lw 0 0 0 256 0 0 192),
      .admissionTurn 4, .portQueueRelease 4 0, .create 1024 4, .retrain 12 1, .lensIntakeRelease 12, .queueEnable 64 1,
      .depcntFree 65536, .waveEviction 256 0, .waveEviction 0 96, .waitComplete 0 0 4, .reggrowGrant 256,
      .neighbourLineSend 64 0, .neighbourArrival 0 4, .tileCompletion 64, .treeResult 1 8 0, .treeTimeout 1 8,
      .convoyPatienceEjection 2048 0, .hostMemoryRead 0 65 [], .hostMemoryWrite 0 [] 0, .fatalError 8 0] : List Instr).all
      (fun i => !i.wellFormed) = true := by decide

/-- Their well-formed neighbours. -/
theorem test_well_formed :
    ([.add 207 191 0, .addSx 1 2 0 4, .issue 8 0, .issue 184 0, .cpy 1 16, .mma 8, .sld 1 2 0x10, .sst 1 2 0x10, .slds 1 2 8,
      .satom 1 2 0x40 8, .mfs 1 0x10, .mts 1 0x105, .brc 1 11 0, .brm 0 1 1 2 0, .fcvt 1 2 9, .fence 2 4,
      .vadd (lw 0x03 0 2 343), .vadd (lw 0x04 0 2 4), .vfadd (lw 0x09 0 2 345), .vcmp (lw 0x03 5 2 4 0 0 15), .vld (lw 0x07 0 256 1),
      .vst (lw 0x07 0 256 1 2 0 0), .admissionTurn 3, .create 1023 4, .waveEviction 255 95, .fatalError 7 0] : List Instr).all
      (fun i => i.wellFormed) = true := by decide

/-! ### The gate lets them run: scalar instructions -/

/-- Every integer, floating-point, constant and field instruction passes the gate in user mode. -/
theorem test_runs_computing :
    allRun [.add 1 2 3, .addImm 1 2 3, .addSx 1 2 0 3, .sub 1 2 3, .subImm 1 2 3, .subSx 1 2 0 3, .mul 1 2 3, .mulImm 1 2 3,
      .mulSx 1 2 0 3, .mulh 1 2 3, .mulhImm 1 2 3, .mulhSx 1 2 0 3, .mulhn 1 2 3, .mulhnImm 1 2 3, .mulhnSx 1 2 0 3,
      .div 1 2 3, .divImm 1 2 3, .divSx 1 2 0 3, .divn 1 2 3, .divnImm 1 2 3, .divnSx 1 2 0 3, .rem 1 2 3, .remImm 1 2 3,
      .remSx 1 2 0 3, .remn 1 2 3, .remnImm 1 2 3, .remnSx 1 2 0 3, .and 1 2 3, .andImm 1 2 3, .andSx 1 2 0 3, .or 1 2 3,
      .orImm 1 2 3, .orSx 1 2 0 3, .xor 1 2 3, .xorImm 1 2 3, .xorSx 1 2 0 3, .andn 1 2 3, .andnImm 1 2 3, .andnSx 1 2 0 3,
      .shl 1 2 3, .shlImm 1 2 3, .shlSx 1 2 0 3, .shr 1 2 3, .shrImm 1 2 3, .shrSx 1 2 0 3, .sar 1 2 3, .sarImm 1 2 3,
      .sarSx 1 2 0 3, .rot 1 2 3, .rotImm 1 2 3, .rotSx 1 2 0 3, .min 1 2 3, .minImm 1 2 3, .minSx 1 2 0 3, .max 1 2 3,
      .maxImm 1 2 3, .maxSx 1 2 0 3, .minn 1 2 3, .minnImm 1 2 3, .minnSx 1 2 0 3, .maxn 1 2 3, .maxnImm 1 2 3,
      .maxnSx 1 2 0 3, .cmp 1 2 3, .cmpImm 1 2 3, .cmpSx 1 2 0 3, .clz 1 2, .popc 1 2, .sel 1 2 3, .bfx 1 2 3, .bfi 1 2 3,
      .fadd 1 2 3, .fmul 1 2 3, .ffma 1 2 3, .fcmp 1 2 3, .fcvt 1 2 3, .li 1 2, .liSx 1 0 2, .lih 1 2, .lihSx 1 0 2] st
      = true := by decide

/-- A destination s0, a bank register of one of several fragments, and a handler register in supervisor mode pass too. -/
theorem test_runs_destinations :
    (allRun [.add 0 1 2, .li 0 7] st && allRun [.add 176 1 2] (two st) &&
      allRun [.add 192 193 2] (sup st)) = true := by decide

/-- R245 and its order: each trap of the gate has an instruction and a state that raise it, and each wait too. -/
theorem test_gate_traps :
    ([((.add 208 1 2 : Instr), st, (0x01 : BitVec 8)), (.addSx 1 2 3 4, st, 0x01), (.issue 185 0, st, 0x01), (.add 192 1 2, st, 0x03),
      (.eret, st, 0x03), (.mfs 1 0x100, st, 0x03), (.mts 1 0x022, st, 0x03), (.mts 1 0x105, sup st, 0x03),
      (.add 1 2 3, two st, 0x60), (.reggrow 1, two st, 0x60), (.mts 1 0x040, two st, 0x60),
      (.nop, onF st (fun f => { f with spc := 0x00FF_FFFF_FFFF_FFFC }), 0x20),
      (.add 5 1 2, onW st (fun w => { w with work := { w.work with deferred := [⟨0x07, 9, 0, .scalar 5 0, false, 0, 0, 1, false⟩] } }),
        0x07)] :
      List (Instr × State × BitVec 8)).all
      (fun e => match gate e.1 e.2.1 with | .trap _ t => t.cause == e.2.2 | _ => false) = true := by decide

/-- A checkpoint of a predicted path, as a fragment 0 that met a BRM leaves it. -/
def aSpec : SpecRec :=
  ⟨0, 0, 0, 1, 1, 4, 0, 0, false, 0, 0, ⟨BitVec.allOnes 128, 0, fmtReset, [], none, .run⟩, [], 1, some 0, none, [], [], []⟩
def specSt : State := onW st (fun w => { w with spec := [aSpec] })

theorem test_gate_waits :
    (decide (gate (.sst 1 2 0x40) specSt = .stall) && decide (gate (.sld 1 2 0x40) specSt = .stall) &&
      decide (gate (.add 208 1 2) specSt = .stall) && decide (gate .bkpt specSt = .stall) && runs (.add 1 2 3) specSt &&
      decide (gate (.mma 8) (onW st (fun w => { w with work := { w.work with outs := [{ anOut false with dest := .scalar 12 0 }] } })) = .stall) &&
      runs (.mma 8) (onW st (fun w => { w with work := { w.work with outs := [{ anOut false with dest := .scalar 13 0 }] } })) &&
      decide (gate (.add 5 1 2) (onW st (fun w => { w with work := { w.work with outs :=
        [{ anOut false with dest := .scalar 5 0 }] } })) = .stall)) = true := by decide

/-! ### Control flow, traps, special registers -/

/-- Branches: a target in the window and one outside it. -/
theorem test_branch_targets :
    (runs (.br 5) st (fun c => decide ((c.f.spc + (5 : BitVec 24).signExtend 64 * 4).toNat < 2 ^ 56)) &&
      runs (.br (-1)) st (fun c => decide (2 ^ 56 ≤ (c.f.spc + (-1 : BitVec 24).signExtend 64 * 4).toNat) &&
        c.w.spec.isEmpty) &&
      runs (.call 5) st && runs (.brc 1 0 5) st && runs (.brc 1 11 (-1)) st) = true := by decide

/-- Jumps: an aligned target, an unaligned one, one outside the window. -/
theorem test_jump_targets :
    (runs (.jmpi 1) (st [(1, 64)]) (fun c => c.get 1 == 64) && runs (.jmpi 1) (st [(1, 66)]) (fun c => c.get 1 == 66) &&
      runs (.jmpi 1) (st [(1, 0x0100000000000002)]) (fun c => decide (2 ^ 56 ≤ (c.get 1).toNat)) &&
        runs .ret st) = true := by
  decide

/-- BRM: all lanes taken, none, and a split into the lowest free slot, with the predicate written. -/
theorem test_mask_branches :
    (runs (.brm 0 0 1 0 4) st (fun c => c.w.spec.isEmpty && !c.w.predPending 0 c.f.emask c.w.lane.next) &&
      runs (.brm 1 0 1 0 4) st (fun c => (c.f.emask &&& 0) == 0) &&
      runs (.brm 0 1 1 0 4) (onW st (fun w => { w with pred := Sparse.set [] 1 7 })) (fun c =>
        !c.w.predPending 1 c.f.emask c.w.lane.next && (c.f.emask &&& c.w.pred.get 1) == 7 && c.w.frags.get? 1 == none &&
          !c.w.trap.sup)) = true := by decide

/-- RCV: with no entry of its token; with a pending entry of its token on top. -/
theorem test_reconverge :
    (runs (.rcv 1) st (fun c => c.w.stack.isEmpty && c.w.groups.isEmpty) &&
      runs (.rcv 1) (onW st (fun w => { w with stack := [⟨0, 1, 2, 64, [], fmtReset, false, false⟩] })) (fun c =>
        match c.w.stack with | e :: _ => e.owner == c.frag && e.token == 1 && !e.resume | [] => false)) = true := by decide

/-- ISSUE of a block of two words that the directory at address 0 holds, and of one it does not hold. -/
def blockSt : State := { st with mem := Memory.write (Memory.write st.mem 0 [1]) 64 (bytesOfWord 0x0040000000000010) }
theorem test_issue_block :
    (runs (.issue 8 0) blockSt (fun c => c.w.spec.isEmpty && c.w.lane.rest.isEmpty &&
        (match blockSt.laneBlock ⟨c.core, c.slot, c.w⟩ 0 with
         | (.ok (some ws), _) => decide (ws.length = 2) && decide (c.w.lane.queue.length + 2 ≤ 64)
         | _ => false)) &&
      runs (.issue 184 1) blockSt (fun c => match blockSt.laneBlock ⟨c.core, c.slot, c.w⟩ 1 with
        | (.ok none, _) => true
        | _ => false)) = true := by decide

/-- TRAP with a handler, BKPT with and without a debugger, NOP. -/
theorem test_traps :
    (runs (.trap 7) (handler st) (fun c => c.f.wait == .run && !c.w.trap.sup &&
        ((handler st).reg (jobReg c.w.ident.job 0x60)).getLsbD 0) &&
      runs .bkpt (handler st) (fun c => !((handler st).reg (jobReg c.w.ident.job 0x80)).getLsbD 0) &&
      runs .bkpt ((st).setReg (jobReg 0 0x80) 1) (fun c => (((st).setReg (jobReg 0 0x80) 1).reg (jobReg c.w.ident.job 0x80)).getLsbD 0) &&
      runs .nop st) = true := by decide

/-- Trap entry: a handler; supervisor mode; no handler, for MEMLOSS and for another cause. -/
theorem test_trap_entry_cases :
    (((handler st).wave? 0 0).any (fun w => !w.trap.sup && (w.frags.get? 0).any (fun f => f.wait == .run)) &&
      ((sup st).wave? 0 0).any (fun w => w.trap.sup) && !((st).reg (jobReg 0 0x60)).getLsbD 0) = true := by decide

/-- ERET in a handler: its action codes, and a fault point whose word a translation reaches. -/
def eretSt (act : Word) (lane : Bool) : State := onW (sup st) (fun w => { w with trap := { w.trap with
  tcause := if lane then 0x202 else 5, h := Sparse.set [] 0 act } })
/-- A core that starts no new walk, and whose TLB holds nothing. -/
def busyFetch (s : State) : State := s.setCore 0 { s.core 0 with noMiss := true }
theorem test_trap_return :
    ([0, 1, 2, 3, 4, 7].all (fun a => [false, true].all (fun l => runs .eret (eretSt a l) (fun c =>
      c.w.laneAll.isEmpty && c.w.stack.isEmpty && c.w.trap.absent.isNone && c.w.trap.frest.isEmpty &&
        c.w.work.absent.isEmpty &&
        (c.w.trap.h.get 0).toNat % 8 == a.toNat && c.w.trap.tcause.getLsbD 9 == l)))) = true ∧
    [eretSt 1 false, busyFetch (eretSt 1 false)].map (fun s =>
      (s.wave? 0 0).bind (fun w => (s.lengthAt ⟨0, 0, w⟩ w.trap.tspc.toNat).1)) = [some 4, none] := by decide

/-- EXIT beside another fragment, of the last fragment, and in supervisor mode. -/
theorem test_exit :
    (runs .exit (two st) (fun c => c.w.laneAll.isEmpty && !c.w.trap.sup && c.w.stack.isEmpty && c.w.groups.isEmpty &&
        (c.w.frags.get? 1).any (fun g => g.rcv.isNone)) &&
      runs .exit st (fun c => decide (c.w.frags.length = 1) && c.w.work.outs.isEmpty && c.w.work.deferred.isEmpty &&
        c.w.work.red.isEmpty && c.w.mat.ops.isEmpty && !c.w.mat.fv && decide ((st).cpCount c.uid = 0)) &&
      runs .exit (sup st)) = true := by decide

/-- MFS and MTS of every register of Table 6: in user mode, and the supervisor ones in supervisor mode. -/
theorem test_special_registers :
    (([0, 1, 2, 3, 4, 5, 6, 7, 8, 9, 10, 11, 12, 13, 14, 15, 16, 0x20, 0x21, 0x22, 0x23, 0x24, 0x25, 0x30, 0x31, 0x32, 0x33, 0x34,
        0x35, 0x36, 0x40, 0x41] : List (BitVec 16)).all (fun n => runs (.mfs 1 n) st && (n == 0x22 ||
          runs (.mts 1 n) st)) &&
      ([0x100, 0x101, 0x102, 0x103, 0x104, 0x105] : List (BitVec 16)).all (fun n => runs (.mfs 1 n) (sup st)) &&
      runs (.mts 1 0x22) (sup st) &&
        (onW st (fun w => { w with cv := { w.cv with mem := true } })).convoys.isEmpty) = true := by decide

/-- YIELD of a grid that is not chosen, and of one that is. -/
def chosenSt : State := (st).updGrid 1 (fun g => { g with chosen := true })
theorem test_yield :
    (runs .yield st (fun c => match (st).sched.grids.get? c.w.ident.grid with
        | some g => !g.chosen && !c.w.sched.resumed.contains c.frag && !(st).pressed (dieOf c.core) g.pri
        | none => false) &&
      runs .yield chosenSt (fun c => (chosenSt.sched.grids.get? c.w.ident.grid).any (·.chosen))) = true := by decide

/-- REGGROW and REGSHRINK at their limits, and an n outside them. -/
def smallSt (r : Sparse 64) : State := onW (st r) (fun w => { w with vcount := 64 })
theorem test_register_allocation :
    (runs (.reggrow 1) (smallSt [(1, 72)]) (fun c => decide (c.w.vcount < (c.get 1).toNat) &&
      (smallSt [(1, 72)]).growFits 0 c.w 72) &&
      runs (.reggrow 1) (smallSt [(1, 64)]) (fun c => c.w.vcount == 64 && (smallSt [(1, 64)]).growFits 0 c.w 64) &&
      ((smallSt []).core 0).growq.isEmpty &&
      runs (.reggrow 1) (smallSt [(1, 256)]) (fun c => (smallSt [(1, 256)]).growFits 0 c.w 256) &&
      runs (.regshrink 1) (smallSt [(1, 8)]) (fun c => !c.w.writesFrom 8) && runs (.regshrink 1) (smallSt [(1, 64)]) &&
      [63, 56, 264].all (fun n => runs (.reggrow 1) (smallSt [(1, n)]) (fun c => c.w.spec.isEmpty)) &&
      [60, 0, 72].all (fun n => runs (.regshrink 1) (smallSt [(1, n)]) (fun c => c.w.spec.isEmpty)) &&
      (smallSt []).convoys.isEmpty) = true := by decide

/-! ### Scalar memory, barriers, convoys, tasks -/

/-- A translated access, scalar: what a load, a store or an atomic of one address asks for. -/
def xlates (s : State) (c : Ctx) (va n : Nat) (acc : BitVec 3) (store : Bool) : Bool :=
  inWindow va n && decide (va % n = 0) && !s.rangeLocked c.w va n store &&
    !(s.core c.core).noMiss && s.dirtyClear c.core c.w.ident.job va &&
    (match s.translate c.core c.w.ident.job va acc c.w.sched.fails with | .ok _ _ => true | _ => false)
/-- The core's L1 holds line 1 of memory. -/
def lineSt (r : Sparse 64) : State :=
  let s := st r
  s.setCore 0 { s.core 0 with l1 := [⟨1, 0, 0, 0x1234⟩] }
/-- A range lock of another operation over the first kilobyte. -/
def lockSt (r : Sparse 64) : State :=
  let s := st r
  s.setCore 0 { s.core 0 with locks := [⟨1, 1, 0, [], 0, 1024, true, false⟩] }

/-- The core's TLB reaches an address through its first entry (R17, R19). -/
def tlbHead (s : State) (va : Nat) : Bool :=
  match (s.core 0).tlb with
  | e :: _ => e.job == 0 && e.page == pageOf e.level va && windowOf va != .peer && e.leaf.getLsbD 61 && e.leaf.getLsbD 62
  | [] => false
theorem test_translated_accesses :
    (runs (.sld 1 2 0x40) (lineSt [(2, 128)]) (fun c => !c.accessWaits (lineSt [(2, 128)]) (c.get 2) 4 false false false &&
        xlates (lineSt [(2, 128)]) c 128 4 0 false && ((lineSt [(2, 128)]).l1Find 0 1 0 0).isSome) &&
      runs (.sldSx 1 2 0x48 4) (st [(2, 252)]) (fun c => xlates st c 256 4 0 false && ((st).l1Find 0 2 0 0).isNone) &&
      runs (.sst 1 2 0x60) (st [(2, 0)]) (fun c => !c.accessWaits (st [(2, 0)]) (c.get 2) 8 true (mRel 0x60) (mWide 0x60) &&
        xlates st c 0 8 1 true) &&
      runs (.sstSx 1 2 0x51 8) (st [(2, 0)]) (fun c => !c.accessWaits (st [(2, 0)]) (c.get 2) 4 true (mRel 0x51) (mWide 0x51) &&
        xlates st c 8 4 1 true) &&
      runs (.satom 1 2 0x40 0x00030001) (st [(2, 16)]) (fun c =>
        !c.accessWaits (st [(2, 16)]) (c.get 2) 4 false (mRel 0x40) (mWide 0x40) && xlates st c 16 4 2 true) &&
          tlbHead st 256) = true := by
  decide

/-- Each scalar access fault has its address: a reserved window, scratch, Light List, management and queue windows, an
unaligned one, a locked one. -/
theorem test_access_faults :
    (runs (.sld 1 2 0x40) st (fun c => c.w.spec.isEmpty && !c.accessWaits st (c.get 2) 4 false false false) &&
      decide (windowOf (2 ^ 57) = .none) && decide (windowOf 0x0140000000000000 = .scratch) &&
      decide (windowOf 0x0160000000000000 = .light) && inWindow 0x0160000000000000 4 &&
      decide (windowOf 0x0170000000000000 = .mgmt) && inWindow 0x0170000000000000 4 &&
      decide (windowOf 0x0150000000000000 = .queues) && inWindow 0x0150000000000000 4 &&
      runs (.sst 1 2 0x40) (st [(2, 2)]) (fun c => decide (windowOf (c.get 2).toNat = .global) && inWindow 2 4) &&
      runs (.sst 1 2 0x40) (lockSt [(2, 4)]) (fun c => (lockSt [(2, 4)]).rangeLocked c.w 4 4 true &&
        xlates st c 4 4 1 true) &&
      runs (.sld 1 2 0x40) (lockSt [(2, 4)]) (fun c => (lockSt [(2, 4)]).rangeLocked c.w 4 4 false)) = true := by decide

/-- A place of cluster 0, an error. -/
def placeIs (r : Except (BitVec 8) (Nat × Nat)) (a : Nat) : Bool := match r with | .ok p => p == (0, a) | .error _ => false
def placeErr (r : Except (BitVec 8) (Nat × Nat)) (k : BitVec 8) : Bool := match r with | .ok _ => false | .error e => e == k

/-- A range lock over the first kilobyte of the gang's scratch. -/
def ownLocked : State := (st).setCore 0 { (st).core 0 with locks := [⟨1, 1, 0, [0], 0, 1024, true, false⟩] }
/-- The wave's own scratch: loads, stores and an atomic inside it; one past its end, one unaligned, one that leaves the
window, one in a locked range. -/
theorem test_scratch_accesses :
    (runs (.slds 1 2 0x60) (st [(2, 0x01400000000003F8)]) (fun c => !c.accessWaits (st [(2, 0x01400000000003F8)]) (c.get 2) 8 false false false &&
        c.w.laneAll.isEmpty && c.w.work.outs.isEmpty && placeIs (c.scratchPlace st (c.get 2) 8 false) 0x3F8) &&
      runs (.sldsSx 1 2 0x40 4) (st [(2, 0x0140000000000000)]) (fun c =>
        placeIs (c.scratchPlace st (c.get 2 + (4 : Word32).signExtend 64) 4 false) 4) &&
      runs (.ssts 1 2 0x60) (st [(2, 0x01400000000003F8)]) (fun c => !c.accessWaits (st [(2, 0x01400000000003F8)]) (c.get 2) 8 true (mRel 0x60) (mWide 0x60) &&
        placeIs (c.scratchPlace st (c.get 2) 8 true) 0x3F8) &&
      runs (.sstsSx 1 2 0x40 4) (st [(2, 0x0140000000000000)]) (fun c =>
        placeIs (c.scratchPlace st (c.get 2 + (4 : Word32).signExtend 64) 4 true) 4) &&
      runs (.satom 1 2 0x40 0x00030001) (st [(2, 0x0140000000000004)]) (fun c =>
        !c.accessWaits (st [(2, 0x0140000000000004)]) (c.get 2) 4 false (mRel 0x40) (mWide 0x40) &&
          placeIs (c.scratchPlace st (c.get 2) 4 true) 4) &&
      runs .nop st (fun c => placeErr (c.scratchPlace st 0x0140000000000400 8 false) 0x30 &&
        placeErr (c.scratchPlace st 64 8 true) 0x20 &&
        placeErr (c.scratchPlace st 0x0140000000000001 8 false) 0x31 &&
          placeErr (c.scratchPlace st 0x014FFFFFFFFFFFFC 8 false) 0x20 &&
        placeErr (c.scratchPlace ownLocked 0x0140000000000000 8 true) 0x43 &&
          (st).gangAlloc 1 0 == some (0, ⟨1, 0, 0, 1024⟩))) = true := by
  decide

/-- Scratch accesses that name another window: user mode and supervisor mode, with and without room for a record. -/
theorem test_scratch_windows :
    ([(0x0160000000000000 : Word), 0x0150000000000000, 0x0170000000000000, 0x0200000000000000].all (fun a =>
      [st [(2, a)], sup (st [(2, a)])].all (fun s =>
        let full := { s with xlate := { s.xlate with held := List.replicate 64 ⟨0, 0, []⟩ } }
        windowOf a.toNat != .scratch && s.canRecord 0 0 1 && !full.canRecord 0 0 1 &&
          [s, full].all (fun v => runs (.ssts 1 2 0x40) v (fun c =>
            !c.accessWaits v (c.get 2) 4 true (mRel 0x40) (mWide 0x40) && c.w.spec.isEmpty))))) = true := by decide +kernel

/-- WAIT that completes, that waits, and that takes a deferred trap; FENCE of both kinds; FLUSHRED. -/
def outSt : State := onW st (fun w => { w with work := { w.work with outs := [anOut false] } })
/-- A load that has failed, whose trap a WAIT takes that covers it. -/
def failedSt : State := onW st (fun w => { w with work := { w.work with deferred := [⟨0x07, 9, 0, .none, false, 0, 0, 1, false⟩] } })
theorem test_waits_and_fences :
    (runs (.wait 63 63 63 63) outSt (fun c => !c.w.laneAll.any (·.memory) && c.w.work.deferred.isEmpty &&
      c.w.tlCount == 0 &&
        decide (outSt.cpCount c.uid = 0)) &&
      runs (.wait 0 63 63 63) outSt (fun c => decide (c.w.ldCount = 1)) &&
        runs (.wait 0 0 0 0) st (fun c => decide (c.w.ldCount = 0)) &&
      runs (.wait 0 0 0 0) failedSt (fun c => c.w.dueTrap 0 0 != none) &&
        runs (.wait 63 63 63 63) failedSt (fun c => c.w.dueTrap 63 63 == none) &&
      runs (.wait 63 0 63 63) failedSt (fun c => c.w.dueTrap 63 0 == none) &&
      runs (.fence 1 1) st (fun c => decide (c.w.ldCount = 0)) && runs (.fence 3 4) st (fun c => c.w.work.outs.isEmpty) &&
      runs (.fence 2 0) st && runs .flushred st (fun c => !c.w.redAhead && c.w.work.red.isEmpty &&
        !c.w.work.outs.any (·.red)) &&
      (st).convoys.isEmpty) = true := by decide

/-- A barrier object at offset 32 of the wave's own scratch: 3 expected arrivals, 1 arrived, phase 5. -/
def barSt (r : Sparse 64) (b : Bar) : State := (st r).cspWrite 0 32 b.bytes
def aBar : Bar := ⟨5, 3, 1, 0, 0, 0, false, false, true, true⟩
def barAt (s : State) (r : BitVec 8) (own : Bool) (p : Bar → Bool) (c : Ctx) : Bool :=
  c.w.laneAll.isEmpty && c.w.work.outs.isEmpty && c.w.work.red.isEmpty && !c.barWaits s (c.get r) true &&
    !c.barWaits s (c.get r) false &&
    (match s.barPlace c.w (c.get r) own with | .here cl p => cl == 0 && p == 32 | _ => false) && p (s.bar 0 32)
def barR (v : Word) : Sparse 64 := [(1, v), (2, 0x0140000000000020), (3, 4), (4, 5)]
theorem test_barriers :
    (runs (.barinit 1 2 0) (st (barR 0x0003000000000000)) (barAt (st (barR 0)) 2 false (fun b => b.wcnt == 0 &&
      b.expb ≤ b.landed)) &&
      runs (.bararr 1 2 1) (barSt (barR 2) aBar) (barAt (barSt (barR 2) aBar) 2 false (fun b => b.good && !b.inv &&
        b.arr == 1)) &&
      runs (.barexp 1 2 1) (barSt (barR 2) aBar) (barAt (barSt (barR 2) aBar) 2 true (fun b => b.good && !b.inv)) &&
      runs (.barinv 2 1) (barSt (barR 2) aBar) (barAt (barSt (barR 2) aBar) 2 true (fun b => b.good && !b.inv)) &&
      runs (.barph 1 2) (barSt (barR 2) aBar) (barAt (barSt (barR 2) aBar) 2 true (fun b => b.good)) &&
      runs (.barwait 1 2 1 3) (barSt (barR 2) aBar) (barAt (barSt (barR 2) aBar) 2 true (fun b => b.phase == 5)) &&
      runs (.barwait 1 2 1 4) (barSt (barR 2) aBar) (barAt (barSt (barR 2) aBar) 2 true (fun b => decide (b.wcnt < 511) && decide (b.arr < b.expa))) &&
      runs (.barwait 1 2 1 3) (barSt (barR 2) { aBar with arr := 3 }) (barAt (barSt (barR 2) { aBar with arr := 3 }) 2 true (fun b =>
        b.good && decide (b.expa ≤ b.arr) && decide (b.expb ≤ b.landed))) &&
      [Instr.bararr 1 2 1, .barexp 1 2 1, .barwait 1 2 1 4, .barph 1 2].all (fun i =>
        runs i (barSt (barR 2) { aBar with inv := true }) (barAt (barSt (barR 2) { aBar with inv := true }) 2 true (·.inv))) &&
      ((st).sched.grids.get? 1).any (fun g => (g.gangs.get? 0).any (fun x => decide (64 ≤ x.len) && !x.resuming &&
        x.image.isNone)) &&
      ((st).shipOf 1 0).isNone && ((st).gangAlloc 1 0).isSome &&
      (st).engines.isEmpty && (st).convoys.isEmpty) = true := by decide

/-- A convoy 7 of die 0 with the wave as its member 0 at position `p` and another member at `q`, SLIP 2. -/
def convoySt (p q : Word) : State :=
  let s := onW st (fun w => { w with cv := { w.cv with id := 7, self := 0, mem := true, pos := p } })
  match s.wave? 0 0 with
  | some w => { s with convoys := [(7, ⟨1, 2, 1024, p, [(0, ⟨w.ident.uid, p, false, [], 0⟩), (1, ⟨77, q, false, [], 0⟩)]⟩)] }
  | none => s
/-- The same convoy, of another grid, full, or out of range, seen by a wave that is no member. -/
def convoyOf (grid n : Nat) (lead : Word) : State :=
  { st with convoys := [(7, ⟨grid, 2, 1024, lead, (List.range n).map (fun i => (i, ⟨1000 + i, lead, false, [], 0⟩))⟩)] }
def joinIs (s : State) (v : Word) (code : Nat) : Bool :=
  ((s.wave? 0 0).any (fun w => s.joinCode 0 w v == code))
theorem test_convoys :
    (runs (.cvjoin 1 2) (st [(2, 7)]) (fun c => (st).joinCode 0 c.w (c.get 2) == 0 && !c.cvBusy) &&
      runs (.cvjoin 1 2) (st [(2, 512)]) (fun c => (st).joinCode 0 c.w (c.get 2) == 5) &&
      joinIs st 512 5 && joinIs (convoySt 0 0) 7 4 && joinIs (convoyOf 9 1 0) 7 3 && joinIs (convoyOf 1 64 0) 7 2 &&
      joinIs (convoyOf 1 1 5) 7 1 && joinIs (convoyOf 1 1 1) 7 0 && joinIs (convoyOf 1 0 2) 7 1 &&
        joinIs (convoyOf 1 0 1) 7 0 && joinIs st 511 0 &&
      runs .cvleave st (fun c => !c.w.cv.mem && !c.cvBusy) && runs .cvleave (convoySt 0 0) (fun c => c.w.cv.mem) &&
        runs .cvstep st &&
      runs .cvstep (convoySt 0xFFFFFFFFFFFFFFFF 0) (fun c => c.w.cv.pos == BitVec.allOnes 64) &&
      runs .cvstep (convoySt 1 0) (fun c => c.w.cv.pos != BitVec.allOnes 64 &&
        (match (convoySt 1 0).membership c.uid with | some (n, k, _, m) => n == 7 && !k.mustHold m.pos | none => false)) &&
      runs .cvstep (convoySt 2 0) (fun c =>
        (match (convoySt 2 0).membership c.uid with | some (_, k, _, m) => k.mustHold m.pos | none => false))) = true := by decide

/-- Queue 3 of job 0 holds values: on, with one entry between head 4 and tail 5, or empty. -/
def queueSt (r : Sparse 64) (cfg : Word) (tail : Word) : State :=
  (((st r).setReg (queueReg 3 0) cfg).setReg (queueReg 3 0x18) 4).setReg (queueReg 3 0x20) tail
/-- A record of one wave of 8 register groups and one scratch unit is well formed; with a counter 9 that it arms to `n`. -/
def aTask : List Word := [0x1000, 0x0000804400000000, 0, 0, 7, 0, 0, 0]
def armTask (n : Word) : List Word := aTask.set 5 (n * 4294967296 + 9 * 65536 + 32768)
/-- Queue 0, of job 0, which launched the grid: a configuration, entries from 0 to `tail`, a record in s8 to s15. -/
def spawnSt (task : List Word) (cfg tail : Word) (deps : Tab DepCnt := []) : State :=
  let s := ((st ((List.range 8).map (fun k => (8 + k, wordAt task k)))).setReg (queueReg 0 0) cfg).setReg (queueReg 0 0x20) tail
  { s with sched := { s.sched with deps := deps } }
/-- TSPAWN meets the tests of Table 4 up to the one that answers `code`; 0 for a record that passes. -/
def spawnIs (s : State) (code : Nat) : Bool :=
  runs (.tspawn 1 8) s (fun c => c.w.quiet && c.w.work.red.isEmpty && s.gridQueue c.w.ident.grid == 0 &&
    (let r := c.get8 8
     let k := if s.queueJob 0 ≠ c.w.ident.job then 8 else if s.jobState c.w.ident.job ≠ 1 then 9 else if s.queueData 0 then 3
       else if !s.queueOn 0 then 2 else if taskMalformed r then 4
       else if taskWen r && (s.sched.deps.get? (taskWaitc r)).isSome then 5 else if s.queueFull 0 then 1 else 0
     k == code))
theorem test_task_spawns :
    (spawnIs (spawnSt aTask 0x41 0) 8 && spawnIs ((spawnSt aTask 1 0).setJobState 0 2) 9 &&
      spawnIs (spawnSt aTask 3 0) 3 &&
      spawnIs (spawnSt aTask 0 0) 2 && spawnIs (spawnSt (aTask.set 0 1) 1 0) 4 &&
        spawnIs (spawnSt (armTask 2) 1 0 [(9, ⟨2, 0⟩)]) 5 &&
      spawnIs (spawnSt aTask 1 64) 1 && spawnIs (spawnSt aTask 1 63) 0 && spawnIs (spawnSt (armTask 2) 1 0) 0 &&
      spawnIs (spawnSt (armTask 0) 1 0) 0 && srv (spawnSt aTask 1 0) ((spawnSt aTask 1 0).queueSlot 0 0) 0 &&
      (st).ctl.flaws.isEmpty) = true := by decide

/-- Dependence counters that stand above 1 and at 1, their queue off, full and with room. -/
def depSt (n : BitVec 32) (cfg tail : Word) : State := { spawnSt aTask cfg tail [(9, ⟨n, 0⟩)] with waves := (st [(2, 9)]).waves }
theorem test_counters :
    (runs (.tdep 1 2) (st [(2, 65536)]) &&
      runs (.tdep 1 2) (st [(2, 65535)]) (fun _ => (st).sched.deps.get? 65535 |>.isNone) &&
      [(2, 1, 0), (1, 0, 0), (1, 1, 64), (1, 1, 63)].all (fun e => runs (.tdep 1 2) (depSt e.1 e.2.1 e.2.2) (fun c => c.get 2 == 9 &&
        c.w.quiet && c.w.work.red.isEmpty)) && srv (depSt 1 1 0) ((depSt 1 1 0).depSlot 9) 0) = true := by decide

/-- TDONE: signalled, not signalled without a record, with a record that can be written. -/
def recordGrid : State := (st).updGrid 1 (fun g => { g with task := (g.task.set 6 (2 ^ 46)).set 7 64 })
theorem test_task_done :
    (runs .tdone st (fun c => ((st).sched.grids.get? c.w.ident.grid).any (fun g => !g.signaled && !taskRen g.task)) &&
      runs .tdone recordGrid (fun c => (recordGrid.sched.grids.get? c.w.ident.grid).any (fun g => taskRen g.task &&
        (recordGrid.signal c.w.ident.grid g (recordGrid.doneStatus g)).1 && recordGrid.countClear g.task)) &&
      runs .tdone ((st).updGrid 1 (fun g => { g with signaled := true }))) = true := by decide

/-- QPUSH: the codes 7, 8, 9, 3, 2, 1 and 0. QPOP: an entry, none, no queue of the job's. -/
def pushIs (s : State) (code : Nat) : Bool :=
  runs (.qpush 1 2 3) s (fun c => c.w.quiet && c.w.work.red.isEmpty && (
    let q := (c.get 2).toNat
    let k := if 64 ≤ q then 7 else if s.queueJob q ≠ c.w.ident.job then 8 else if s.jobState c.w.ident.job ≠ 1 then 9
      else if !s.queueData q then 3 else if !s.queueOn q then 2 else if s.queueFull q then 1 else 0
    k == code))
theorem test_queues :
    (pushIs (st [(2, 64)]) 7 && pushIs (queueSt [(2, 3)] 0x43 5) 8 && pushIs ((queueSt [(2, 3)] 3 5).setJobState 0 2) 9 &&
      pushIs (queueSt [(2, 3)] 1 5) 3 && pushIs (queueSt [(2, 3)] 2 5) 2 && pushIs (queueSt [(2, 3)] 3 68) 1 &&
        pushIs (queueSt [(2, 3)] 3 67) 0 &&
      runs (.qpop 1 2) (queueSt [(2, 3)] 3 5) (fun c => let s := queueSt [(2, 3)] 3 5
        c.w.spec.isEmpty && s.queueJob 3 == c.w.ident.job && decide (0 < s.queueCount 3) && s.queueOn 3 &&
          s.sched.qwait.isEmpty &&
          srv s (s.queueSlot 3 4) 0) &&
      runs (.qpop 1 2) (queueSt [(2, 3)] 3 4) (fun _ => decide ((queueSt [(2, 3)] 3 4).queueCount 3 = 0)) &&
      runs (.qpop 1 2) (st [(2, 64)]) &&
        runs (.qpop 1 2) (queueSt [(2, 3)] 0x43 5) (fun c => (queueSt [(2, 3)] 0x43 5).queueJob 3 != c.w.ident.job) &&
      runs (.qpop 1 2) (queueSt [(2, 3)] 1 5) (fun _ => !(queueSt [(2, 3)] 1 5).queueData 3)) = true := by decide

/-! ### Copies, neighbours, formats, matrices -/

/-- A plain copy of `n` bytes from address 0 to address `d` of the global window. -/
def copySt (d n : Word) (w5 : Word := 0) : State := st [(17, 0x400), (18, d), (19, n), (21, w5)]
theorem test_copies :
    (runs (.cpy 1 16) (copySt 0x800 1) (fun c => let x := c.get8 16
        c.w.spec.isEmpty && wordAt x 0 == 0 && badRegister .cpy x == none && badBox .cpy x [] == none &&
          (copySt 0x800 1).engTrap c.w .cpy x [] == none && decide ((copySt 0x800 1).slotsUsed c.core < 256) &&
          decide ((copySt 0x800 1).cpCount c.uid < 63) &&
            ((copySt 0x800 1).gangLocks c.w.ident.grid c.w.ident.gang).isEmpty) &&
      runs (.cpy 1 16) (copySt 0x800 (2 ^ 32)) (fun c => badRegister .cpy (c.get8 16) == none) &&
      runs (.cpy 1 16) (copySt 0x800 0) (fun c => (badRegister .cpy (c.get8 16)).isSome) &&
      runs (.cpym 1 16) st (fun c => (badRegister .cpym (c.get8 16)).isSome) &&
      runs (.cpyr 1 16) st (fun c => (badRegister .cpyr (c.get8 16)).isSome) &&
      runs (.cpyx 1 16) st (fun c => (badRegister .cpyx (c.get8 16)).isSome)) = true := by decide

/-- The grid of the wave with HTLEN 2 and TDESC at 0x1000, whose record 0 is a tensor of `rank` 0 or 1 more than 1, of 8
by `h` elements of 4 bytes at address 0x2000, 64 bytes a row, in a line that the L1 holds; eight scratch registers from
s16. -/
def handleSt (x : List Word) (rank : Word) (h : Word) : State :=
  let s := (st ((List.range 8).map (fun k => (16 + k, wordAt x k)))).updGrid 1 (fun g =>
    { g with task := (g.task.set 1 0x100000).set 3 0x1000 })
  let rcd : List Word := [0x2000, 8 + h * 4294967296, 0x100000001, 64, 0, 0, 0x801 + rank * 256, 0]
  let bs := rcd.flatMap bytesOfWord
  let s := { s with mem := Memory.write s.mem 0x1000 bs }
  s.setCore 0 { s.core 0 with l1 := [⟨32, 0, 0, BitVec.ofNat 1024 (natOfBytes bs)⟩] }
/-- The copy instruction that starts from a handle. -/
def startsHandle (i : Instr) (e : EngInstr) (s : State) : Bool :=
  runs i s (fun c =>
    let x := c.get8 16
    let r := s.handle c (if ctlSrck x = 1 then wordAt x 1 else wordAt x 2)
    badRegister e x == none && (ctlSrck x == 1 || ctlDstk x == 1) &&
      (match r with
       | (.ok rc, s1) => badBox e x rc == none && s1.engTrap c.w e x rc == none && decide (s1.slotsUsed c.core < 256) &&
           decide (s1.cpCount c.uid < 63)
       | _ => false))
def copyScratch : Word := 0x0140000000000000
/-- CPYR and CPYM without a handle start, and with one CPY (both ways), CPYM and CPYX. -/
theorem test_copy_kinds :
    (runs (.cpyr 1 16) (st [(17, 0x400), (18, copyScratch), (19, 1)]) (fun c => let x := c.get8 16
        badRegister .cpyr x == none && badBox .cpyr x [] == none && (st).engTrap c.w .cpyr x [] == none) &&
      runs (.cpym 1 16) (st [(17, 0x400), (18, copyScratch), (19, 128), (21, 1)]) (fun c => let x := c.get8 16
        badRegister .cpym x == none && badBox .cpym x [] == none && (st).engTrap c.w .cpym x [] == none) &&
      startsHandle (.cpy 1 16) .cpy (handleSt [0x1000000, 0, 0x800, 0x0001000100020002, 0, 0] 1 4) &&
      startsHandle (.cpy 1 16) .cpy (handleSt [0x400000, 0x800, 0, 0x0001000100020002, 0, 0] 1 4) &&
      startsHandle (.cpym 1 16) .cpym (handleSt [0x1000000, 0, copyScratch, 0x0001000100020002, 0, 1] 1 4) &&
      startsHandle (.cpyx 1 16) .cpyx (handleSt [0x1000000, 0, copyScratch, 0x400, 2, 0] 1 4)) = true := by decide +kernel

/-- An engine operation of the core's, and 256 of them. -/
def aOp (k : EngKind) (d : List Word) : EngOp :=
  ⟨k, 1, ⟨0, 1, 0, 0⟩, 0, 0, 0, 1, d, [], [], [], false, 0, none, none, none, 0, 0, 0, 0, [], false, [], none, []⟩
set_option maxRecDepth 4000 in
theorem test_copy_slots_full :
    let s := { copySt 0x800 1 with engines := (List.range 256).map (fun k => (k + 2, aOp .linear [])) }
    runs (.cpy 1 16) s (fun c => decide (256 ≤ s.slotsUsed c.core) &&
      s.engTrap c.w .cpy (c.get8 16) [] == none) = true := by
  decide

/-- Neighbour sends and receives, armed and not, with a neighbour (sides e and s of cluster 0) and without. -/
def armSt (r : Sparse 64) : State :=
  let s := st r
  s.setCluster 0 { s.cluster 0 with arms := [(1, ⟨1, 0, 0, 4, 2⟩)] }
theorem test_neighbours :
    (runs (.nlsend 1 1 2 3) (st [(2, 128), (3, 7)]) (fun c => (neighbourOf c.cluster 1).isSome &&
        (st).gangLen c.w.ident.grid c.w.ident.gang == some 1024 && ((st).outQueue c.cluster 1).isEmpty &&
        ((st).gangLocks c.w.ident.grid c.w.ident.gang).isEmpty) &&
      runs (.nlrecv 1 1 2 3) (st [(2, 128), (3, 7)]) (fun c => ((st).cluster c.cluster).arms.isEmpty) &&
      runs (.nlrecv 1 1 2 3) (armSt [(2, 128), (3, 0)]) (fun c =>
        (((armSt []).cluster c.cluster).arms.get? 1).any (fun m => m.grid == c.w.ident.grid &&
          m.gang == c.w.ident.gang)) &&
      runs (.nlsend 0 1 2 3) st (fun c => (neighbourOf c.cluster 0).isNone) &&
      runs (.nlrecv 3 1 2 3) st (fun c => (neighbourOf c.cluster 3).isNone && c.w.spec.isEmpty)) = true := by decide

/-- SETFMT: values that FMT may take and one with each kind of fault. -/
theorem test_formats :
    (allRun [.setfmtReg 1, .setfmtImm 0x4800] (st [(1, 0x6D87)]) && runs (.setfmtReg 1) (st [(1, 0x10000)]) (fun c =>
        decide (65536 ≤ (c.get 1).toNat)) && runs (.setfmtImm 8) st && runs (.setfmtImm 0xC000) st &&
      ((0x6D87 : BitVec 16).extractLsb' 3 4 == 0 && (0x6D87 : BitVec 16).extractLsb' 13 3 == 3 &&
        (0x6D87 : BitVec 16).extractLsb' 8 2 == 1 && (8 : BitVec 16).extractLsb' 3 4 != 0 &&
        (0xC000 : BitVec 16).extractLsb' 13 3 == 6)) = true := by decide

/-- The gang owns 16 KiB of scratch; FMT is FP16 or BF16 unscaled; `m` is the matrix state. -/
def mmaSt (x : List Word) (m : MatState) : State :=
  let s := onW (st ((List.range 8).map (fun k => (16 + k, wordAt x k)))) (fun w => { w with mat := m })
  let s := s.updGrid 1 (fun g => { g with gangs := g.gangs.map (fun e => (e.1, { e.2 with len := 65536 })) })
  s.setCluster 0 { s.cluster 0 with allocs := [⟨1, 0, 0, 65536⟩] }
def mats : MatState := ⟨5, 0, 0, 0, false, false, 0, [], ⟩
def aTile (b : Option (BitVec 16)) : TileOp := ⟨[], [], 0x4800, 0, 32, b, [], false, [], [], none⟩
def goodMma : List Word := [0x800000000, copyScratch, copyScratch, 128, 128, 0, 0, 0]
theorem test_matrix_multiply :
    ([mats, { mats with fv := true }, { mats with ops := [aTile none] }].all (fun m => let s := mmaSt goodMma m
        runs (.mma 16) s (fun c => let x := c.get8 16
          !badMma x c.f.fmt c.w.vcount && (mmaHandles x c.f.fmt).all (!·.1) && mmaWindow x c.f.fmt == none &&
            s.mmaTrap c.w x c.f.fmt [[], [], [], []] == none && decide (c.w.mat.ops.length < 16) &&
            !badOperandRecord x c.f.fmt [[], [], [], []] false && !badOperandRecord x c.f.fmt [[], [], [], []] true)) &&
      runs (.mma 16) (mmaSt [0x100000000, 0, 0] mats) (fun c => badMma (c.get8 16) c.f.fmt c.w.vcount)) = true := by decide

/-- MFENCE, and MWAIT of a batch too far, of one that has a queued operation, of one that is over without and with a held
fault. -/
theorem test_matrix_batches :
    let s (b : Word) (m : MatState) : State := onW (st [(2, b)]) (fun w => { w with mat := m })
    (runs (.mfence 1) (s 0 { mats with ops := [aTile none, aTile (some 3)] }) &&
      runs (.mwait 2) (s 5 mats) (fun c => !decide ((c.w.mat.next - 1 - (c.get 2).setWidth 16).toNat < 2 ^ 15)) &&
      runs (.mwait 2) (s 4 { mats with ops := [aTile (some 4)] }) (fun c => c.w.mat.ops.any (fun o => o.batch == some 4)) &&
      runs (.mwait 2) (s 4 { mats with ops := [aTile none] }) (fun c => !c.w.mat.fv &&
        c.w.mat.ops.all (fun o => o.batch == none)) &&
      runs (.mwait 2) (s 4 { mats with fv := true, faultb := 4 }) (fun c => c.w.mat.fv && c.w.spec.isEmpty) &&
      runs (.mwait 2) (s 3 { mats with fv := true, faultb := 4 }) (fun c =>
        decide (2 ^ 15 ≤ ((c.get 2).setWidth 16 - c.w.mat.faultb).toNat))) = true := by decide

/-! ### The lane stream -/

/-- Integer, select and predicate lane instructions pass the gate. -/
theorem test_runs_lane_integer :
    allLanes [.vadd (lw 0x03 0 2 4), .vaddLi (lw 0x04 0 2), .vsub (lw 0x02 0 2 4), .vsubLi (lw 0x06 0 2), .vmul (lw 0x07 0 2 4),
      .vmulLi (lw 0x08 0 2), .vmulh (lw 0x03 0 2 4), .vmulhLi (lw 0x03 0 2), .vmad (lw 0x03 0 2 4 8), .vmadLi (lw 0x03 0 2 4),
      .vmin (lw 0x03 0 2 4), .vminLi (lw 0x03 0 2), .vmax (lw 0x03 0 2 4), .vmaxLi (lw 0x03 0 2), .vabs (lw 0x03 0 2),
      .vand (lw 0 0 2 4), .vandLi (lw 0 0 2), .vor (lw 0 0 2 4), .vorLi (lw 0 0 2), .vxor (lw 0 0 2 4), .vxorLi (lw 0 0 2),
      .vshl (lw 0x03 0 2 4), .vshlLi (lw 0x03 0 2), .vshr (lw 0x03 0 2 4), .vshrLi (lw 0x03 0 2), .vsar (lw 0x03 0 2 4),
      .vsarLi (lw 0x03 0 2), .vpopc (lw 0 0 2), .vclz (lw 0 0 2), .vsadd (lw 0x03 0 2 4), .vsaddLi (lw 0x03 0 2),
      .vssub (lw 0x03 0 2 4), .vssubLi (lw 0x03 0 2), .vbfx (lw 0 0 2 4 8), .vbfxLi (lw 0 0 2 4), .vbfi (lw 0 0 2 4 8),
      .vbfiLi (lw 0 0 2 4), .vcmp (lw 0x03 5 2 4 0 0 3), .vcmpLi (lw 0x07 0 2 0 0 0 3), .pset (lw 0 0 2 0 0 0 3),
      .pand (lw 0 0 1 2 0 0 3), .por (lw 0 0 1 2 0 0 3), .pxor (lw 0 0 1 2 0 0 3), .pnot (lw 0 0 1 0 0 0 3), .vsel (lw 0 0 2 4),
      .vselLi (lw 0 0 2), .vmask (lw 0 1 1 0 0 0x40000000 5), .vmov (lw 0 0 2), .vmovi (lw 0), .viota (lw 0 0 1)] = true := by decide

/-- Floating-point, conversion, movement and reduction instructions pass the gate. -/
theorem test_runs_lane_floating_and_movement :
    allLanes [.vfadd (lw 0x09 0 2 4), .vfaddLi (lw 0x0A 0 2), .vfsub (lw 0x0B 0 2 4), .vfsubLi (lw 0x09 0 2), .vfmul (lw 0x09 0 2 4),
      .vfmulLi (lw 0x09 0 2), .vffma (lw 0x09 0 2 4 8), .vffmaLi (lw 0x09 0 2 4), .vfmin (lw 0x09 0 2 4), .vfminLi (lw 0x09 0 2),
      .vfmax (lw 0x09 0 2 4), .vfmaxLi (lw 0x09 0 2), .vfdiv (lw 0x09 0 2 4), .vfdivLi (lw 0x09 0 2), .vfrcp (lw 0x09 0 2),
      .vfrsq (lw 0x09 0 2), .vfsqrt (lw 0x09 0 2), .vfrnd (lw 0x09 0 2), .vfclass (lw 0x09 0 2), .vfexp2 (lw 0x09 0 2),
      .vflog2 (lw 0x09 0 2), .vfsin (lw 0x09 0 2), .vfcos (lw 0x09 0 2), .vfcmp (lw 0x09 7 2 4 0 0 3),
      .vfcmpLi (lw 0x0A 0 2 0 0 0 3), .vcvt (lw 0x09 3 2), .vcvt (lw 0x03 9 2), .vcvt (lw 0x0C 9 2), .vcvt (lw 0x0D 3 2),
      .vcvt (lw 0x0B 12 2), .vcvt (lw 0x0D 13 2), .vcvt (lw 0x04 1 2), .vcvt (lw 0x0A 9 2), .vcvt (lw 0x0D 12 2), .vcvt (lw 0x03 12 2),
      .vcvt (lw 0x04 13 2), .vscale (lw 0x09 0 2 4),
      .vpack (lw 0x02 0 2 4), .vpack (lw 0x06 0 2 4), .vpack (lw 0x01 0 2 4), .vpack (lw 0x05 0 2 256), .vpack (lw 0x0A 0 2 4), .vunpack (lw 0x01 3 2),
      .vunpack (lw 0x05 0 2), .vunpack (lw 0x02 1 2), .vunpack (lw 0x06 0 2), .vunpack (lw 0x0B 1 2), .vshuf (lw 0 0 2 4),
      .vbcast (lw 0 0 2 264), .vrot (lw 0 0 2 264), .vxlane (lw 0 0 2 264), .vreadlane (lw 0 0 2 264 0 0x40000000 5),
      .vwritelane (lw 0 0 256 264), .vreduce (lw 0x03 0 2), .vreduce (lw 0x09 2 2), .vreduce (lw 0x03 0 2 0 0 0x40000000)] = true := by
  decide

/-- VREDUCE to a scalar with and without an active lane. -/
theorem test_reduce_masks :
    (lruns (.vreduce (lw 0x03 0 2 0 0 0x40000000 5)) (laneSt (.vreduce (lw 0x03 0 2 0 0 0x40000000 5)) 0) (fun c => c.mask == 0) &&
      lruns (.vreduce (lw 0x03 0 2 0 0 0x40000000 5)) (laneSt (.vreduce (lw 0x03 0 2 0 0 0x40000000 5)) 5) (fun c => c.mask == 5) &&
      (lw 0x03 0 2 0 0 0x40000000).sd) = true := by decide

/-- The lane gate traps (R257) and waits. -/
def laneIn (i : Instr) (f : LaneItem → LaneItem) (g : Wave → Wave := id) : State :=
  onW (laneSt i) (fun w => g { w with lane := { w.lane with queue := w.lane.queue.map f } })
theorem test_lane_gate :
    ((match laneGate (.vadd (lw 0x01)) (laneSt (.vadd (lw 0x01))) with | .trap _ t => t.cause == 0x02 | _ => false) &&
      (match laneGate (.vmask (lw 0 0 1 0 0 0x40000000 5)) (laneIn (.vmask (lw 0 0 1 0 0 0x40000000 5)) (fun i => { i with nfrag := 2 })) with
        | .trap _ t => t.cause == 0x60 | _ => false) &&
      decide (laneGate (.vadd (lw 0x03 0 2 4)) (laneIn (.vadd (lw 0x03 0 2 4)) (fun i => { i with spec := [0] })) = .stall) &&
      decide (laneGate (.vadd (lw 0x03 0 2 4)) (laneIn (.vadd (lw 0x03 0 2 4)) id (fun w => { w with work := { w.work with
        outs := [{ anOut false with dest := .vector 2, nvec := 1, scl := false }] } })) = .stall)) = true := by decide

/-- R161: a block whose next instruction, and whose last, still stream in. -/
def streams (n : Nat) : State := laneIn (.vmov (lw 0 0 2)) id (fun w =>
  { w with lane := { w.lane with rest := (w.lane.queue ++ w.lane.queue).take n } })
theorem test_lane_queue :
    ([0, 1, 2].all (fun n => ((streams n).wave? 0 0).any (fun w => decide (w.lane.queue.length = 1) &&
        decide (w.lane.rest.length = n) && (w.frags.get? 0).isSome))) = true := by decide

/-- The premises on the types of sources, results and conversions each hold of some type. -/
theorem test_lane_types :
    (decide (0 < elemCount 0x03) && decide (1 < elemCount 0x06) && is64 0x04 && is64 0x08 && isFloatTyp 0x09 &&
      isFloatTyp 0x0A &&
      isFloatTyp 0x0B && typSigned 0x03 && !is64 0x09 &&
        lruns (.vmov (lw 0 0 2)) (laneSt (.vmov (lw 0 0 2)))) = true := by decide

/-- Base address `b` in $0; lane `l` adds four times its number from v0. -/
def laneMem (i : Instr) (b : Word) (m : Mask := 3) (g : Wave → Wave := id) : State :=
  onW (laneSt i m [b, 0, 0, 0, 0, 0, 0, 0]) (fun w => g { w with vec := Sparse.set w.vec 0 0x0000000C0000000800000004_00000000 })
/-- Base $0, index v0; a load to v6, a store of v0. -/
def lm (typ : BitVec 5) (mod : BitVec 8 := 0) (low : BitVec 31 := 0) : LaneWord := lw typ mod 256 0 0 low
def ls (typ : BitVec 5) (mod : BitVec 8 := 0) (low : BitVec 31 := 0) : LaneWord := lw typ mod 256 0 0 low 0
/-- Every lane of the mask lies in the wave's own scratch, aligned and clear. -/
def scratchOk (s : State) (w : LaneWord) (m : LCtx → Mask) (n : Nat) (store : Bool) (c : LCtx) : Bool :=
  !c.w.fenced && lanesAll (m c) (fun l => let va := (c.laneEa w l).toNat
    windowOf va == .scratch && decide (va % n = 0) && (s.ownScratch c.w va n).isSome && !s.rangeLocked c.w va n store)
def scratchLoad (i : LaneWord → Instr) (w : LaneWord) (n : Nat) : Bool :=
  lruns (i w) (laneMem (i w) copyScratch) (scratchOk (laneMem (i w) copyScratch) w (·.mask) n false)
def scratchStore (i : LaneWord → Instr) (w : LaneWord) : Bool :=
  lruns (i w) (laneMem (i w) copyScratch) (fun c => scratchOk (laneMem (i w) copyScratch) w (fun c => c.taking w true) 4 true c &&
    c.w.work.outs.isEmpty)
theorem test_lane_scratch :
    (scratchLoad .vld (lm 0x07) 4 && scratchLoad .vlds (lm 0x07) 4 && scratchLoad .vldc (lm 0x07) 4 &&
      scratchLoad .vaccrd { lm 0x09 with sb := 264, sc := 264 } 16 && scratchStore .vst (ls 0x07) &&
        scratchStore .vsts (ls 0x07) &&
      scratchStore .vst (ls 0x07 0 0x18000000) && decide (1 ≤ (ls 0x07 0 0x18000000).scp.toNat) &&
        scratchStore .vstp (ls 0x07) && scratchStore .vatom (lm 0x07 8) &&
      scratchStore .vatom { lm 0x07 1 with sb := 264 }) = true := by decide +kernel

/-- Hand-off lines: FULL for a load and EMPTY for a store, and the other way. -/
def fullLine (s : State) : State := s.setCluster 0 { s.cluster 0 with full := [0] }
def vldcSt : State := laneMem (.vldc (lm 0x07)) copyScratch
def vstpSt : State := laneMem (.vstp (ls 0x07)) copyScratch
theorem test_hand_off :
    (scratchLoad .vldc (lm 0x07 0 0x10000000) 4 && scratchStore .vstp (ls 0x07 0 0x10000000) &&
      (ls 0x07 0 0x10000000).scp == 1 &&
        lruns (.vldc (lm 0x07)) (fullLine vldcSt) (scratchOk (fullLine vldcSt) (lm 0x07) (·.mask) 4 false) &&
        (fullLine vldcSt).lineFull 0 0 && ((fullLine vldcSt).cluster 0).linew.isEmpty &&
        lruns (.vldc (lm 0x07)) vldcSt && !vldcSt.lineFull 0 0 &&
          lruns (.vstp (ls 0x07)) vstpSt (fun c => c.w.work.outs.isEmpty) &&
        !vstpSt.lineFull 0 0 && lruns (.vstp (ls 0x07)) (fullLine vstpSt) &&
          (fullLine vstpSt).lineFull 0 0) = true := by decide +kernel

/-- What a hand-off meets: an access that reached its line before it and could take it, or one that could not. -/
def behind (s : State) (full : Bool) : State :=
  s.setCluster 0 { s.cluster 0 with linew := [⟨1, 9, 0, [0, 5], full⟩] ++ (s.cluster 0).linew }
def beats (s : State) (line : Nat) : Bool :=
  (s.cluster 0).linew.any (fun y => y.kind == 1 && y.ready (s.cluster 0) && y.lines.contains line)
theorem test_hand_off_order :
    (let s := behind vstpSt false
     let t := behind (fullLine vldcSt) true
     lruns (.vstp (ls 0x07)) s (fun c => !c.w.fenced && c.mask == 3 && c.w.work.outs.isEmpty) && beats s 0 &&
       lruns (.vldc (lm 0x07)) { t with clusters := t.clusters } && !beats t 0 &&
       (let u := t.setCluster 0 { t.cluster 0 with full := [0, 5] }; lruns (.vldc (lm 0x07)) u && beats u 0)) = true := by
  decide +kernel

/-- The global window: no line held, every line held; loads, gathers, stores, scatters and atomics. -/
def globalOk (i : LaneWord → Instr) (w : LaneWord) (acc : BitVec 3) (store : Bool) : Bool :=
  let s := laneMem (i w) 128
  lruns (i w) s (fun c => !c.w.fenced && c.mask != 0 && decide (c.w.ldCount < 63) && decide (c.w.stCount < 63) &&
    !(s.core c.core).noMiss && lanesAll c.mask (fun l =>
    let va := (c.laneEa w l).toNat
    windowOf va == .global && inWindow va 4 && decide (va % 4 = 0) && !s.rangeLocked c.w va 4 store &&
      s.dirtyClear c.core c.w.ident.job va &&
      (match s.translate c.core c.w.ident.job va acc c.w.sched.lfails with | .ok _ _ => true | _ => false)))
def heldLine (s : State) : State := s.setCore 0 { s.core 0 with l1 := [⟨1, 0, 0, 0x1234⟩] }
theorem test_lane_global :
    (globalOk .vld (lm 0x07) 0 false && globalOk .vldx (lm 0x07) 0 false && globalOk .vst (ls 0x07) 1 true &&
      globalOk .vstx (ls 0x07) 1 true && globalOk .vatom (lm 0x07 1) 2 true &&
      lruns (.vld (lm 0x07)) (heldLine (laneMem (.vld (lm 0x07)) 128)) &&
      ((heldLine (laneMem (.vld (lm 0x07)) 128)).l1Find 0 1 0 0).isSome &&
        ((laneMem (.vld (lm 0x07)) 128).l1Find 0 1 0 0).isNone) =
      true := by decide +kernel

/-- Prefetches of a line that no L1 holds, and reductions whose entries are new or stand already. -/
def prefSt : State := laneMem (.vpref (ls 0)) 128
def redFits (s : State) : Bool :=
  let r := ls 0x07 1
  lruns (.vred r) s (fun c => !c.w.fenced && decide (c.w.work.red.length + (lanesOf (c.taking r true)).length ≤ 128) &&
    decide (s.quarterRed c.core c.slot + (lanesOf (c.taking r true)).length ≤ 512) && lanesAll (c.taking r true) (fun l =>
      let va := (c.laneEa r l).toNat
      decide (va % 4 = 0) && !s.rangeLocked c.w va 4 true &&
        (windowOf va == .global && inWindow va 4 || windowOf va == .scratch && (s.ownScratch c.w va 4).isSome)))
def redSt (b : Word) (red : List RedEntry) : State :=
  laneMem (.vred (ls 0x07 1)) b 3 (fun w => { w with work := { w.work with red := red } })
theorem test_lane_prefetch_and_reduction :
    (lruns (.vpref (ls 0)) prefSt (fun c => !(prefSt.core c.core).noMiss && lanesAll c.mask (fun l =>
        (match prefSt.translate c.core c.w.ident.job ((c.laneEa (ls 0) l).toNat / 128 * 128) 4 c.w.sched.lfails with
          | .ok pa leaf => (prefSt.l1Find c.core (pa / 128) (leaf.extractLsb' 51 10) c.w.ident.job).isNone
          | _ => false))) &&
      redFits (redSt 128 []) && redFits (redSt copyScratch []) &&
        redFits (redSt 128 [⟨132, 5, 0x241, 0x07, 1, 0⟩])) = true := by decide +kernel

/-- Tree sessions: a good selection at both ends of its ranges, bad ones, a second send; a receive without a send,
without a result and with one. -/
def treeSt (i : Instr) (sel : Word) (sends : Tab TreeSend) : State :=
  laneIn i (fun x => { x with treesel := sel }) (fun w => { w with work := { w.work with sends := sends } })
def selOk (v : Word) : Bool :=
  decide (1 ≤ (v.extractLsb' 48 9).toNat) && decide ((v.extractLsb' 40 8).toNat + (v.extractLsb' 48 9).toNat ≤ 256) &&
    decide (1 ≤ (v.extractLsb' 24 6).toNat) && decide ((v.extractLsb' 24 6).toNat ≤ 32) &&
      decide ((v.extractLsb' 16 4).toNat ≤ 10)
def trSend : Instr := .vtrsend (lw 0 0 2 0 0 0 0)
def trRecv : Instr := .vtrrecv (lw 0)
theorem test_tree :
    ([0x0001000001000001, 0x01000000200A0007].all (fun v => lruns trSend (treeSt trSend v []) (fun c =>
        selOk c.it.treesel && decide ((c.it.treesel.extractLsb' 40 8).toNat ≤ c.core) &&
        decide (c.core < (c.it.treesel.extractLsb' 40 8).toNat + (c.it.treesel.extractLsb' 48 9).toNat) &&
          c.w.work.sends.isEmpty && c.w.work.outs.isEmpty && !c.w.trapHeld)) &&
      [0, 0x0101000001000000, 0x0001000000000000, 0x0001000021000000, 0x00010000010B0000].all (fun v =>
        lruns trSend (treeSt trSend v []) (fun c => !selOk c.it.treesel)) &&
      lruns trSend (treeSt trSend 0x0001000001000001 [(1, ⟨0, 0, 0, none⟩)]) (fun c => c.w.work.sends.has 1) &&
      lruns trSend (treeSt trSend 0x0001010001000001 []) (fun c => selOk c.it.treesel && decide (c.core < 1)) &&
      lruns trRecv (treeSt trRecv 0 []) (fun c => !selOk c.it.treesel && c.w.spec.isEmpty) &&
      lruns trRecv (treeSt trRecv 0x0001000001000001 []) (fun c => selOk c.it.treesel && c.w.spec.isEmpty) &&
      lruns trRecv (treeSt trRecv 1 []) (fun c => (c.w.work.sends.get? 1).isNone && !c.w.trapHeld) &&
      [none, some [7]].all (fun r => lruns trRecv (treeSt trRecv 0x0001000001000001 [(1, ⟨0, 0, 0, r⟩)]) (fun c =>
        selOk c.it.treesel && (c.w.work.sends.get? 1).isSome))) = true := by
  decide

/-- Every lane fails one check: each cause has its address. -/
def faultAt (a : Word) (p : Nat → Bool) : Bool :=
  let w := ls 0x07
  let s := laneMem (.vst w) a
  lruns (.vst w) s (fun c => c.taking w true == 3 && c.w.spec.isEmpty && !c.w.fenced && !c.w.trapHeld &&
    s.xlate.held.isEmpty &&
    !c.w.trap.sup && lanesAll (c.taking w true) (fun l => p (c.laneEa w l).toNat))
def lockedScratch : State :=
  let s := laneMem (.vst (ls 0x07)) copyScratch
  s.setCore 0 { s.core 0 with locks := [⟨1, 1, 0, [0], 0, 1024, true, false⟩] }
/-- The buffer of the die's records is full. -/
def fullRecords (s : State) : State := { s with xlate := { s.xlate with held := List.replicate 64 ⟨0, 0, []⟩ } }
theorem test_lane_faults :
    (faultAt 0x0200000000000000 (fun a => windowOf a == .none) &&
      faultAt 0x0160000000000000 (fun a => windowOf a == .light && inWindow a 4) &&
      faultAt 0x0170000000000000 (fun a => windowOf a == .mgmt && inWindow a 4) &&
      faultAt 0x0150000000000000 (fun a => windowOf a == .queues && inWindow a 4) &&
      [0x0150000000000000, 0x0170000000000000].all (fun a =>
        lruns (.vst (ls 0x07)) (sup (laneMem (.vst (ls 0x07)) a)) (fun c => c.w.trap.sup && !c.w.trapHeld && c.w.spec.isEmpty)) &&
      (let s := laneMem (.vst (ls 0x07)) 0x0170000000000000
       s.canRecord 0 0 1 && !(fullRecords s).canRecord 0 0 1 && lruns (.vst (ls 0x07)) (fullRecords s)) &&
      faultAt 0x014FFFFFFFFFFFFA (fun a => windowOf a == .scratch && a % 2 == 0) && !inWindow 0x014FFFFFFFFFFFFE 4 &&
      faultAt 0x0140000000000001 (fun a => windowOf a == .scratch && decide (a % 4 ≠ 0)) &&
      faultAt 0x0140000000000400 (fun a => windowOf a == .scratch && decide (a % 4 = 0)) &&
      faultAt 2 (fun a => windowOf a == .global && inWindow a 4 && decide (a % 4 ≠ 0)) &&
        allLanes [.vld (lm 0x07), .vatom (lm 0x07 1)] &&
      lruns (.vst (ls 0x07)) lockedScratch (fun c => lockedScratch.rangeLocked c.w copyScratch.toNat 4 true)) = true := by decide +kernel

/-! ### Events: translation, keys, regions, links -/

/-- A request of the wave's, for one access; changed where a test needs it. -/
def aTxn : Txn where
  op := .rd
  phase := .made
  users := [⟨1, 900, [⟨0, 128, 128, 8, 5, 0⟩], .scalar 5 0, 0, none, 0⟩]
  core := 0
  slot := 0
  die := 0
  stack := 0
  job := 0
  key := 0
  pa := 128
  va := 128
  cnt := 2
  elems := [⟨0, 128, 128, 8, 5, 0⟩]
  esz := 8
  data := List.replicate 128 0
  bmask := 0xFF
  aop := 1
  typ := 0x08
  acc := 0
  agent := 0
  status := .ok
  pmask := []
  mism := []
  fill := true
  seen := 1
  owner := false
  tag := 0
  own := false
  orig := 0

/-- A table at 0x10000, whose pointers of levels 0 and 1 cluster 0 holds, and a walk of the wave's for page 2: the request
for its level 2 entry, at 0x12000, has its reply, `leaf`. -/
def walkSt (leaf : Word) : State :=
  let s := st.setReg (jobReg 0 0) 0x10001
  let s := s.setCluster 0 { s.cluster 0 with ptr := [⟨0, 0, 0, 0x11001⟩, ⟨0, 1, 0, 0x12001⟩] }
  match s.wave? 0 0 with
  | some w => { s with
      net := ⟨[(40, { aTxn with owner := true, phase := .replied, pa := 0x12000, users := [],
                                data := bytesOfWord leaf ++ List.replicate 120 0 })], [], 50⟩
      xlate := ⟨[(5, ⟨0, 0, 0x20000, 0, [2 * w.ident.uid], [.task 3], 0, 0, some 40⟩)], [], 0, []⟩ }
  | none => s
def walkIs (s : State) (p : WalkEnd → Bool) (q : Walk → Bool := fun _ => true) : Bool :=
  match s.xlate.walks.get? 5 with
  | some x => s.walking 5 x && q x && (match s.walk 5 x with | (e, 0, t) => p e && srv t 0x12000 0 && t.ctl.flaws.isEmpty | _ => false)
  | none => false
/-- The walk has made no request yet. -/
def walkNew (s : State) : State :=
  match s.xlate.walks.get? 5 with
  | some x => s.setWalk 5 { x with req := none }
  | none => s
/-- The die's port is held. -/
def portWalk : State := { walkSt 0xE000000000000043 with ctl := { (walkSt 0xE000000000000043).ctl with mpoint := some 1 } }
def leafFree (s : State) : Option Bool :=
  match s.xlate.walks.get? 5 with
  | some x => (match s.walk 5 x with | (.leaf _ _ pa, _, t) => some (t.leafClear x.cluster pa) | _ => none)
  | none => none
/-- Walks that end with a leaf, with A set and clear, whose update is free or held, that wait, and that fail; one that asks
for the entry of the root; a job without EN. -/
theorem test_table_walks :
    (walkIs (walkSt 0xE0000000000000C3) (fun e => match e with | .leaf e l _ => l == 2 && e.getLsbD 7 | _ => false) &&
      walkIs (walkSt 0xE000000000000043) (fun e => match e with | .leaf e l _ => l == 2 && !e.getLsbD 7 | _ => false) &&
      leafFree (walkSt 0xE000000000000043) == some true && leafFree portWalk == some false &&
      walkIs (walkNew (walkSt 0)) (fun e => e == .wait) &&
      walkIs (walkSt 0) (fun e => match e with | .fail c _ _ => c == 0x22 | _ => false)
        (fun x => x.askers == [.task 3] && x.users.all (fun u => ((walkSt 0).findWave (u / 2)).isSome)) &&
      (let s := (walkNew (walkSt 0)).setCluster 0 Cluster.empty
       walkIs s (fun e => e == .wait) (fun x => x.req.isNone && (s.cluster x.cluster).ptr.isEmpty) &&
       (s.reg (jobReg 0 0)).getLsbD 0) &&
      !(State.reset.reg (jobReg 0 0)).getLsbD 0) = true := by decide +kernel

/-- ERET with action 1 at a page whose miss is still on its way. -/
def eretMiss : State := onW (sup (walkSt 0)) (fun w => { w with trap := { w.trap with
  tspc := 0x20000, tcause := 5, h := Sparse.set [] 0 1 } })
theorem test_return_waits :
    (runs .eret eretMiss (fun c => c.w.laneAll.isEmpty && c.w.trap.absent.isNone && (c.w.trap.h.get 0).toNat % 8 == 1 &&
      (eretMiss.lengthAt ⟨0, 0, c.w⟩ c.w.trap.tspc.toNat).1.isNone)) = true := by decide

/-- A page of each window whose leaf passes. -/
def leafIs (s : State) (va : Nat) (e : Word) : Bool :=
  !s.badLeaf 2 va e && (match s.leafEnd 0 2 va 0 0 e with | .leaf _ _ _ => true | _ => false)
def routed : State := { st with ctl := { (st).ctl with routes := [0] } }
theorem test_leaf_windows :
    (leafIs routed 0 0xE0000000000000C3 && leafIs routed 0x0100000000000000 0xE0020000000000C3 &&
      leafIs routed 0x0120000000000000 0xE0040000000000C3 && decide (windowOf 0x0100000000000000 = .peer) &&
      decide (windowOf 0x0120000000000000 = .host) && routed.hasRoute 0x0100000000000000) = true := by decide

/-- TLBINVC: BUSY, with a reserved bit, and a good one; a completion with and without older accesses. -/
def invSt : State := { st with ctl := { (st).ctl with tlbCmd := some (1, 0, 5) } }
theorem test_invalidation :
    ([((1 : Word), 1), (2, 2), (3, 3)].all (fun e => bits e.1 1 0 == e.2 && e.1 &&& ~~~0x0000FFFF003FF003#64 == 0) &&
      bits (0x8000000000000001 : Word) 1 0 == 1 && (0x8000000000000001 : Word) &&& ~~~0x0000FFFF003FF003#64 != 0 &&
      invSt.ctl.tlbCmd.isSome && st.ctl.tlbCmd.isNone && !(invSt.setCore 0 Core.empty).tlbHolds 1 0 &&
        !invSt.oldAccesses 1 5 &&
      (let s := invSt.setCore 0 Core.empty
       { s with net := ⟨[(3, { aTxn with core := 0 })], [], 9⟩ }.oldAccesses 1 5)) = true := by decide

/-- A held record of the die, with and without room; none. -/
def heldSt : State := { st with xlate := { (st).xlate with held := [⟨0, 0, [1, 2, 3, 4]⟩] } }
theorem test_record_drain :
    (decide (0 < heldSt.ringRoom 0) && srv heldSt (bits (heldSt.reg (jobReg 0 0x10)) 51 12 * 4096) 0 &&
      heldSt.portsClear 0 (bits (heldSt.reg (jobReg 0 0x10)) 51 12 * 4096) 32 && heldSt.ctl.flaws.isEmpty &&
      (heldSt.setReg (jobReg 0 0x28) (BitVec.ofNat 64 (ringSize (heldSt.reg (jobReg 0 0x18))))).ringRoom 0 == 0 &&
      (st).xlate.held.isEmpty && heldSt.xlate.held.all (fun r => r.die == 0)) = true := by decide

/-- Key commands: every refusal and every acceptance. -/
theorem test_keys :
    (let r := State.reset
      let full := { r with ctl := { r.ctl with keys := [(2, 7)] } }
      let used := (full.setJobState 0 1).setReg (jobReg 0 0x08) 2
      let busy := { r with ctl := { r.ctl with keyCmd := some 1 } }
      let mat := r.setReg 0x100 5
      [((9 : Word), 1), (10, 2), (11, 3)].all (fun e => bits e.1 1 0 == e.2 && bits e.1 11 2 == 2 &&
        bits e.1 63 12 == 0) &&
        bits (1 : Word) 11 2 == 0 && bits (0x1001 : Word) 63 12 != 0 && busy.ctl.keyCmd.isSome && r.ctl.keyCmd.isNone &&
        full.ctl.keys.get 2 != 0 && r.ctl.keys.get 2 == 0 && used.jobState 0 == 1 &&
          bits (used.reg (jobReg 0 0x08)) 9 0 == 2 &&
        r.kmat.extractLsb' 0 256 == r.kmat.extractLsb' 256 256 &&
          mat.kmat.extractLsb' 0 256 != mat.kmat.extractLsb' 256 256 &&
        (List.range 1024).all (fun j => r.jobState j == 0)) = true := by decide +kernel

/-- Live-map commands: BUSY, a reserved bit, counts 0 and too large, a range past the end, an empty key slot, a good
one. -/
theorem test_live_map :
    (let r := State.reset
      let go (first n : Word) : State := (r.setReg 0x408 first).setReg 0x410 n
      let busy := { r with ctl := { r.ctl with lmCmd := some (1, 0, 0) } }
      bits (1 : Word) 1 0 == 1 && bits (2 : Word) 1 0 == 2 && bits (5 : Word) 11 2 == 1 &&
        bits (0x1001 : Word) 63 12 != 0 &&
        busy.ctl.lmCmd.isSome && bits ((go 0 0).reg 0x410) 16 0 == 0 && bits ((go 0 0x10001).reg 0x410) 16 0 == 65537 &&
        decide (1152 * 2 ^ 30 < (bits ((go 589824 1).reg 0x408) 30 0 + 1) * 2 ^ 21) &&
        decide ((bits ((go 589823 1).reg 0x408) 30 0 + 1) * 2 ^ 21 ≤ 1152 * 2 ^ 30) && r.ctl.keys.get 1 == 0 &&
        r.liveEntry 3 == ⟨false, 0, false⟩) = true := by decide +kernel

/-- Interface commands: refused while BUSY and with a reserved point, accepted, released; a full channel; margins. -/
theorem test_link :
    (let r := State.reset
      let mp := { r with ctl := { r.ctl with mpoint := some 1 } }
      let tagged := { mp with net := ⟨[(3, { aTxn with phase := .sent 2 })], [], 9⟩ }
      let eye := (r.setReg 0x1000 0xFF).setReg 0x1008 0x1FF
      bits (3 : Word) 1 0 == 3 && bits (1 : Word) 1 0 == 1 && bits (2 : Word) 1 0 == 2 && mp.memBusy && !r.memBusy &&
        { r with ctl := { r.ctl with retrain := [4] } }.memBusy &&
          { r with ctl := { r.ctl with lmCmd := some (1, 0, 0) } }.memBusy &&
        !mp.net.txns.any (fun e => e.2.tagged) && tagged.net.txns.any (fun e => e.2.tagged) &&
        bits ((r.setReg 0x1018 3).reg 0x1018) 1 0 == 3 && bits (r.reg 0x1018) 1 0 == 0 &&
        bits (eye.reg 0x1000) 7 0 == 255 && (eye.reg 0x1008).getLsbD 8 &&
        (let low := eye.setReg 0x1000 9
         decide (bits (low.reg 0x1000) 7 0 < bits (low.reg 0x1008) 7 0) &&
           decide (bits (eye.reg 0x1008) 7 0 ≤ bits (eye.reg 0x1000) 7 0) &&
           !decide (bits (low.reg 0x1008) 7 0 ≤ bits (low.reg 0x1000) 7 0) &&
           ({ low with ctl := { low.ctl with alerts := [(2, 3), (0, 5)] } }.ctl.alerts.find? (fun a => a.1 == 0)) == some (0, 5) &&
           low.ctl.alerts.isEmpty && !(low.reg 0x1000).getLsbD 8 && low.reg 0x438 == low.reg 0x440) &&
        !(r.reg 0x1008).getLsbD 8) = true := by decide

/-! ### Events: requests, replies, slices -/

/-- Requests in flight, in a state with region 0 live under key 0. -/
def netSt (l : Tab Txn) (e : Tab LensEntry := []) : State := { st with net := ⟨l, e, 50⟩ }
/-- Request 7 has been accepted and may be performed. -/
def accepted (x : Txn) : Bool :=
  let s := netSt [(7, { x with phase := .sent 3 })]
  (s.txn? 7).any (fun y => y.op == x.op && s.mayPerform y 3 && srv s x.pa x.key && !y.badPacket && s.ctl.flaws.isEmpty)
/-- The same of a request that is malformed. -/
def malformed (x : Txn) : Bool :=
  let s := netSt [(7, { x with phase := .sent 3 })]
  (s.txn? 7).any (fun y => y.op == x.op && s.mayPerform y 3 && y.badPacket && decide (y.die < 4) && decide (y.job < 1024))
/-- Each kind of request stands at its base die; a region of each other status. -/
theorem test_requests :
    ([.rd, .wr, .wrm].all (fun op => accepted { aTxn with op := op }) &&
      [.atm, .grd, .gwr].all (fun op => accepted { aTxn with op := op, cnt := 1 }) &&
      [.rd, .wr, .wrm, .atm, .grd, .gwr].all (fun op => malformed { aTxn with op := op, cnt := if op = .rd then 3 else 0, pa := 129 }) &&
      aTxn.data.length == 64 * aTxn.cnt && decide (aTxn.cnt = 2) && State.reset.reg 0x438 == State.reset.reg 0x440 &&
      (let s : State := { st with ctl := { (st).ctl with flaws := [⟨2, true⟩] } }; s.ctl.flaws.contains ⟨aTxn.pa / 64, true⟩) &&
      !srv (netSt []) 0x200000 0 &&
        (let s : State := { netSt [] with ctl := { (st).ctl with live := [(0, ⟨true, 3, false⟩), (1, ⟨true, 0, true⟩)] } }
        s.liveEntry 0 == ⟨true, 3, false⟩ && s.liveEntry 1 == ⟨true, 0, true⟩) &&
      decide (aTxn.pa % 64 = 0) && aTxn.elems.length == 1 &&
      ((netSt [(7, { aTxn with phase := .performed true })]).txn? 7).any (fun x => x.phase == .performed true)) = true := by decide +kernel

/-- The wave waits for access 900. -/
def waitsSt (x : Txn) (o : Out := anOut false) (e : Tab LensEntry := []) : State :=
  match (st).wave? 0 0 with
  | some w => onW (netSt [(7, { x with users := x.users.map (fun u => { u with uid := w.ident.uid }) })] e)
      (fun w => { w with work := { w.work with outs := [o] } })
  | none => st
/-- Its access is awaited, with `p` of the request. -/
def isAwaited (s : State) (p : Txn → User → Bool) : Bool :=
  match s.txn? 7 with
  | some x => (match x.users with
    | [u] => p x u && !x.owner &&
      (s.findWave u.uid).any (fun f => (f.2.2.work.outs.find? (fun o => o.id == u.out)).isSome &&
        f.2.2.work.deferred.isEmpty) && !s.rdivClosed u.uid && decide (s.waves.length = 1)
    | _ => false)
  | none => false
def userTo (d : Dest) : List User := [⟨1, 900, [⟨0, 128, 128, 8, 5, 0⟩], d, 0x07, none, 0⟩]
/-- Replies for a store, a gather, a retired region, an entry, another device with data and without, and a port. -/
theorem test_replies :
    (isAwaited (waitsSt { aTxn with op := .wr, users := userTo .none, phase := .performed false } (anOut true))
        (fun x u => x.phase == .performed false && u.dest == .none && x.status == .ok) &&
      isAwaited (waitsSt { aTxn with op := .grd, users := userTo (.vector 6), esz := 4, phase := .performed false })
        (fun x u => !is64 u.typ && decide (x.esz * 8 = typWidth u.typ)) &&
      isAwaited (waitsSt { aTxn with op := .wr, users := userTo .none, status := .retired, phase := .performed false } (anOut true))
        (fun x u => x.status == .retired && !u.elems.isEmpty) &&
      (netSt [(7, { aTxn with phase := .performed false })] [(7, ⟨0, 1, 0, 0, [], true⟩)]).net.lens.has 7 &&
      ((netSt [(7, { aTxn with phase := .performed false, owner := true })]).txn? 7).any (·.owner) &&
      isAwaited (waitsSt { aTxn with va := 0x0120000000000000, phase := .remote }) (fun x u =>
        x.phase == .remote && u.elems.all (fun e => e.size == 8 && e.pa == x.pa) && decide (windowOf x.va ≠ .peer)) &&
      ((netSt [(7, { aTxn with phase := .held 3 })]).portHead 0 0).isSome && !(netSt []).portBusy 0 0 &&
      ({ st with ctl := { (st).ctl with mpoint := some 1 } }).portBusy 0 0) = true := by decide

/-- A reply to an evicted wave: a store, and an atomic of its scalar register. -/
def anAway : Away := ⟨⟨0, 1, 0, 0⟩, 0x1000, 4, [anOut false], mats, ⟨0, 0, false, 0, 0, 0, 0, 0, 0⟩, false, [], [], 0, 0, [], [], [], 0, 0,
  [], none, [], [], 0, 0, 0⟩
def awaySt (d : Dest) : State :=
  { (netSt [(7, { aTxn with op := .atm, phase := .replied, data := List.replicate 8 3
                            users := [⟨anAway.ident.uid, 900, [⟨0, 128, 128, 8, 5, 0⟩], d, 0x08, none, 0⟩] })]) with
    waves := [], away := [(anAway.ident.uid, anAway)] }
theorem test_diverted_reply :
    ([Dest.none, .scalar 5 0].all (fun d => let s := awaySt d
      (s.txn? 7).any (fun x => !x.owner && s.ctl.flaws.isEmpty &&
        x.users.all (fun u => s.awayClear u.uid (x.imageRanges u) && !s.rdivClosed u.uid && (s.findWave u.uid).isNone &&
        (s.away.get? u.uid).any (fun a => (a.outs.find? (fun y => y.id == u.out)).isSome &&
          srv s (a.image + 0x400 + 5 * 8) (BitVec.ofNat 10 (bits (s.reg (jobReg a.ident.job 0x08)) 9 0))))))) = true := by decide

/-- Lens slices: a request that waits for an older store, that joins, that opens; an intake; writes; an entry's reply. -/
def openEntry : LensEntry := ⟨0, 1, 0, 0, [6], true⟩
def older : Txn := { aTxn with op := .wr, acc := 1, phase := .made }
theorem test_lens :
    ((netSt [(6, older), (7, aTxn)]).readWaits 7 aTxn && !(netSt [(7, aTxn)]).readWaits 7 aTxn &&
      ((netSt [(7, aTxn)] [(40, openEntry)]).openEntries aTxn).any (fun e => decide (e.2.reqs.length < 64)) &&
      ((netSt [(7, aTxn)]).openEntries aTxn).isEmpty && decide ((netSt [(7, aTxn)]).lensUsed 0 < 8192) &&
      (netSt [(7, { aTxn with phase := .intake 3 })]).intake 0 == [(7, { aTxn with phase := .intake 3 })] &&
      (netSt [(7, { aTxn with phase := .intake 3 })] [(40, { openEntry with line := 2 })]).openEntries aTxn == [] &&
      (netSt [(6, { aTxn with phase := .intake 4 }), (7, { aTxn with phase := .intake 3 })] [(40, openEntry)]).intake 0 ==
        [(7, { aTxn with phase := .intake 3 }), (6, { aTxn with phase := .intake 4 })] &&
      (netSt [(7, { aTxn with phase := .intake 3 })]).intakeBusy 0 && !(netSt [(7, aTxn)]).intakeBusy 0 &&
      (netSt [(7, { older with owner := true })]).mustWait 8 { older with owner := false } &&
      (netSt [(6, older), (7, { aTxn with op := .wr })]).mustWait 7 { aTxn with op := .wr } &&
        !(netSt [(7, older)]).mustWait 7 older &&
      decide (aTxn.stack < 12)) = true := by decide +kernel
/-- Any number of entries of a slice in use, all 8,192 among them, of which a request could join none. -/
theorem test_lens_full : ∀ n l, let s := netSt l ((List.range n).map (fun k => (k, { openEntry with isOpen := false })))
    s.lensUsed 0 = n ∧ s.openEntries aTxn = [] := by
  intro n l
  constructor
  · show (((List.range n).map (fun k => (k, { openEntry with isOpen := false }))).filter (fun e => e.2.slice == 0)).length = n
    rw [List.filter_eq_self.mpr (fun e he => by obtain ⟨k, -, rfl⟩ := List.mem_map.mp he; rfl), List.length_map,
      List.length_range]
  · exact List.filter_eq_nil_iff.mpr (fun e he => by
      obtain ⟨k, -, rfl⟩ := List.mem_map.mp he
      simp [openEntry])
/-- Entry 7 has its reply; request 6 is its requester. -/
def entrySt : State :=
  let s := waitsSt { aTxn with phase := .entry 7 }
  match s.txn? 7 with
  | some y => { s with net := ⟨[(6, y), (7, { aTxn with users := [], phase := .replied })], [(7, openEntry)], 50⟩ }
  | none => s
theorem test_entry_reply :
    ((entrySt.net.lens.get? 7).any (fun e => e.reqs == [6]) && (entrySt.txn? 7).any (fun x => x.phase == .replied &&
      x.status == .ok) &&
      (entrySt.txn? 6).any (fun y => y.op == .rd && y.users.all (fun u => decide (u.elems.length = 1) &&
        (entrySt.findWave u.uid).any (fun f => f.2.2.work.outs.any (fun o => o.id == u.out &&
          !o.clear))))) = true := by decide

/-! ### Events: the host, jobs, firmware, schedulers -/

/-- Host accesses: inside a live region, in a hole, in the management window; queue stores that append and that count;
keys that match and do not. -/
theorem test_host :
    (st.liveEntry (regionOf 64) == ⟨true, 0, false⟩ && decide (64 + 8 ≤ st.populated) && regionOf 71 == regionOf 64 &&
      decide ((st.populated + 8 : Nat) ≤ 0x20000000000) && bits (1 : Word) 1 0 == 1 && bits (2 : Word) 1 0 == 2 &&
        bits (3 : Word) 1 0 == 3 &&
      bits (4 : Word) 3 2 == 1 && bits (8 : Word) 3 2 == 2 && (2 : Word).getLsbD 1 && !(1 : Word).getLsbD 1 &&
        !(2 : Word).getLsbD 0 &&
      (let s := queueSt [] 3 5;
        s.queueOn 3 && decide (s.queueCount 3 ≠ s.queueSize 3) && s.jobState (s.queueJob 3) == 1 && s.queueData 3 &&
          srv s (s.queueSlot 3 (s.queueTail 3)) 0 && s.ctl.flaws.isEmpty) &&
      (let s := queueSt [] 1 5;
        let t : List Word := [0x1000, 0x0000804400000000, 0, 0, 0, 0, 0, 0];
        s.queueOn 3 && !s.queueData 3 && srv s (s.queueSlot 3 (s.queueTail 3)) 0 && t.length == 8 && !taskWen t) &&
      (let s := queueSt [] 3 68;
        decide (s.queueCount 3 = s.queueSize 3)) && !(queueSt [] 2 5).queueOn 3 &&
      (queueSt [] 3 5).jobState 1 == 0 && (st.liveEntry 0).key != 3) = true := by decide

/-- Jobs: CREATE of FREE and ENDED, refused; END; ENDED; queues on and off; halts; watchdogs; the slice ceiling. -/
def overSt (n : Nat) (t : Option Nat) : State :=
  onW (st.updGrid 1 (fun g => { g with chosen := true })) (fun w => { w with sched := { w.sched with overRun := n, overTrap := t } })
theorem test_jobs :
    (let r := State.reset;
      [0, 1, 2, 3].all (fun k => (r.setJobState 5 k).jobState 5 == k) && bits (0x24 : Word) 63 5 != 0 &&
        bits (4 : Word) 63 5 == 0 &&
        (r.setJobState 5 2).jobRemains 5 == false && (st.setJobState 0 2).jobRemains 0 && r.queueOn 3 == false &&
          (queueSt [] 1 5).queueOn 3 &&
        (st.findWave ((st.wave? 0 0).map (fun w => w.ident.uid) |>.getD 0)).isSome &&
        (let s := (st.updGrid 1 (fun g => { g with wd := 65536 })).setReg (jobReg 0 0x68) 1;
         (s.sched.grids.get? 1).any (fun g => decide (max 1 65536 ≤ g.wd)) &&
           (s.reg (jobReg 0 0x68)).toNat % 2 ^ 32 == 1) &&
        (st.setReg (jobReg 0 0x80) 2 |>.wave? 0 0).any (fun w => w.spec.isEmpty) &&
          (specSt.wave? 0 0).any (fun w => !w.spec.isEmpty) &&
        ((overSt 262144 none).wave? 0 0).any (fun w => (overSt 262144 none).gridChosen w.ident.grid && !w.atStop &&
          decide (max 4096 (bits ((overSt 262144 none).reg 0x421030) 31 0) ≤ w.sched.overRun) &&
            w.work.pending.isEmpty) &&
        ((overSt 9 (some 262144)).wave? 0 0).any (fun w => w.sched.overTrap == some 262144 && !w.atStop) &&
        ((overSt 9 (some 1)).wave? 0 0).any (fun w => w.sched.overTrap == some 1) &&
        ((onW st (fun w => { w with sched := { w.sched with halted := true, atBkpt := some 0 } })).wave? 0 0).any (fun w =>
          w.sched.halted && w.sched.atBkpt == some 0 && (w.frags.get? 0).isSome)) = true := by decide

/-- Firmware: a command in progress and none; a running image; an image that does not pass; the dump's two sizes. -/
theorem test_firmware :
    (let r := State.reset;
      r.fw.cmd.isNone && bits (r.reg 0x520) 1 0 != 2 && { r.fw with cmd := some (1, 2) }.cmd.isSome && r.fw.running == some 0 &&
        bits (1 : Word) 1 0 == 1 &&
        bits (2 : Word) 1 0 == 2 && imageCode 0 [] != 0 && r.fw.codeOf 0 == 0 && r.fw.codeOf 1 != 0 &&
          bits (r.reg 0x530) 31 0 == 0 &&
        bits ((r.setReg 0x530 4096).reg 0x530) 31 0 == 4096 &&
        { r.fw with newer := 1 }.codeOf (1 - 1) == 0 &&
          { r.fw with flash := [some [], some []] }.codeOf 0 != 0) = true := by decide

/-- An admission turn: not due; a head that no device could place; a head that fits. -/
def turnSt (task : List Word) : State :=
  let s := (((State.reset.setJobState 0 1).setReg (queueReg 0 0) 1).setReg (queueReg 0 0x20) 1).setReg (queueReg 0 0x08) 0x1000
  let s := ((s.setReg (jobReg 0 0x48) 64).setReg (jobReg 0 0x50) 1024).setReg (jobReg 0 0x58) 2048
  { s with mem := Memory.write s.mem 0x1000 (task.flatMap bytesOfWord), sched := { s.sched with due := [0] },
           ctl := { s.ctl with live := [(0, ⟨true, 0, false⟩)] } }
def turnCand (task : List Word) (p : Cand → State → Bool) : Bool :=
  let s := turnSt task
  let s1 : State := { s with sched := { s.sched with due := s.sched.due.filter (· != 0) } }
  s.sched.due.contains 0 && !s1.dieEmpty 0 && (match s1.dieCands 0 with | [c] => c.queue == some 0 && p c s1 | _ => false)
/-- The port of the queue's die is held. -/
def heldTurn : State := { turnSt aTask with ctl := { (turnSt aTask).ctl with mpoint := some 1 } }
theorem test_held_heads : (!heldTurn.headsClear 0 && !heldTurn.dieEmpty 0 && heldTurn.sched.due.contains 0 &&
    (turnSt aTask).headsClear 0) = true := by decide +kernel
theorem test_admission :
    (State.reset.sched.due.contains 0 == false && turnCand (aTask.set 0 1) (fun c _ => c.unfit) &&
      turnCand aTask (fun c s1 => !c.unfit && (s1.fit c []).ok && (s1.fit c []).place == some [(0, 0)] &&
        taskWaves c.task == 1 &&
        s1.freeSlot 0 0 == some 0 && (s1.gangAlloc 1 0).isNone)) = true := by decide +kernel

/-- Expiry, completion with and without a record to write, and a REGGROW whose groups are there. -/
def growSt : State :=
  let s := onF st (fun f => { f with wait := .grow 64 })
  match s.wave? 0 0 with
  | some w => s.setCore 0 { s.core 0 with growq := [w.ident.uid] }
  | none => s
def doneSt (sig : Bool) (t7 : Word) : State :=
  st.updGrid 1 (fun g => { g with signaled := sig, gangs := [], task := [0, 0, 0, 0, 0, 0, 0, t7] })
theorem test_scheduling :
    ((let s := { st with clk := 0x200000 };
      (s.sched.grids.get? 1).any (fun g => !g.expired && g.waiting.isNone &&
        decide (g.since + max 65536 (bits (s.reg 0x421008) 31 0) ≤ s.clk.toNat))) &&
      (st.sched.grids.get? 1).any (fun g => decide (st.clk.toNat < g.since + 65536)) &&
      [doneSt true 0, doneSt false 0].all (fun s => (s.sched.grids.get? 1).any (fun g => g.liveGangs.isEmpty &&
        s.engines.isEmpty &&
        !taskDen g.task && !taskRen g.task && g.crec.isNone && s.accessesDone 1 && s.countClear g.task)) &&
      (let s := (doneSt false 0).updGrid 1 (fun g => { g with task := g.task.set 6 (2 ^ 47) })
       let s : State := { queueSt [] 1 5 with sched := { s.sched with deps := [(0, ⟨1, 3⟩)] }
                                              ctl := { s.ctl with mpoint := some 1 } }
       (s.sched.grids.get? 1).any (fun g => taskDen g.task && !s.countClear g.task && s.accessesDone 1)) &&
      !({ doneSt false 0 with net := ⟨[(3, { aTxn with phase := .sent 2, users := [⟨131072, 1, [], .none, 0, none, 0⟩] })], [], 9⟩ }).accessesDone 1 &&
      [false, true].all (fun held =>
        let s := (doneSt false 64).updGrid 1 (fun g => { g with task := g.task.set 6 (2 ^ 46) })
        let s := { s with ctl := { s.ctl with mpoint := if held then some 1 else none } }
        (s.sched.grids.get? 1).any (fun g => taskRen g.task && (match s.xlateNow (g.die * 64) 0 g.job 64 1 true (.task 1) with
          | (.ok pa leaf, t) => t.portsClear g.die pa 16 == !held && srv t pa (BitVec.ofNat 10 (bits leaf 60 51))
          | _ => false))) &&
      ((growSt.wave? 0 0).any (fun w => (growSt.core 0).growq == [w.ident.uid] && !w.sched.halted && w.spec.isEmpty &&
        (w.frags.find? (fun e => match e.2.wait with | .grow _ => true | _ => false)).any (fun e => e.1 == 0) &&
        growSt.growFits 0 w 64 && decide (w.vcount ≤ 256)))) = true := by decide +kernel

/-! ### Events: eviction and return -/

/-- The wave of a chosen grid waits in a WAIT; its job has a save area of 64 MiB at 0x10000 within live regions. -/
def leaveSt (outs : List Out) : State :=
  let s := ((onF st (fun f => { f with wait := if outs.isEmpty then .yielding else .counters 0 0 0 0 })).updGrid 1 (fun g => { g with chosen := true })).setReg (jobReg 0 0x38) 0x10000
  let s := onW (s.setReg (jobReg 0 0x40) 1024) (fun w => { w with work := { w.work with outs := outs } })
  { s with ctl := { s.ctl with live := (List.range 40).map (fun k => (k, ⟨true, 0, false⟩)) } }
theorem test_eviction :
    ([leaveSt [], leaveSt [{ anOut false with dest := .scalar 5 0 }]].all (fun s => (s.wave? 0 0).any (fun w => s.mayLeave w && decide (w.vcount ≤ 256) &&
        (match s.saveRoom w.ident.job (s.savedRanges w.ident.job) (ctxSize (w.vcount / 8)) 1024 with
            | some a => s.imageClear 0 0 a (ctxSize (w.vcount / 8)) && !({ s with ctl := { s.ctl with mpoint := some 1 } }).imageClear 0 0 a 64
            | none => false) && s.ctl.flaws.isEmpty && (s.liveWave 0 0 w).1.isSome && s.freeEntry 0 == some 0)) &&
      (st.wave? 0 0).any (fun w => !st.mayLeave w) &&
        ((leaveSt [{ anOut false with dest := .scalar 5 0 }]).wave? 0 0).any (fun w =>
        !((leaveSt [{ anOut false with dest := .scalar 5 0 }]).dueReplies w).isEmpty)) = true := by decide +kernel

/-- No TLB holds the page of the grid's liveness records, and the image can be written: the eviction waits. -/
theorem test_eviction_waits :
    (let s := ((leaveSt []).setCore 0 Core.empty).setCluster 0 { (leaveSt []).cluster 0 with tlb := [] }
     (s.wave? 0 0).any (fun w => s.mayLeave w && (s.liveWave 0 0 w).1.isNone && s.freeEntry 0 == some 0 &&
        (match s.saveRoom w.ident.job (s.savedRanges w.ident.job) (ctxSize (w.vcount / 8)) 1024 with
          | some a => s.imageClear 0 0 a (ctxSize (w.vcount / 8)) | none => false))) = true := by decide +kernel

/-- A gang away, its entry, its image, its return. -/
def goneSt (image : Option Nat) (resuming : Bool) (ship : Option (BitVec 2)) (alloc : Bool) : State :=
  let s := (leaveSt []).updGrid 1 (fun g => { g with gangs := [(0, ⟨0, 1024, [], [0], image, true, [], resuming, false, false⟩)] })
  let c := s.cluster 0
  let s := s.setCluster 0 { c with
    ships := (match ship with | some k => [(0, ⟨k, 0, 0, 1, 0x20000, 1024, 0⟩)] | none => [])
    allocs := if alloc then [⟨1, 0, 0, 1024⟩] else [] }
  { s with waves := [] }
theorem test_gang_returns :
    ((let s := goneSt none false none true;
      (s.gangOf 1 0).any (fun x => x.2.here.isEmpty && !x.2.gone.isEmpty && !x.2.resuming && x.2.image.isNone) &&
        (s.shipOf 1 0).isNone &&
        (s.saveRoom 0 (s.savedRanges 0) (shipSize 1024) 65536).isSome) &&
      (let s := goneSt (some 0x20000) false (some 1) true;
        (s.shipOf 1 0).any (fun e => e.2.2.state == 1 && decide (e.2.2.image % 65536 = 0) &&
          ((s.cluster e.1).ships.get? e.2.1) == some e.2.2) &&
          (s.gangAlloc 1 0).isSome && srv s 0x20000 0 && s.imageClear 0 0 0x20000 (shipSize 1024) && s.ctl.flaws.isEmpty) &&
      (let s := goneSt (some 0x20000) false (some 2) false;
        (s.sched.grids.get? 1).any (fun g => g.gangs.all (fun e => e.2.here.isEmpty && !e.2.resuming)) &&
          s.engines.isEmpty && s.arrivals.isEmpty && s.away.isEmpty &&
          (awaySt .none).awayClear anAway.ident.uid [(0x20, 8)]) &&
      (let s := goneSt (some 0x20000) true (some 2) false;
        (s.gangOf 1 0).any (fun x => x.2.resuming && x.2.image == some 0x20000) &&
          s.imageClear 0 0 0x20000 (shipSize 1024) && s.ctl.flaws.isEmpty && (s.gangAlloc 1 0).isNone &&
          (s.shipOf 1 0).all (fun e => e.2.2.state == 2)) &&
      (let s := goneSt (some 0x20000) true (some 2) true;
        (s.gangAlloc 1 0).isSome && s.waves.isEmpty)) = true := by decide +kernel

/-- What arrives for a gang that is here, away with its entry open, and gone. -/
theorem test_arrivals :
    ((match st.scratchHome 1 0 with | .here _ _ => true | _ => false) &&
      (let s := goneSt (some 0x20000) false (some 2) false;
        (match s.scratchHome 1 0 with | .away => true | _ => false) && (s.shipOf 1 0).any (fun e => e.2.2.state == 2 && decide (e.1 < 64)) &&
          srv s 0x20000 0 && s.imageClear 0 0 0x20000 (shipSize 1024)) &&
      (match State.reset.scratchHome 1 0 with | .gone => true | _ => false)) = true := by decide +kernel

/-- R210: the wave of these tests fits its image, and so does one with every kind of entry. -/
def fits (w : Wave) : Bool :=
  decide (w.vcount % 8 = 0) && decide (w.vcount ≤ 256) && decide (w.stack.length ≤ 16) &&
    w.stack.all (fun e => decide (e.owner < 4)) &&
    decide (w.work.red.length ≤ 128) && decide (w.work.absent.length ≤ 32) && decide (w.trap.frozen.length ≤ 64) &&
    w.trap.frozen.all (fun i => decide (i.slots.length = 8) && decide (i.nfrag < 8)) &&
    w.work.sends.all (fun e => decide (e.1 < 8) && (match e.2.result with | some l => decide (l.length = 41) | none => true)) &&
    w.groups.all (fun e => decide e.2.slots.Nodup && e.2.slots.all (fun n => decide (n < 4)))
theorem test_image :
    ((st.wave? 0 0).any fits && ((onW st (fun w => { w with
        stack := [⟨0, 1, 2, 64, [(176, 5)], fmtReset, false, true⟩], groups := [(1, ⟨[0, 2], fmtReset⟩)]
        work := { w.work with red := [⟨128, 5, 0x241, 0x07, 1, 0⟩], absent := [⟨1, 2⟩], sends := [(1, ⟨0, 0, 0, some (List.replicate 41 3)⟩)] }
        trap := { w.trap with frozen := [⟨0, List.replicate 8 1, 1, fmtReset, 1, 0, 0, 0, none, [], 0, 0, none, 0, [0]⟩] } })).wave? 0 0).any fits) =
      true := by decide +kernel

/-! ### Events: engines, ports, the tree, tiles -/

/-- An operation of the wave's whose turn it is: a linear copy within scratch, and one with no byte left. -/
def engSt (o : EngOp) : State :=
  match st.wave? 0 0 with
  | some w => { st with engines := [(7, { o with uid := w.ident.uid })] }
  | none => st
def scratchCopy : List Word := [0, copyScratch, 0x0140000000000200, 100, 0, 0, 0, 0]
def engDue (s : State) (p : EngOp → Bool) : Bool :=
  (s.engines.get? 7).any (fun o => p o && !s.stopped && s.engNext 0 == some 7 && !o.aborted && !s.engHeld o (o.partRuns o.pos o.pieceEnd).2 &&
    o.buf.isNone &&
    o.flight.isNone && o.idx.isNone && o.lines == 0 && s.arrivals.isEmpty && (s.findWave o.uid).isSome)
theorem test_engine_pieces :
    (engDue (engSt (aOp .linear scratchCopy)) (fun o => decide (o.pos < o.total) && o.served == 0 && !ctlProd o.desc &&
      !ctlBar o.desc &&
        decide (windowOf (wordAt o.desc 1).toNat = .scratch) && decide (windowOf (wordAt o.desc 2).toNat = .scratch) &&
        (st.gangAlloc o.ident.grid (scratchGang (wordAt o.desc 1).toNat)).any (fun a => a.1 == 0) &&
        (match st.scratchHome o.ident.grid (scratchGang (wordAt o.desc 2).toNat) with | .here 0 0 => true | _ => false) &&
        decide (scratchOff (wordAt o.desc 2).toNat + o.total ≤ 2 ^ 24)) &&
      engDue (engSt { aOp .linear scratchCopy with pos := 100, bytes := 100 }) (fun o => decide (o.total ≤ o.pos) &&
        !ctlStw o.desc &&
        o.served == 0 && decide (o.kind ≠ .nlsend)) &&
      engDue (engSt { aOp .linear (scratchCopy.set 0 (2 ^ 27) |>.set 7 copyScratch) with pos := 100, bytes := 100 }) (fun o =>
        decide (o.total ≤ o.pos) && ctlStw o.desc && decide (windowOf (wordAt o.desc 7).toNat = .scratch) &&
        (match st.scratchHome o.ident.grid (scratchGang (wordAt o.desc 7).toNat) with | .here 0 0 => true | _ => false)) &&
      [false, true].all (fun wide => engDue (engSt { aOp .linear scratchCopy with pos := 100, bytes := 100, served := 1, wide := wide })
        (fun o => decide (o.total ≤ o.pos) && o.served == 1 && o.conds.isEmpty && o.dropped.isEmpty &&
          decide (1 ≤ o.d.toNat))) &&
      st.xlate.held.isEmpty && (st.wave? 0 0).any (fun w => !st.rdivClosed w.ident.uid) &&
        st.away.isEmpty) = true := by decide +kernel

/-- A send at the head of its port's queue, with more lines to come and with its last; an inbound port whose line is EMPTY
and FULL. -/
def sendSt (pos : Nat) : State :=
  let s := engSt { aOp .nlsend [0, 0, 0, 256] with pos := pos }
  s.setCluster 0 { s.cluster 0 with outq := [(1, [7])] }
def portSt (full : List Nat) : State :=
  let s := armSt []
  s.setCluster 0 { s.cluster 0 with inq := [(1, [⟨7, 1, 5⟩])], full := full }
theorem test_ports :
    ([0, 128].all (fun p => (sendSt p).outQueue 0 1 == [7] && (neighbourOf 0 1).isSome &&
      ((sendSt p).engines.get? 7).any (fun o =>
        !o.aborted && !(sendSt p).engHeld o [] && ((sendSt p).gangAlloc o.ident.grid o.ident.gang).isSome)) &&
      [[], [2]].all (fun f => let s := portSt f;
        ((s.cluster 0).arms.get? 1).any (fun m => m.grid == 1 && m.gang == 0) && s.sched.grids.has 1 &&
          (s.cluster 0).linew.isEmpty &&
          (match s.scratchHome 1 0 with | .here 0 0 => true | _ => false)) &&
      (portSt []).arrivals.isEmpty && (portSt [2]).lineFull 0 2 && !(portSt []).lineFull 0 2) = true := by decide +kernel

/-- Sessions: a contribution that opens one, one that is rejected, a timeout due and not, a result that is awaited. -/
def aMsg (sel : Word) : TreeMsg := ⟨1, 0, 1, sel, 65536, 0, [5]⟩
def aGen : TreeGen := ⟨1, 1, 0, 0x0002000001000001, 9, 9, [(0, [5])], none, [0], [0]⟩
def treesSt (m : List TreeMsg) (g : List TreeGen) : State := { st with tree := ⟨m.map (fun x => (7, x)), g, []⟩ }
theorem test_sessions :
    ((treesSt [aMsg 0x0002000001000001] []).tree.gens.isEmpty && (treesSt [aMsg 0] []).genCount 1 1 == 0 &&
      (let s := treesSt [aMsg 0x0002000001000001] []
       decide ((aMsg 0).gen < { s with tree := { s.tree with next := [(9, 1)] } }.genCount 1 1)) &&
         st.cores.all (fun c => c.2.rdiv.isEmpty) && decide (2 ≤ bits (aMsg 0x0002000001000001).sel 56 48) &&
      (treesSt [] [aGen]).tree.gens.any (fun g => g.isOf 1 1 0 && g.result.isNone && g.inputs.has 0 &&
        !selAgrees g.sel 0x0003000001000001 && decide (g.limit ≤ g.clocks)) &&
      decide ({ aGen with clocks := 8 }.clocks < aGen.limit) &&
      ({ aGen with result := some (List.replicate 41 0) } : TreeGen).cores.contains 0 && st.away.isEmpty &&
      ((treeSt trRecv 1 [(1, ⟨0, 0, 0, none⟩)]).wave? 0 0).any (fun w => w.ident.grid == 1 &&
        (w.work.sends.get? 1).any (fun x => x.core == 0 && x.gen == 0 && x.result.isNone))) = true := by decide

/-- A tile operation whose turn it is, and its bytes; a latched accumulator of the wave's. -/
def tileOf : TileOp := { aTile (some 4) with spec := goodMma, recs := [[], [], [], []], fmt := 0x6C00 }
def tileSt : State := mmaSt goodMma { mats with ops := [tileOf] }
theorem test_tile_turn : (tileSt.away.isEmpty && !tileSt.stopped) = true := by decide +kernel
/-- Scratch runs that lie in a resident gang's scratch are fetched without a fault, a wait or a change of the state. -/
def scratchPlaces (l : List Run) : List (Run × Place) := l.map (fun r => (r, .scratch (scratchGang r.va) (scratchOff r.va)))
theorem places_scratch (s : State) (b : Asker) (o : EngOp) (acc : BitVec 3) (write : Bool) :
    ∀ l : List Run, (∀ r ∈ l, windowOf r.va = .scratch) → s.places b o acc write l = (some (scratchPlaces l), [], s)
  | [], _ => rfl
  | r :: rs, h => by
    have h1 := h r (List.mem_cons_self ..)
    have h2 := places_scratch s b o acc write rs (fun x hx => h x (List.mem_cons_of_mem _ hx))
    simp [State.places, h1, h2, scratchPlaces]
theorem foldl_keeps {α β : Type} (f : β → α → β) (b : β) : ∀ l : List α, (∀ x ∈ l, f b x = b) → l.foldl f b = b
  | [], _ => rfl
  | x :: xs, h => by
    rw [List.foldl_cons, h x (List.mem_cons_self ..)]
    exact foldl_keeps f b xs (fun y hy => h y (List.mem_cons_of_mem _ hy))
theorem runsOf_va : ∀ (l : List Nat) (i : Nat), ∀ r ∈ runsOf i (l.map some), r.va ∈ l
  | [], _, r, h => by simp [runsOf] at h
  | a :: as, i, r, h => by
    have ih := runsOf_va as (i + 1)
    simp only [List.map_cons, runsOf] at h
    split at h
    · rename_i q qs hq
      have hr : r.va = a ∨ r ∈ runsOf (i + 1) (as.map some) := by
        rw [hq]
        split at h
        · rcases List.mem_cons.mp h with h | h
          · exact Or.inl (by rw [h])
          · exact Or.inr (List.mem_cons_of_mem _ h)
        · rcases List.mem_cons.mp h with h | h
          · exact Or.inl (by rw [h])
          · exact Or.inr h
      rcases hr with h | h
      · simp [h]
      · exact List.mem_cons_of_mem _ (ih r h)
    · simp at h
      simp [h]
theorem reads_scratch (s : State) (ext : Remote) (g : Nat) (e : EngOp) (h : ∀ off k, (s.gangRead e.ident.grid g off k).2 = s) :
    ∀ l : List Run, (∀ r ∈ l, scratchGang r.va = g) →
      ∃ as, s.overPlaces (fun s x => s.readNow e ext x) (scratchPlaces l) = (as, s) ∧ ∀ a ∈ as, a.status = .ok
  | [], _ => ⟨[], rfl, by simp⟩
  | r :: rs, hg => by
    obtain ⟨as, hb, ho⟩ := reads_scratch s ext g e h rs (fun x hx => hg x (List.mem_cons_of_mem _ hx))
    have h1 := hg r (List.mem_cons_self ..)
    refine ⟨⟨r, .ok, (s.gangRead e.ident.grid g (scratchOff r.va) r.len).1⟩ :: as, ?_, ?_⟩
    · simp only [scratchPlaces, List.map_cons, State.overPlaces, State.readNow, h1, h] at hb ⊢
      rw [hb]
      rfl
    · intro a ha
      rcases List.mem_cons.mp ha with ha | ha
      · rw [ha]
      · exact ho a ha
theorem fetch_scratch (s u : State) (t : TileWave) (o : TileOp) (g : Nat) (hu : u = s.forget (.tiles t.ident.uid))
    (h1 : fmtScaled o.fmt = false) (h2 : o.flight = none) (h4 : o.copies = 0)
    (ha : ∀ a ∈ fetchBytes o, windowOf a = .scratch ∧ scratchGang a = g ∧ s.outsideScratch t a = false)
    (h : ∀ off k, (u.gangRead t.reader.ident.grid g off k).2 = u)
    (hc1 : ∀ off k, s.gangClear t.reader.ident.grid g off k = true)
    (hc2 : ∀ off k, u.gangClear t.reader.ident.grid g off k = true) (h3 : t.reader.conds = []) :
    ∃ bs, s.tileFetch t o (.data []) = (.bytes bs, u.updMat t.ident.uid (·.setFlight none)) := by
  have hw : ∀ r ∈ runsOf 0 ((fetchBytes o).map some), windowOf r.va = .scratch ∧ scratchGang r.va = g :=
    fun r hr => ⟨(ha r.va (runsOf_va _ 0 r hr)).1, (ha r.va (runsOf_va _ 0 r hr)).2.1⟩
  have hp := places_scratch s (.tiles t.ident.uid) t.reader 0 false _ (fun r hr => (hw r hr).1)
  obtain ⟨as, hb, ho⟩ := reads_scratch u (.data []) g t.reader h _ (fun r hr => (hw r hr).2)
  have hc : (fetchBytes o).findSome? (s.operandCause t) = none := by
    rw [List.findSome?_eq_none_iff]
    intro a h
    simp [State.operandCause, (ha a h).1, (ha a h).2.2]
  have hm : as.filter (fun a => a.status == .keyMismatch) = [] := by
    rw [List.filter_eq_nil_iff]
    intro a h
    simp [ho a h]
  have hn : ∀ v : State, (∀ off k, v.gangClear t.reader.ident.grid g off k = true) →
      v.nowClear t.reader true (scratchPlaces (runsOf 0 ((fetchBytes o).map some))) = true := by
    intro v hv
    simp only [State.nowClear, scratchPlaces, List.all_map, List.all_eq_true]
    intro r hr
    simp [(hw r hr).2, hv]
  have hr : (s.forget (.tiles t.ident.uid)).raised t o = u := by simp [State.raised, h4, hu]
  refine ⟨answerBytes (fetchBytes o).length as, ?_⟩
  simp only [State.tileFetch, h2, h1, hc, hp, hn s hc1, hr, Bool.false_and, Bool.false_eq_true, if_false, if_true]
  split
  · simp only [State.tileTake, State.takeReads, hn u hc2, if_true, State.replies, hb, List.append_nil, State.pieceRecords,
      mismatchedPages, hm]
    rw [foldl_keeps (fun o a => EngOp.met o a.status (u.absent o.uid)) t.reader as (fun a h => by rw [ho a h]; rfl)]
    simp [distinctFaults, State.dropReqs, h3]
  · rename_i hh
    exact (hh (by simp [scratchPlaces])).elim
/-- Whose turn it is. -/
def tileWave : TileWave := ((tileSt.tileNext 0).map (fun x => x.1)).getD ⟨0, ⟨0, 0, 0, 0⟩, 0, 0, mats, none, none⟩
theorem tile_addresses : (fetchBytes tileOf).all (fun a => windowOf a == .scratch && scratchGang a == 0 &&
    !tileSt.outsideScratch tileWave a) = true := by decide +kernel
theorem test_tile_now : tileSt.tileNow 0 = some (tileWave, tileOf) := by decide +kernel
theorem test_tile_fetch : ∃ bs t, (tileSt.addFlaws []).tileFetch tileWave tileOf (.data []) = (.bytes bs, t) ∧ t.away = [] ∧
    tileSt.rdivClosed tileWave.ident.uid = false :=
  have ⟨bs, h⟩ := fetch_scratch tileSt _ tileWave tileOf 0 rfl (by decide) (by decide) (by decide)
    (fun a h => by simpa [and_assoc] using List.all_eq_true.mp tile_addresses a h) (fun off k => rfl) (fun off k => rfl)
    (fun off k => rfl) (by decide +kernel)
  ⟨bs, _, h, by decide +kernel, by decide +kernel⟩
/-- The diversion entry of its wave is closed for a resume. -/
def closedTile : State := tileSt.setCore 0 { tileSt.core 0 with rdiv := [(0, ⟨2, 0, 0, 0, 0x10000, tileWave.ident.uid, []⟩)] }
theorem test_tile_held : (closedTile.tileNow 0 = some (tileWave, tileOf)) ∧ closedTile.rdivClosed tileWave.ident.uid = true := by
  decide +kernel
/-- An operation whose reads are on their way waits for their replies. -/
def flightSt : State := mmaSt goodMma { mats with ops := [{ tileOf with flight := some ⟨[], [⟨9, 0, 4, 0⟩]⟩ }] }
theorem test_tile_waits :
    ((flightSt.tileNow 0).any (fun x => decide (flightSt.tileFetch x.1 x.2 (.data []) = (.wait, flightSt)))) = true := by
  decide +kernel
def latchSt : State :=
  match st.wave? 0 0 with
  | some w => st.setCluster 0 { st.cluster 0 with latch := some ⟨w.ident.uid, 8, [5, 6]⟩ }
  | none => st
theorem test_tile_completion :
    ((latchSt.cluster 0).latch.any (fun l => (latchSt.findWave l.uid).isSome) && (latchSt.tileNow 0).isNone &&
      (latchSt.cluster 0).latch.any (fun l => !latchSt.rdivClosed l.uid &&
        latchSt.awayClear l.uid (imageOfTile l.cbase l.acc.length))) = true := by decide +kernel

/-! ### Events: the ends of waits -/

def waitF (w : Wait) (s : State := st) : State := onF s (fun f => { f with wait := w })
theorem test_wait_ends :
    ((waitF (.counters 0 0 0 0)).waiter 0 0 0 |>.any (fun x => x.w.work.deferred.isEmpty && decide (x.w.ldCount = 0))) &&
      ((waitF (.counters 0 0 0 0) (onW st (fun w => { w with work := { w.work with outs := [anOut false] } }))).waiter 0 0 0).any
        (fun x => decide (x.w.ldCount = 1)) &&
      ((waitF (.barrierDone 5 7 [7] false) (engSt (aOp .linear scratchCopy))).waiter 0 0 0).isSome &&
      (engSt (aOp .linear scratchCopy)).engines.has 7 && ((waitF (.barrierDone 5 7 [7] false)).waiter 0 0 0).isSome &&
      !st.engines.has 7 && st.convoys.isEmpty = true := by decide +kernel

/-- A QPOP whose turn brings an entry, and one whose queue stands behind a port that is held. -/
def popSt : State :=
  let s := waitF (.queue 3 5) (queueSt [] 3 5)
  match s.wave? 0 0 with
  | some w => { s with sched := { s.sched with qwait := [(3, w.ident.uid, 0)] } }
  | none => s
theorem test_queue_wake :
    (popSt.headClear 3 && !({ popSt with ctl := { popSt.ctl with mpoint := some 1 } }).headClear 3 && popSt.queueReady 3 && popSt.queueData 3 && (popSt.waiter 0 0 0).isSome &&
      srv popSt (popSt.queueSlot 3 (popSt.queueHead 3)) 0 &&
      popSt.ctl.flaws.isEmpty && popSt.convoys.isEmpty) = true := by
  decide +kernel

/-- A held CVSTEP that must go on waiting and one that need not; an ejection for want of patience, due and not. -/
def stepSt (p q : Word) : State := waitF .cvstep (convoySt p q)
theorem test_convoy_ends :
    ([((2 : Word), true), (1, false)].all (fun e => ((stepSt e.1 0).wave? 0 0).any (fun w => w.cvFrags == [0] &&
      w.cv.mem &&
        w.cv.pos != BitVec.allOnes 64 && (match (stepSt e.1 0).membership w.ident.uid with
          | some (_, c, _, m) => c.mustHold m.pos == e.2 | none => false))) &&
      ((onW (stepSt 1 0) (fun w => { w with sched := { w.sched with halted := true } })).wave? 0 0).any (fun w =>
        w.sched.halted && w.cvFrags == [0] && (w.frags.get? 0).any (fun f => f.wait == .cvstep)) &&
      (match st.wave? 0 0 with
       | some w =>
         let s : State := waitF .cvstep { st with convoys :=
           [(7, ⟨1, 2, 3, 5, [(0, ⟨50, 1, false, [], 9⟩), (1, ⟨w.ident.uid, 5, false, [], 0⟩)]⟩)] }
         (s.convoys.get? 7).any (fun c => (c.mem.get? 0).any (fun m => !m.parked && decide (c.pat.toNat ≤ m.idle) &&
           c.min? == some m.pos.toNat) && c.mem.any (fun e => s.heldMember c e.2))
       | none => false)) = true := by decide +kernel

/-- A VLDC at the head of its queue that waits at a line, which is ready or not. -/
def lineWaitSt (full : List Nat) : State :=
  match vldcSt.wave? 0 0 with
  | some w => vldcSt.setCluster 0 { vldcSt.cluster 0 with full := full, linew := [⟨0, w.ident.uid, 0, [0], true⟩] }
  | none => vldcSt
theorem test_line_take :
    ([[0], []].all (fun f => ((lineWaitSt f).wave? 0 0).any (fun w => !w.sched.halted && w.lane.queue.any (fun it =>
        ((lineWaitSt f).cluster 0).linew.any (fun x => x.kind == 0 && x.id == w.ident.uid && x.seq == it.seq &&
          x.ready ((lineWaitSt f).cluster 0) == !f.isEmpty)))) &&
            lruns (.vldc (lm 0x07)) (lineWaitSt [0])) = true := by decide +kernel

/-- The same of a VSTP; what keeps either from going on. -/
def storeWaitSt (full : List Nat) : State :=
  match vstpSt.wave? 0 0 with
  | some w => vstpSt.setCluster 0 { vstpSt.cluster 0 with full := full, linew := [⟨0, w.ident.uid, 0, [0], false⟩] }
  | none => vstpSt
theorem test_line_stays :
    (lruns (.vstp (ls 0x07)) (storeWaitSt []) (scratchOk (storeWaitSt []) (ls 0x07) (fun c => c.taking (ls 0x07) true) 4 true) &&
      ((storeWaitSt []).wave? 0 0).any (fun w => w.dueAsync.isNone && !w.fenced && w.work.outs.isEmpty &&
        w.lane.queue.any (fun it => (match decodeLane it.word with | .ok i => i == .vstp (ls 0x07) | .error _ => false) &&
        ((storeWaitSt []).cluster 0).linew.any (fun x => x.id == w.ident.uid && x.seq == it.seq && x.ready ((storeWaitSt []).cluster 0)))) &&
      ((lineWaitSt [0]).wave? 0 0).any (fun w => w.dueAsync.isNone && !w.fenced && w.lane.queue.any (fun it =>
        (match decodeLane it.word with | .ok i => i == .vldc (lm 0x07) | .error _ => false))) && !(storeWaitSt []).stopped &&
      ((onW (storeWaitSt []) (fun w => { w with work := { w.work with pending := [⟨0x08, 1⟩] } })).wave? 0 0).any (fun w =>
        w.dueAsync.isSome)) = true := by decide +kernel

/-- A predicted BRM: not resolved, resolved as guessed, and resolved the other way. -/
def psetItem : LaneItem :=
  ⟨(match encode (.pset (lw 0 0 2 0 0 0 1)) with | .lane x => x | _ => 0), [], BitVec.allOnes 128, fmtReset, 1, 0, 0, 0, none, [], 0, 0,
    none, 0, [0]⟩
def guessSt (p1 : Mask) (q : List LaneItem) (spc : Word := 0) : State :=
  onW st (fun w => { w with
    spec := [{ aSpec with frag := { aSpec.frag with spc := spc } }]
    frags := w.frags.update 0 (fun f => { f with spc := branchTarget spc (4 : BitVec 10) })
    pred := Sparse.set [] 1 p1
    lane := { w.lane with queue := q, next := 1 } })
/-- What the BRM comes to: all lanes taken, none, a target out of the window, or not yet. -/
def guessIs (s : State) (p : Wave → SpecRec → Mask → Bool) : Bool :=
  (s.wave? 0 0).any (fun w => match w.spec with
    | [r] => w.groups.isEmpty && r.frag.rcv.isNone && !r.wrote && !(s.reg (jobReg w.ident.job 0x80)).getLsbD 1 &&
        r.taken == some r.slot && r.fall.isNone && r.frag.emask != 0 &&
          predicted r.kind r.mask r.frag.emask == r.frag.emask &&
        !w.predPending r.p.toNat r.frag.emask r.seq && p w r (w.tested r.neg r.p r.frag.emask)
    | _ => false)
theorem test_mask_resolution :
    (guessIs (guessSt (BitVec.allOnes 128) []) (fun w r T => T == r.frag.emask &&
      inGlobal (branchTarget r.frag.spc r.off) &&
        inGlobal (r.frag.spc + 4) && (w.frags.get? 0).any (fun f =>
          decide (f = { r.frag with spc := f.spc, bank := f.bank, fmt := f.fmt, wait := f.wait }))) &&
      guessIs (guessSt 0 []) (fun _ r T => T == 0 && inGlobal (r.frag.spc + 4)) &&
      guessIs (guessSt (BitVec.allOnes 128) [] 0x00FFFFFFFFFFFFF0) (fun _ r T => T != 0 &&
        !inGlobal (branchTarget r.frag.spc r.off)) &&
      ((guessSt 0 [psetItem]).wave? 0 0).any (fun w => w.spec.length == 1 &&
        w.predPending 1 (BitVec.allOnes 128) 1)) = true := by
  decide +kernel

/-! ### Steps -/

/-- A word where step fetches it, with its literal. -/
def placed : State := State.reset.withFetchWord 64 0x000186A0_41050600
def fetches (k : Nat) (w : Word32) : Bool :=
  decide (windowOf (4 * k) = .global) &&
    (match placed.translate 0 0 (4 * k) 3 [] with
     | .ok pa leaf => pa == 4 * k && srv placed pa (BitVec.ofNat 10 (bits leaf 60 51)) &&
        BitVec.ofNat 32 (natOfBytes (placed.mem.read pa 4)) == w
     | _ => false)
theorem test_scalar_step :
    ((placed.wave? 0 0).any (fun w => w.dueAsync.isNone && !w.sched.halted && !placed.inResume w &&
        nextSlot w.sched.lastFrag (placed.issuable w) == some 0 && w.spec.isEmpty &&
          !(placed.reg (jobReg w.ident.job 0x80)).getLsbD 1) &&
      !(placed.core 0).noMiss && placed.ctl.flaws.isEmpty && placed.portsClear 0 0 8 &&
        placed.agenda == [Turn.scalar 0 0] &&
        State.ahead { placed with agenda := [] } (.scalar 0 0) == [] && fetches 0 0x4105_0600 &&
      fetches 1 0x186A0 && (placed.core 0).icache.isEmpty && hasLiteral 0x4105_0600 &&
        !placed.stopped) = true := by decide +kernel

/-- A lane word, an event, and a wave whose turn comes by default. -/
def idle : State := { State.reset.withFetchWord 32 0x4005_0603 with agenda := [] }
/-- The same, its word held and the register it reads awaited: its turn is of no use. -/
def stuck : State :=
  (onW idle (fun w => { w with work := { w.work with outs := [{ anOut false with dest := .scalar 6 0 }] } })).setCore 0
    { idle.core 0 with icache := [⟨0, 0, 0, 0x4005_0603⟩] }
/-- A second wave of the quarter, in slot 1. -/
def pair : State := { idle with waves := match idle.wave? 0 0 with | some w => [(0, w), (1, w)] | none => [] }
/-- Of two waves that have waited as long the one in the lower slot comes first; a lane turn stands at its word. -/
theorem test_quarter_order :
    (State.ahead pair (.scalar 0 1) == [Turn.scalar 0 0] && State.ahead pair (.scalar 0 0) == [] &&
      (let s := State.reset.withFetchWord 96 0x9400_0000_1C00_0000_3F80_0000
       State.ahead { s with agenda := [] } (.lane 0 0) == [] && (s.wave? 0 0).any (fun w => !s.laneStalls w && !s.inResume w &&
         !w.sched.halted && w.dueAsync.isNone && !w.lane.queue.isEmpty))) = true := by decide +kernel
theorem test_other_steps :
    ((State.reset.withFetchWord 96 0x9400_0000_1C00_0000_3F80_0000).agenda == [Turn.lane 0 0] &&
      decide ({ State.reset with agenda := [Turn.dev .warmReset] }.agenda = [Turn.dev .warmReset]) &&
      (idle.firstChange idle.candidates).isNone && idle.waveTurns.map (fun t => t.2) == [Turn.scalar 0 0] &&
      (match idle.chance (.scalar 0 0) with | .next v => idle.useful v 0 0 false | _ => false) &&
      (stuck.firstChange stuck.candidates).isNone && stuck.waveTurns.map (fun t => t.2) == [Turn.scalar 0 0] &&
      (match stuck.chance (.scalar 0 0) with | .next v => !stuck.useful v 0 0 false | _ => false) && idle.drains.isEmpty &&
      ({ State.reset with agenda := [] } : State).waveTurns.isEmpty &&
        !(State.reset.firstChange State.reset.candidates).isSome) = true := by decide +kernel

/-- Words of each kind that encode, and the premise of the invariant. -/
theorem test_encodings :
    ((match encode (.add 1 2 3) with | .scalar _ => true | _ => false) && (match encode (.addSx 1 2 0 3) with | .scalarLit _ _ => true | _ => false) &&
      (match encode (.vmov (lw 0 0 2)) with | .lane _ => true | _ => false) && (match encode .warmReset with | .none => true | _ => false)) =
      true := by decide
/-- A state with a byte in memory meets the premises of the invariant: its stores are canonical and it steps. -/
def oneByte : State := { State.reset with mem := [(5, 1)] }
theorem test_invariant :
    oneByte.storesCanonical ∧ (match step oneByte with | .next _ => true | _ => false) = true :=
  ⟨⟨by decide, fun _ _ h => by cases h⟩, by decide +kernel⟩

/-! ### Assembly source and the object format -/

/-- The contents of a section, as numbers of n bytes. -/
def sectionNums (n : Nat) (type : Nat) : Except TofError Tof → List Nat
  | .ok t => (chunks n (t.contents type)).map natOfBytes
  | .error _ => []
def assembled (source : String) : Except TofError Tof :=
  match assembleText source.toList with | .ok t => .ok t | .error _ => .error .relocation

/-- The linked example of the chapter on assembly: its words (Table 10) and its image (Table 11), base 0x10_0000_0000. -/
def sourceA : String := ".scode\n" ++
    ".global start\n" ++
    ".resources start, vgrp=1, csp=1\n" ++
    "start: ISSUE addone, s0\n" ++
    "SLD.n32 s10, (s1)\n" ++
    ".live s1, s10\n" ++
    "WAIT 0, 63, 63, 63\n" ++
    "SST.n32 (s1 + 4), s10\n" ++
    "EXIT\n" ++
    ".block addone\n" ++
    "VFADD.f32 v2, v3, 1.0\n" ++
    "VST.n32 ($1), v2\n" ++
    ".endblock\n"
def sourceB : String := ".rodata\n" ++
    ".global job1\n" ++
    "job1: .task entry=start, waves=1, csp=1, vgrp=1, arg=out\n" ++
    ".data\n" ++
    "out: .word 0, 0\n"
def linked : Except TofError Tof := do link 0x10_0000_0000 [← assembled sourceA, ← assembled sourceB]
theorem test_linked :
    (match linked with
     | .ok t => t.contents 1 == [0x8E00_0000, 0x720A_0140, 0x9203_FFFF, 0x750A_0140, 0x0000_0004, 0x9000_0000].flatMap (bytesOfNat 4) &&
        t.contents 2 == [0x0104_8000_0807_5900_0000_0000, 0x2013_8000_0203_0801_0000_0000].flatMap (bytesOfNat 12) &&
        t.contents 3 == [1, 0x10_0003_0000, 0, 0, 0, 0, 0, 0, 0x0040_0001_0000_1000].flatMap (bytesOfNat 8) &&
        (t.contents 4).take 48 == [1, 0, 0x10_0000_0008, 0x10_0003_0020, 0x10_0000_0008, 0x402].flatMap (bytesOfNat 8) &&
        t.contents 5 == [0x10_0000_0000, 0x0000_8041_0000_0000, 0x10_0002_0000, 0, 0x10_0005_0000, 0, 0, 0].flatMap (bytesOfNat 8) &&
        t.contents 6 == List.replicate 8 0
     | .error _ => false) = true := by decide +kernel

/-- Sample words of the encodings (Table 13) and of the chapters on the scalar thread, written as source. -/
def scalarSource : String :=
    ".scode\nADD s5, s6, 100000\nSLD.n32.acq.gang s4, (s2)\nWAIT 63, 63, 0, 63\nFENCE.ar.dev\nBARINIT.ext (s6), s4\n" ++
    "NLSEND.e s4, s5, s6\nTRAP 0x12\nMTS CVPOS, s7\n"
theorem test_scalar_source :
    sectionNums 4 1 (assembled scalarSource) = [0x41050600, 0x000186a0, 0x72040249, 0x92fff03f, 0x9400001b, 0xa0040680, 0xd2040506, 0xf0000012, 0xf6070035] := by decide +kernel
/-- Sample words of the lane chapters, written as source. -/
def laneSource : String :=
    ".block b\nVLD.n32 v4, ($0 + v1*4)\nVFADD.f32 v2, v3, 1.0\nVCMP.lt.i32 p2, v4, 10\nVSEL.b32 ?p2 v6, v7, v8\nVADD.i32 v1, v1, 1000\n" ++
    "VROT.seg2.b32 v3, v4, 1\nVATOM.cas.n32.ar.dev v5, ($1 + v2*4), v6, v5\nVRED.add.f32 ($0 + v1*4), v3\n.endblock\n"
theorem test_lane_source :
    sectionNums 4 2 (assembled laneSource) = [0x01000000, 0x12000100, 0x20038000, 0x00000000, 0x08075900, 0x01048000, 0x00000000, 0x08091200, 0x05218100,
      0x00000000, 0x180e0800, 0x08000008, 0x000003e8, 0x04020000, 0x84018000, 0x10000000, 0x0c090900, 0x10200000,
      0x3d000000, 0x16020203, 0x24038400, 0x81000000, 0x02000101, 0x24148080] := by decide +kernel


end Sys2Proof.Tests
end

section
/-!
Scalar instructions that compute one register (R284 to R289): `computes` and `threeForms` follow from the value that the
arm of `exec` hands to `computeOp`.
-/
namespace Sys2Proof.Machine

/-- The arm of instruction `i` is `computeOp` with value `v`, and its encoding takes `len` bytes. -/
def RunsAs (i : Instr) (d : BitVec 8) (v : Ctx → Word) (len : Nat) : Prop :=
  (∀ s, exec i s = computeOp i s d v) ∧ instrLen i = len

theorem RunsAs.computes {i : Instr} {d : BitVec 8} {v : Ctx → Word} {len : Nat} (h : RunsAs i d v len)
    {v' : Ctx → Word} (hv : ∀ c, v c = v' c) : computes i d v' len := by
  obtain ⟨hexec, rfl⟩ := h
  obtain rfl : v = v' := funext hv
  intro s c hg
  rw [hexec]
  exact computeOp_run hg d v

/-- The arms of the three forms of an integer operation (R284) take the value of `intOp o`. -/
def RunsIntOp (o : IntOp) (reg imm : BitVec 8 → BitVec 8 → BitVec 8 → Instr)
    (sx : BitVec 8 → BitVec 8 → BitVec 8 → Word32 → Instr) : Prop :=
  ∀ d a b lit,
    RunsAs (reg d a b) d (fun c => intOp o (c.get a) (c.get b)) 4 ∧
    RunsAs (imm d a b) d (fun c => intOp o (c.get a) (b.signExtend 64)) 4 ∧
    RunsAs (sx d a b lit) d (fun c => intOp o (c.get a) (lit.signExtend 64)) 8

theorem RunsIntOp.threeForms {o : IntOp} {reg imm : BitVec 8 → BitVec 8 → BitVec 8 → Instr}
    {sx : BitVec 8 → BitVec 8 → BitVec 8 → Word32 → Instr} (h : RunsIntOp o reg imm sx) {op : Word → Word → Word}
    (hop : ∀ x y, intOp o x y = op x y) : threeForms reg imm sx op := by
  intro d a b lit
  obtain ⟨hreg, himm, hsx⟩ := h d a b lit
  exact ⟨hreg.computes fun _ => hop _ _, himm.computes fun _ => hop _ _, hsx.computes fun _ => hop _ _⟩

theorem runs_div : RunsIntOp .div .div .divImm .divSx :=
  fun _ _ _ _ => ⟨⟨fun _ => rfl, rfl⟩, ⟨fun _ => rfl, rfl⟩, ⟨fun _ => rfl, rfl⟩⟩
theorem runs_divn : RunsIntOp .divn .divn .divnImm .divnSx :=
  fun _ _ _ _ => ⟨⟨fun _ => rfl, rfl⟩, ⟨fun _ => rfl, rfl⟩, ⟨fun _ => rfl, rfl⟩⟩
theorem runs_rem : RunsIntOp .rem .rem .remImm .remSx :=
  fun _ _ _ _ => ⟨⟨fun _ => rfl, rfl⟩, ⟨fun _ => rfl, rfl⟩, ⟨fun _ => rfl, rfl⟩⟩
theorem runs_remn : RunsIntOp .remn .remn .remnImm .remnSx :=
  fun _ _ _ _ => ⟨⟨fun _ => rfl, rfl⟩, ⟨fun _ => rfl, rfl⟩, ⟨fun _ => rfl, rfl⟩⟩
theorem runs_cmp : RunsIntOp .cmp .cmp .cmpImm .cmpSx :=
  fun _ _ _ _ => ⟨⟨fun _ => rfl, rfl⟩, ⟨fun _ => rfl, rfl⟩, ⟨fun _ => rfl, rfl⟩⟩

/-! ### Division (R285, Table 3) -/

/-- The exact quotient 2^63 of the overflow narrows to −2^63. -/
theorem divS_eq (x y : Word) : divS x y =
    if y = 0 then BitVec.allOnes 64
    else if x = BitVec.intMin 64 ∧ y = BitVec.allOnes 64 then BitVec.intMin 64
    else BitVec.ofInt 64 (x.toInt.tdiv y.toInt) := by
  unfold divS
  congr 1
  split
  · next h => obtain ⟨rfl, rfl⟩ := h; decide
  · rfl

/-- The exact remainder of the overflow is 0 already. -/
theorem remS_eq (x y : Word) : remS x y =
    if y = 0 then x
    else if x = BitVec.intMin 64 ∧ y = BitVec.allOnes 64 then 0
    else BitVec.ofInt 64 (x.toInt - y.toInt * x.toInt.tdiv y.toInt) := by
  unfold remS
  rw [Int.tmod_def]
  congr 1
  split
  · next h => obtain ⟨rfl, rfl⟩ := h; decide
  · rfl

/-- Settles O2: the arms hand `divS`, `divN`, `remS` and `remN` to `computeOp`, and at the overflow of Table 3 the exact
result narrows to the stated one. -/
theorem division : Obligations.Division :=
  ⟨runs_div.threeForms divS_eq, runs_divn.threeForms fun _ _ => rfl, runs_rem.threeForms remS_eq,
    runs_remn.threeForms fun _ _ => rfl⟩

/-! ### The comparison word (R286, Table 4) -/

/-- The comparison word as three bits under zeros. -/
theorem cmpWord_eq_append (x y : Word) :
    cmpWord x y = (BitVec.ofBool (x.ult y) ++ BitVec.ofBool (x.slt y) ++ BitVec.ofBool (x == y)).setWidth 64 := by
  have heq : (if x = y then 1 else 0) = if (x == y) = true then 1 else 0 := by simp
  unfold cmpWord
  rw [heq]
  cases x.ult y <;> cases x.slt y <;> cases x == y <;> rfl

theorem getLsbD_setWidth_threeBits : ∀ l s e : Bool,
    let w : Word := (BitVec.ofBool l ++ BitVec.ofBool s ++ BitVec.ofBool e).setWidth 64
    w.getLsbD 0 = e ∧ w.getLsbD 1 = s ∧ w.getLsbD 2 = l := by decide

theorem getLsbD_cmpWord (x y : Word) :
    (cmpWord x y).getLsbD 0 = decide (x = y) ∧ (cmpWord x y).getLsbD 1 = decide (x.toInt < y.toInt) ∧
      (cmpWord x y).getLsbD 2 = decide (x.toNat < y.toNat) := by
  rw [cmpWord_eq_append]
  exact getLsbD_setWidth_threeBits _ _ _

/-- The conditions of BRC that read a bit of the comparison word: .bs at 6 to 8, .bc at 9 to 11 (R243, R303). -/
theorem brcTaken_cmpWord (x y : Word) :
    (brcTaken 6 (cmpWord x y) = decide (x = y)) ∧ (brcTaken 9 (cmpWord x y) = decide (x ≠ y)) ∧
    (brcTaken 7 (cmpWord x y) = decide (x.toInt < y.toInt)) ∧ (brcTaken 10 (cmpWord x y) = decide (y.toInt ≤ x.toInt)) ∧
    (brcTaken 8 (cmpWord x y) = decide (x.toNat < y.toNat)) ∧ (brcTaken 11 (cmpWord x y) = decide (y.toNat ≤ x.toNat)) := by
  obtain ⟨heq, hlts, hltn⟩ := getLsbD_cmpWord x y
  refine ⟨heq, (congrArg not heq).trans ?_, hlts, (congrArg not hlts).trans ?_, hltn, (congrArg not hltn).trans ?_⟩
  · exact decide_not.symm
  · rw [← decide_not, decide_eq_decide, Int.not_lt]
  · rw [← decide_not, decide_eq_decide, Nat.not_lt]

/-- Settles O3: the word that CMP writes has the three results as its bits, and each .bs or .bc condition is one of these
bits or its complement. -/
theorem comparisonWord : Obligations.ComparisonWord := by
  unfold Obligations.ComparisonWord
  refine ⟨runs_cmp.threeForms cmpWord_eq_append, fun x y => ?_⟩
  simp only [← cmpWord_eq_append]
  exact brcTaken_cmpWord x y

/-! ### Counts (R287) -/

/-- The leading zero bits end at the first bit that is set, from the top. -/
theorem leadingZeros_eq_findIdx {n : Nat} (x : BitVec n) : leadingZeros x = (List.range n).findIdx x.getMsbD := by
  unfold leadingZeros
  rw [List.takeWhile_eq_take_findIdx_not, List.length_take,
    Nat.min_eq_left List.findIdx_le_length]
  simp

theorem leadingZeros_le {n : Nat} (x : BitVec n) : leadingZeros x ≤ n := by
  rw [leadingZeros_eq_findIdx]
  simpa using List.findIdx_le_length (xs := List.range n) (p := x.getMsbD)

theorem getMsbD_of_lt_leadingZeros {n k : Nat} {x : BitVec n} (h : k < leadingZeros x) : x.getMsbD k = false := by
  rw [leadingZeros_eq_findIdx] at h
  simpa using List.not_of_lt_findIdx h

theorem getMsbD_leadingZeros {n : Nat} {x : BitVec n} (h : leadingZeros x < n) : x.getMsbD (leadingZeros x) = true := by
  rw [leadingZeros_eq_findIdx] at h ⊢
  have := List.findIdx_getElem (xs := List.range n) (p := x.getMsbD) (w := by simpa using h)
  rwa [List.getElem_range] at this

theorem popCount_eq_countP {n : Nat} (x : BitVec n) : popCount x = (List.range n).countP (fun k => x.getLsbD k) :=
  List.countP_eq_length_filter.symm

theorem runs_clz (d a : BitVec 8) : RunsAs (.clz d a) d (fun c => BitVec.ofNat 64 (leadingZeros (c.get a))) 4 :=
  ⟨fun _ => rfl, rfl⟩
theorem runs_popc (d a : BitVec 8) : RunsAs (.popc d a) d (fun c => BitVec.ofNat 64 (popCount (c.get a))) 4 :=
  ⟨fun _ => rfl, rfl⟩
theorem runs_sel (d a b : BitVec 8) : RunsAs (.sel d a b) d (fun c => if c.get a ≠ 0 then c.get a else c.get b) 4 :=
  ⟨fun _ => rfl, rfl⟩

/-! ### The fields of an SR word (R241) -/

theorem field_op (o d a b : BitVec 8) : field (o ++ d ++ a ++ b) 24 8 = o := by
  unfold field
  rw [BitVec.extractLsb'_append_eq_of_le (by decide), BitVec.extractLsb'_append_eq_of_le (by decide)]
  exact BitVec.extractLsb'_append_eq_left
theorem field_d (o d a b : BitVec 8) : field (o ++ d ++ a ++ b) 16 8 = d := by
  unfold field
  rw [BitVec.extractLsb'_append_eq_of_le (by decide), BitVec.extractLsb'_append_eq_of_le (by decide)]
  exact BitVec.extractLsb'_append_eq_right
theorem field_b (o d a b : BitVec 8) : field (o ++ d ++ a ++ b) 0 8 = b :=
  BitVec.extractLsb'_append_eq_right

theorem whenZero_of_ne {n : Nat} {z : BitVec n} (h : z ≠ 0) (i : Instr) : whenZero z i = .error .fixedBits :=
  if_neg h

theorem append_ne_zero {n m : Nat} {x : BitVec n} {y : BitVec m} (h : x ≠ 0 ∨ y ≠ 0) : x ++ y ≠ 0 := by
  intro e
  have hx : x = 0 := by rw [← BitVec.extractLsb'_append_eq_left (a := x) (b := y), e]; simp
  have hy : y = 0 := by rw [← BitVec.extractLsb'_append_eq_right (a := x) (b := y), e]; simp
  exact h.elim (· hx) (· hy)

theorem decodeScalar_clz_of_ne {d a b : BitVec 8} (h : b ≠ 0) (lit : Word32) :
    decodeScalar (0x2E#8 ++ d ++ a ++ b) lit = .error .fixedBits := by
  unfold decodeScalar
  rw [field_op]
  exact whenZero_of_ne (by rwa [field_b]) _

theorem decodeScalar_popc_of_ne {d a b : BitVec 8} (h : b ≠ 0) (lit : Word32) :
    decodeScalar (0x30#8 ++ d ++ a ++ b) lit = .error .fixedBits := by
  unfold decodeScalar
  rw [field_op]
  exact whenZero_of_ne (by rwa [field_b]) _

theorem decodeScalar_jmpi_of_ne {d a b : BitVec 8} (h : d ≠ 0 ∨ b ≠ 0) (lit : Word32) :
    decodeScalar (0x8A#8 ++ d ++ a ++ b) lit = .error .fixedBits := by
  unfold decodeScalar
  rw [field_op]
  exact whenZero_of_ne (by rw [field_d, field_b]; exact append_ne_zero h) _

theorem decodeScalar_ret_of_ne {x : BitVec 24} (h : x ≠ 0) (lit : Word32) :
    decodeScalar (0x8C#8 ++ x) lit = .error .fixedBits := by
  have hop : field (0x8C#8 ++ x) 24 8 = 0x8C#8 := BitVec.extractLsb'_append_eq_left
  have hz : field (0x8C#8 ++ x) 0 24 = x := BitVec.extractLsb'_append_eq_right
  unfold decodeScalar
  rw [hop]
  exact whenZero_of_ne (by rwa [hz]) _

/-- R287: the counts and SEL. -/
theorem bitCounts : Says.BitCounts := by
  refine ⟨fun d a s c hg => ?_, fun d a => (runs_popc d a).computes fun _ => ?_,
    fun d a b => (runs_sel d a b).computes fun _ => rfl,
    fun d a b hb lit => ⟨decodeScalar_clz_of_ne hb lit, decodeScalar_popc_of_ne hb lit⟩⟩
  · obtain ⟨t, ht, hw⟩ := (runs_clz d a).computes (fun _ => rfl) s c hg
    refine ⟨t, _, ht, hw, leadingZeros_le _, fun k hk => ?_, fun hn => ?_⟩
    · have hk64 : k < 64 := Nat.lt_of_lt_of_le hk (leadingZeros_le _)
      have := getMsbD_of_lt_leadingZeros hk
      simpa [BitVec.getMsbD, hk64, Nat.sub_sub] using this
    · have := getMsbD_leadingZeros hn
      simpa [BitVec.getMsbD, hn] using this
  · rw [popCount_eq_countP]

/-! ### Bit fields and constants (R288, R289) -/

theorem bits_eq_extractLsb' (y : Word) (hi lo : Nat) : bits y hi lo = (y.extractLsb' lo (hi - lo + 1)).toNat := by
  simp [bits, BitVec.extractLsb'_toNat, Nat.shiftRight_eq_div_pow]

theorem bfPos_eq (y : Word) : bfPos y = (y.extractLsb' 0 6).toNat := bits_eq_extractLsb' y 5 0
theorem bfWid_eq (y : Word) : bfWid y = min 64 (y.extractLsb' 8 7).toNat :=
  congrArg (min 64) (bits_eq_extractLsb' y 14 8)

theorem bfWid_le (y : Word) : bfWid y ≤ 64 := Nat.min_le_left _ _

/-- A mask of the `n` low bits of a word. -/
theorem toNat_lowOnes {n : Nat} (h : n ≤ 64) : ((BitVec.allOnes n).setWidth 64).toNat = 2 ^ n - 1 := by
  rw [BitVec.toNat_setWidth_of_le h, BitVec.toNat_allOnes]

theorem lowOnes_eq_ofNat {n : Nat} (h : n ≤ 64) : (BitVec.allOnes n).setWidth 64 = BitVec.ofNat 64 (2 ^ n - 1) := by
  rw [← toNat_lowOnes h, BitVec.ofNat_toNat, BitVec.setWidth_eq]

theorem shiftRight_and_lowOnes (x : Word) (p : Nat) {n : Nat} (h : n ≤ 64) :
    (x >>> p) &&& (BitVec.allOnes n).setWidth 64 = BitVec.ofNat 64 (x.toNat / 2 ^ p % 2 ^ n) := by
  apply BitVec.eq_of_toNat_eq
  have hlt : x.toNat / 2 ^ p % 2 ^ n < 2 ^ 64 :=
    Nat.lt_of_lt_of_le (Nat.mod_lt _ (Nat.two_pow_pos n)) (Nat.pow_le_pow_right (by decide) h)
  rw [BitVec.toNat_and, toNat_lowOnes h, BitVec.toNat_ushiftRight, Nat.shiftRight_eq_div_pow,
    Nat.and_two_pow_sub_one_eq_mod, BitVec.toNat_ofNat, Nat.mod_eq_of_lt hlt]

/-- Sign extension of a number below 2^n, as the arithmetic of R288 has it. -/
theorem signExtend_ofNat {n x : Nat} (hx : x < 2 ^ n) :
    (BitVec.ofNat n x).signExtend 64 =
      if 2 ^ (n - 1) ≤ x then BitVec.ofInt 64 (Int.ofNat x - 2 ^ n) else BitVec.ofNat 64 x := by
  have hto : (BitVec.ofNat n x).toNat = x := by rw [BitVec.toNat_ofNat, Nat.mod_eq_of_lt hx]
  show BitVec.ofInt 64 (BitVec.ofNat n x).toInt = _
  rw [BitVec.toInt_eq_msb_cond, BitVec.msb_eq_decide, hto]
  by_cases h : 2 ^ (n - 1) ≤ x <;> simp [h]

theorem bfExtract_eq (x y : Word) : bfExtract x y =
    let ext := (x >>> bfPos y) &&& (BitVec.allOnes (bfWid y)).setWidth 64
    if y.getLsbD 15 && decide (0 < bfWid y) then (ext.setWidth (bfWid y)).signExtend 64 else ext := by
  have hw := bfWid_le y
  rw [shiftRight_and_lowOnes x (bfPos y) hw]
  have hx : x.toNat / 2 ^ bfPos y % 2 ^ bfWid y < 2 ^ bfWid y := Nat.mod_lt _ (Nat.two_pow_pos _)
  unfold bfExtract bfSx
  dsimp only
  generalize x.toNat / 2 ^ bfPos y % 2 ^ bfWid y = z at hx
  by_cases h : (y.getLsbD 15 && decide (0 < bfWid y)) = true
  · have hz : (BitVec.ofNat 64 z).setWidth (bfWid y) = BitVec.ofNat (bfWid y) z := BitVec.setWidth_ofNat_of_le hw z
    rw [if_pos h, hz, signExtend_ofNat hx, h, Bool.true_and]
    simp only [decide_eq_true_eq]
  · rw [if_neg h, Bool.eq_false_iff.2 h]
    rfl

theorem bfInsert_eq (z x y : Word) : bfInsert z x y =
    let m := (BitVec.allOnes (bfWid y)).setWidth 64 <<< bfPos y
    (z &&& ~~~m) ||| ((x <<< bfPos y) &&& m) := by
  rw [lowOnes_eq_ofNat (bfWid_le y)]
  rfl

theorem runs_bfx (d a b : BitVec 8) : RunsAs (.bfx d a b) d (fun c => bfExtract (c.get a) (c.get b)) 4 :=
  ⟨fun _ => rfl, rfl⟩
theorem runs_bfi (d a b : BitVec 8) : RunsAs (.bfi d a b) d (fun c => bfInsert (c.get d) (c.get a) (c.get b)) 4 :=
  ⟨fun _ => rfl, rfl⟩
theorem runs_li (d : BitVec 8) (i : BitVec 16) : RunsAs (.li d i) d (fun _ => i.signExtend 64) 4 :=
  ⟨fun _ => rfl, rfl⟩
theorem runs_liSx (d : BitVec 8) (i : BitVec 16) (lit : Word32) :
    RunsAs (.liSx d i lit) d (fun _ => lit.signExtend 64) 8 := ⟨fun _ => rfl, rfl⟩
theorem runs_lih (d : BitVec 8) (i : BitVec 16) : RunsAs (.lih d i) d (fun c => withHigh (c.get d) (i.signExtend 32)) 4 :=
  ⟨fun _ => rfl, rfl⟩
theorem runs_lihSx (d : BitVec 8) (i : BitVec 16) (lit : Word32) :
    RunsAs (.lihSx d i lit) d (fun c => withHigh (c.get d) lit) 8 := ⟨fun _ => rfl, rfl⟩

/-- R288, R289: BFX, BFI, LI and LIH. -/
theorem fieldsAndConstants : Says.FieldsAndConstants := by
  unfold Says.FieldsAndConstants
  intro pos wid ones
  have hpos : bfPos = pos := funext bfPos_eq
  have hwid : bfWid = wid := funext bfWid_eq
  refine ⟨fun d a b => (runs_bfx d a b).computes fun _ => ?_, fun d a b => (runs_bfi d a b).computes fun _ => ?_,
    fun d i => (runs_li d i).computes fun _ => rfl, fun d i lit => (runs_liSx d i lit).computes fun _ => rfl,
    fun d i => (runs_lih d i).computes fun _ => rfl, fun d i lit => (runs_lihSx d i lit).computes fun _ => rfl⟩
  · rw [bfExtract_eq, hpos, hwid]
  · rw [bfInsert_eq, hpos, hwid]

/-- Settles O4: the counts of the model against the bits they count, the fields of BFX and BFI as exact numbers, and the
words whose B is not 0. -/
theorem countsFieldsAndConstants : Obligations.CountsFieldsAndConstants := ⟨bitCounts, fieldsAndConstants⟩

end Sys2Proof.Machine
end

section
/-!
Jumps to a register's address (R306): where the fragment goes, and the two traps of a target.
-/
namespace Sys2Proof.Machine

/-- The bytes from the fragment to an address, modulo 2^64. -/
def Ctx.distance (c : Ctx) (t : Word) : Nat := (t - c.f.spc).toNat

theorem after_distance (c : Ctx) (t : Word) : c.after (c.distance t) = t := by
  unfold Ctx.after Ctx.distance
  rw [BitVec.ofNat_toNat, BitVec.setWidth_eq, BitVec.add_comm, BitVec.sub_add_cancel]

/-- Going to an address is skipping the bytes up to it. -/
theorem goto_eq_skip (s : State) {c : Ctx} (h : c.w.frags.get? c.frag = some c.f) (t : Word) :
    c.goto s c.w t = c.skip s (c.distance t) := by
  have hspc : c.f.spc + BitVec.ofNat 64 (c.distance t) = t := after_distance c t
  simp only [Ctx.goto, Ctx.skip, Ctx.complete, Wave.advance, Tab.update, h, hspc]

theorem goto_goesOn (s : State) {c : Ctx} (h : c.w.frags.get? c.frag = some c.f) (t : Word) :
    goesOn s (c.goto s c.w t) c t := by
  have hskip := skip_goesOn s h (c.distance t)
  rwa [← goto_eq_skip s h, after_distance] at hskip

theorem trapOr_of_no_spec {c : Ctx} (h : c.w.spec = []) (s : State) (t : Trap) :
    trapOr s c t = .next (s.trapAt c t) := by
  simp [trapOr, h]

theorem inGlobal_iff (t : Word) : inGlobal t = true ↔ t.toNat < 2 ^ 56 := decide_eq_true_iff

theorem low2_eq_zero_iff (t : Word) : t.extractLsb' 0 2 = 0 ↔ t.toNat % 4 = 0 := by
  rw [← BitVec.toNat_inj]; simp [BitVec.extractLsb'_toNat]

theorem jumpReg_aligned (s : State) (c : Ctx) {t : Word} (hin : t.toNat < 2 ^ 56) (hal : t.toNat % 4 = 0) :
    c.jumpReg s t = .next (c.goto s c.w t) := by
  simp [Ctx.jumpReg, Ctx.jump, (inGlobal_iff t).2 hin, (low2_eq_zero_iff t).2 hal]

theorem jumpReg_unaligned (s : State) (c : Ctx) {t : Word} (hin : t.toNat < 2 ^ 56) (hal : t.toNat % 4 ≠ 0) :
    c.jumpReg s t = trapOr s c { cause := 0x04, tval := t } := by
  have hlow : t.extractLsb' 0 2 ≠ 0 := mt (low2_eq_zero_iff t).1 hal
  unfold Ctx.jumpReg
  rw [(inGlobal_iff t).2 hin, Bool.true_and, if_pos (bne_iff_ne.2 hlow)]

theorem jumpReg_outside (s : State) (c : Ctx) {t : Word} (hout : 2 ^ 56 ≤ t.toNat) :
    c.jumpReg s t = trapOr s c { cause := 0x20, tval := t } := by
  have hglobal : inGlobal t = false := Bool.eq_false_iff.2 (mt (inGlobal_iff t).1 (Nat.not_lt.2 hout))
  simp only [Ctx.jumpReg, Ctx.jump, hglobal, Bool.false_and, Bool.false_eq_true, if_false]

/-- An instruction whose arm is `Ctx.jumpReg` at its target jumps as R306 says. -/
theorem jumpsTo_of_jumpReg {i : Instr} {target : Ctx → Word}
    (h : ∀ s, exec i s = scalarOp i s (fun c => c.jumpReg s (target c))) : jumpsTo i target := by
  intro s c hg
  rw [h, scalarOp_run hg]
  refine ⟨fun hin hal => ⟨_, jumpReg_aligned s c hin hal, goto_goesOn s (gate_frag hg) _⟩, fun hin hal hs => ?_,
    fun hout hs => ?_⟩
  · rw [jumpReg_unaligned s c hin hal, trapOr_of_no_spec hs]
  · rw [jumpReg_outside s c hout, trapOr_of_no_spec hs]

/-- Settles O7: JMPI and RET are `Ctx.jumpReg` at their registers, and the decoder refuses their words with a nonzero bit
in a field fixed at 0. -/
theorem jumps : Obligations.Jumps :=
  ⟨fun _ => jumpsTo_of_jumpReg fun _ => rfl, jumpsTo_of_jumpReg fun _ => rfl,
    fun _ _ _ h lit => decodeScalar_jmpi_of_ne h lit, fun _ h lit => decodeScalar_ret_of_ne h lit⟩

end Sys2Proof.Machine
end
